-- ==== Sys2Proof/Word.lean ====
section
/-! DEFINITION. The word types of the M24 model: bytes, 32-bit words and 64-bit words. -/

namespace Sys2Proof

/-- A byte: the smallest addressable unit (R6). -/
abbrev Byte := BitVec 8

/-- A 32-bit word: a keeper register (R430), a binary32 value (R23) or a Tombola word (R125). -/
abbrev W32 := BitVec 32

/-- A byte string, lowest address first (R6). -/
abbrev Bytes := List (BitVec 8)

end Sys2Proof
end

