-- ==== Sys2Proof/Syntax.lean ====
section
/-! DEFINITION. The commands and events of the M24: one constructor of `Instr` per row of spec/opcode_table.json,
with the operands its rule gives it. A Cusis command's row carries the acceptance number of the request that it executes
(R379); a row about a work item carries the item's key; a row about a place carries the place. -/

namespace Sys2Proof

/-- The name of one work item: its pitch, its queue and its sequence number (R139). -/
structure ItemKey where
  tag : Nat
  queue : Nat
  seq : Nat
  deriving DecidableEq, Repr

/-- A physical cluster of the module (R11). -/
structure Place where
  die : Nat
  cluster : Nat
  deriving DecidableEq, Repr

/-- The engines of a cluster (R152). -/
inductive Engine where
  | arrays
  | mvp
  | vector
  | mover0
  | mover1
  /-- The array readout unit, between the drains of an MMA (R239). -/
  | readout
  deriving DecidableEq, Repr

/-- A Mutik frame: the header fields of R342, the payload, and the trailer's ACK and CRC. -/
structure Frame where
  typ : Nat
  vc : Nat := 0
  pitchAddr : Bool := false
  ordered : Bool := false
  hchan : Nat := 0
  len : Nat := 0
  tag : Nat := 0
  srcKind : Nat := 0
  hops : Nat := 32
  status : Nat := 0
  dest : Nat := 0
  srcModule : Nat := 0
  srcDie : Nat := 0
  srcPort : Nat := 0xFF
  txn : Nat := 0
  lseq : Nat := 0
  htag : Nat := 0
  payload : Bytes := []
  ack : Nat := 0
  crc : BitVec 32 := 0
  deriving DecidableEq, Repr

/-- A frame as a port's receiver gets it: with the symbols that its FEC corrected in the frame's codewords, and the codewords that it
could not correct (R346, R444). -/
structure LinkFrame where
  frame : Frame
  corrected : Nat := 0
  uncorrectable : Nat := 0
  deriving DecidableEq, Repr

/-- The payload of a HELLO frame, and the ACK of its trailer (R342, R355). -/
structure Hello where
  serial : Bytes
  module : Nat
  assigned : Bool
  port : Nat
  adapter : Bool
  changes : Nat
  ack : Nat := 0xFFFFFFFF
  deriving DecidableEq, Repr

/-- What a LINK_CTRL frame carries (R343, R345, R346, R341). -/
inductive CtrlItem where
  /-- Cumulative credit counts per channel (R345). -/
  | credits (counts : List Nat)
  /-- A NAK of the given LSEQ (R346). -/
  | nak (n : Nat)
  /-- A lane map: the lane the spare replaces (R341). -/
  | laneMap (lane : Nat)
  deriving DecidableEq, Repr

/-- A LINK_CTRL frame: what it carries, and the ACK of its trailer (R342). -/
structure LinkCtrl where
  item : CtrlItem
  ack : Nat := 0xFFFFFFFF
  deriving DecidableEq, Repr

/-- A keeper frame (R431): TYPE, TAG, ADDR, DATA and CRC. -/
structure KprFrame where
  typ : Nat
  ktag : Nat
  addr : Nat
  data : BitVec 32 := 0
  crc : BitVec 32 := 0
  deriving DecidableEq, Repr

/-- One failing address that a self-test engine recorded (R419, R429). -/
structure Failure where
  /-- KIND of R429: 0 SRAM, 1 accumulator, 2 Crusher, 3 DRAM channel, 4 array, 5 Ringmaster RAM, 6 fabric, 7 keeper RAM. -/
  kind : Nat
  cluster : Nat
  /-- The bank, channel or array index. -/
  unit : Nat
  /-- Word, sector or DRAM row (R429). -/
  addr : Nat
  /-- The failing bit column of the word, for the assignment rule of R423. -/
  column : Nat
  observed : Nat
  /-- An engine recorded this address; else the entry stands for the instance, whose signature alone is given (R419). -/
  recorded : Bool := true
  deriving DecidableEq, Repr

/-- A DRAM page that the background march has worked on, with what its engines recorded (R416, R421). -/
structure MarchedPage where
  page : Nat
  failures : List Failure := []
  deriving DecidableEq, Repr

/-- A word or sector of a die's stores: at an offset in the die's space, or in a row, bank × 256 + row, of the SECDED banks of a
KIND of R429 that the space does not show (R163, R174, R426). -/
inductive StorePlace where
  | space (offset : Nat)
  | bank (kind row : Nat)
  deriving DecidableEq, Repr

/-- A read that meets an error: where, and the bad symbols of the unit: bits of a word, 16-bit symbols of a sector (R174, R175). -/
structure ErrorAt where
  place : StorePlace
  symbols : Nat
  deriving DecidableEq, Repr

/-- One sampled token of a token step: the target samples of a session (R206, R207). -/
structure Sampled where
  token : Nat
  logprob : BitVec 32
  deriving DecidableEq, Repr

/-- What a token step's SAMPLE items gave for one of its sessions: the drafts that the shadow proposed and the
target samples t[0] to t[d]; `invalid` marks an invalid row (R121, R199). -/
structure StepResult where
  session : Nat
  drafts : List Nat
  samples : List Sampled
  invalid : Bool := false
  deriving DecidableEq, Repr

/-- The TAP instructions of R457. -/
inductive TapInstr where
  | bypass
  | idcode
  | samplePreload
  | extest
  | extestPulse
  | extestTrain
  | clamp
  | highz
  deriving DecidableEq, Repr

/-- Where the read of a work item meets an uncorrectable unit (R177): at a pitch address, in the accumulator of that number
(0 to 32767) in the slots of its cluster, or in the word of the staging pool that holds its copy of a pitch address. -/
inductive BadRead where
  | addr (a : Nat)
  | slot (n : Nat)
  | staged (a : Nat)
  deriving DecidableEq, Repr

/-- The commands and events of the M24. -/
inductive Instr where
  -- Cusis commands of the pitches (R310 to R334); `seq` is the acceptance number of the request (R379)
  | pitchCreate (seq : Nat)
  | pitchRelease (seq : Nat)
  | pitchBindPort (seq : Nat)
  | pitchSuspend (seq : Nat)
  | pitchResume (seq : Nat)
  | pitchQuery (seq : Nat)
  | pitchMeterRead (seq : Nat)
  -- work queues (R162)
  | workQueueOpen (seq : Nat)
  | workQueueClose (seq : Nat)
  | workAbort (seq : Nat)
  | workContextSave (seq : Nat)
  | workContextRestore (seq : Nat)
  -- serving (R186 to R230)
  | svcModelLoad (seq : Nat)
  | svcSessionOpen (seq : Nat)
  | svcSubmit (seq : Nat)
  | svcSessionPause (seq : Nat)
  | pauseRecordWritten (tag model session : Nat)
  | svcSessionResume (seq : Nat)
  | svcSessionClose (seq : Nat)
  | svcBoothConfig (seq : Nat)
  -- training (R244 to R285)
  | trnRunConfig (seq : Nat)
  | trnUpdateRuleSet (seq : Nat)
  | trnScheduleSet (seq : Nat)
  | trnCheckpointConfigure (seq : Nat)
  | trnCheckpointNow (seq : Nat)
  | trnCheckpointRestore (seq : Nat)
  | trnCheckpointQuery (seq : Nat)
  | trnStepMultiplier (seq : Nat)
  -- the RL cycle (R290 to R297)
  | turnPlan (seq : Nat)
  | turnStartStart (seq : Nat)
  | turnStartStop (seq : Nat)
  | turnStartContinue (seq : Nat)
  | turnStatus (seq : Nat)
  | turnRewardPost (seq : Nat)
  -- the fabric (R362 to R365)
  | fabPortSet (seq : Nat)
  | fabRouteSet (seq : Nat)
  | fabDiscoverQuery (seq : Nat)
  | fabDiscoverSetId (seq : Nat)
  | fabDiscoverRefresh (seq : Nat)
  | fabBridgeSet (seq : Nat)
  -- firmware (R388, R389)
  | fwStageBegin (seq : Nat)
  | fwStageData (seq : Nat)
  | fwStageVerify (seq : Nat)
  | fwStageDiscard (seq : Nat)
  | fwStageQuery (seq : Nat)
  | fwActivate (seq : Nat)
  | flashRewriteDone (good : Bool)
  | standbyReadyTimeout
  | handoverBoundaryTimeout
  | attestQuote (seq : Nat)
  | devIdentity (seq : Nat)
  -- self-test and repair commands (R422 to R429)
  | bistRun (seq : Nat)
  | repairSoft (seq : Nat)
  | repairFuse (seq : Nat)
  | bistResult (seq : Nat)
  -- power commands (R412 to R414)
  | pwrDieStateQuery (seq : Nat)
  | pwrDieStateSetCap (seq : Nat)
  | pwrDieStateSetIdle (seq : Nat)
  | pwrDieStateDrain (seq : Nat)
  | pwrDieStateReturn (seq : Nat)
  | pwrDieStateOff (seq : Nat)
  | pwrDieStateKeeperOnly (seq : Nat)
  | pwrDieStateExit (seq : Nat)
  | telemetryRead (seq : Nat)
  | eventLogRead (seq : Nat)
  | logicalClusterMove (tag lcluster : Nat)
  -- queues and items (R139 to R161)
  | doorbell (tag queue value : Nat)
  | ackWr (tag queue value : Nat)
  | controlPageWriteInvalid (tag queue offset : Nat) (data : Bytes)
  | descriptorConsume (tag queue : Nat)
  | itemReady (key : ItemKey)
  | itemStaged (key : ItemKey)
  | carouselDispatch (place : Place) (engine : Engine)
  | clusterWake (place : Place)
  | mma (key : ItemKey)
  | arrayTileHandoff (key : ItemKey)
  | ewOperation (key : ItemKey)
  | mvp (key : ItemKey)
  | mvpStripHandoff (key : ItemKey)
  | vec (key : ItemKey)
  | sample (key : ItemKey)
  | logsoftmax (key : ItemKey)
  | move (key : ItemKey)
  | collective (key : ItemKey)
  | collectivePass1AtRoot (tag ident : Nat)
  | collectiveAnchorReceived (key : ItemKey)
  | collectiveResultWritten (tag ident : Nat)
  | rand (key : ItemKey)
  | signal (key : ItemKey)
  | wait (key : ItemKey)
  | itemComplete (key : ItemKey)
  | runningItemAbortStop (key : ItemKey)
  | stridedGapFault (key : ItemKey)
  | scaleRecheckFail (key : ItemKey)
  | uncorrectableRead (key : ItemKey) (at_ : BadRead)
  -- memory errors (R175, R176, R426)
  | correctedErrorWriteback (die : Nat) (place : ErrorAt)
  | patrolScrub (die : Nat) (place : StorePlace) (symbols : Nat)
  | rowRepairInService (die kind row : Nat)
  | logicalClusterSwitch (place : Place) (lcluster : Nat)
  | clusterDoze (place : Place)
  | clusterRest (place : Place)
  | dramPllStop (die : Nat)
  -- Gulper and the booth (R197 to R230)
  | tokenStepForm (tag model : Nat)
  | tokenStepCommit (tag model step latencyNs : Nat) (results : List StepResult)
  | boothResumePass (tag model : Nat)
  | boothModeChange (tag model : Nat)
  | tokenStepFail (tag model step : Nat)
  | hashedBlockUncorrectable (tag model block : Nat)
  | sessionExpire (tag model session : Nat)
  -- the RL cycle's own steps (R291 to R306)
  | rewardProgramRun (tag run : Nat)
  | learnProgramRun (tag run : Nat)
  | rolloutEnd (tag run admitSeq : Nat)
  | phaseStart (tag run : Nat)
  | turnoverOpen (tag run : Nat)
  | turnoverArmed (tag run : Nat)
  | drainEnd (tag run : Nat)
  | swapStart (tag run : Nat)
  | layerWindowOpen (tag run layer : Nat)
  | layerGateOpen (tag run layer : Nat)
  | turnoverDone (tag run : Nat)
  | windowOpenTimeout (tag run layer : Nat)
  -- the Crusher (R247 to R288)
  | crusherDelivery (tag ident : Nat)
  | blockUpdate (tag run layer block : Nat)
  | blockMissed (tag run layer block : Nat)
  | heldBlockStage (tag run layer block : Nat)
  | heldBlocksApply (tag run ldie : Nat)
  | laggedMultWaitEnd (tag run layer block : Nat)
  | normPartialSend (tag run ldie : Nat)
  | runStepCommit (tag run : Nat)
  | kronRefreshDone (tag run layer block : Nat)
  | emissionSend (tag run layer block : Nat)
  | checkpointLayerSend (tag run ldie layer : Nat)
  | checkpointSlotComplete (tag run : Nat)
  | checkpointTimeout (tag run : Nat)
  -- Mutik links (R339 to R361)
  | linkFrameReceive (port : Nat) (frame : LinkFrame)
  | nakReceive (port n : Nat)
  | replayLimit (port : Nat)
  | linkCtrlReceive (port : Nat) (ctrl : LinkCtrl)
  | creditReturnTimer (port : Nat)
  | routeFrame (die index : Nat)
  | routingFaultDiscard (die index : Nat)
  | replayTakeback (port : Nat)
  | e2eFrameDeliver (die : Nat) (frame : Frame)
  | e2eResponseReceive (die : Nat) (frame : Frame)
  | e2eResendTimer (die txn : Nat)
  | e2eTransactionFail (die txn : Nat)
  | hostIngress (port vc : Nat) (frame : Frame)
  | controlPageWriteRelease (port : Nat)
  | hostWindowEgress (die : Nat) (frame : Frame)
  | helloReceive (port : Nat) (hello : Hello)
  | helloTimer
  | portSignalDetect (port lanes : Nat)
  | portTrainDone (port : Nat) (hello : Hello)
  | portTrainTimeout (port : Nat)
  | portDown (port : Nat)
  | laneFail (port lane : Nat)
  -- mailboxes and the Ringmaster (R368 to R382)
  | msgSegmentReceive (frame : Frame)
  | msgStatusRead (frame : Frame)
  | msgAssemblyTimeout (mailbox : Nat)
  | requestSubmit (mailbox : Nat)
  | fenceRelease (seq : Nat)
  | replayEntryExpire (mailbox requestId : Nat)
  | coordinationTimeout (seq : Nat)
  | suspendTimeout (tag : Nat)
  | ringmasterTakeover
  | heartbeatTimeout (pair : Nat)
  | serviceCoreFault (core : Nat)
  | takeoverResume
  | boot
  | recoveryAnnounce
  -- power, clocks and reset (R394 to R409)
  | powerOnSequence (vinMv : Nat)
  | railRegulationTimeout (die rail : Nat)
  | undervoltageReset (vinMv : Nat)
  | overvoltageReset (vinMv : Nat)
  | overVoltage (vinMv : Nat)
  | resetNAssert (us : Nat)
  | modEnableDeassert (us : Nat)
  | dipBegin (vinMv : Nat)
  | dipInputRise (vinMv : Nat)
  | dipEnd (vinMv : Nat)
  | powerControlEval (power1ms power10ms currentMa : Nat)
  | stepChangeDone (die : Nat)
  | thermalControlEval (die : Nat) (tj : Int) (sensor : Nat)
  | thermalTrip (die : Nat) (tj : Int)
  | phaseLost (die rail phase : Nat)
  | keeperOnlyEntry (cause : Nat)
  | pwarnEval (watts : Nat)
  | meterMinute
  | unmarchedFirstWrite (die page : Nat)
  | backgroundMarchPage (die : Nat) (page : MarchedPage)
  | testWindowLost (die : Nat)
  | testComplete (die : Nat) (failures : List Failure)
  | sparesTestAfterPowerOn (die : Nat) (failures : List Failure)
  -- the keeper port (R431 to R445)
  | keeperFrameReject (frame : KprFrame)
  | reset (ktag : Nat) (data : BitVec 32)
  | rstLock (ktag : Nat) (data : BitVec 32)
  | mbx0Doorbell (ktag : Nat) (data : BitVec 32)
  | mbx0RspRelease (ktag : Nat) (data : BitVec 32)
  | alertPend (ktag : Nat) (data : BitVec 32)
  | cntClr (ktag port : Nat) (data : BitVec 32)
  | registerLoRead (ktag addr : Nat)
  | registerWrite (ktag addr : Nat) (data : BitVec 32)
  | keeperDomainLoss (vinMv : Nat)
  | keeperFailover
  | x4RetrainDone (port : Nat)
  | sourceStateIdle (die srcModule srcDie : Nat)
  | unmarchedSramMarch (die : Nat)
  | tapInstruction (instr : TapInstr)
  | dipInputFall (vinMv : Nat)
  deriving DecidableEq, Repr

end Sys2Proof
end

