-- ==== Sys2Proof/Config.lean ====
section
/-! DEFINITION. What the spec fixes for every module as constants, and the values that the spec leaves open as opaque
constants: nothing can evaluate one, so a statement holds for every value it may have. A free value is applied to the
machine's own count of draws (`State.free`) or to the operands it depends on. -/

namespace Sys2Proof.Config

/-! ### Constants of the part -/

/-- Dies, clusters of a die, ports and mailboxes (R11, R370). -/
def dies : Nat := 24
def clusters : Nat := 16
def ports : Nat := 72
def mailboxes : Nat := 64

/-- Bytes of a cluster's DRAM partition, and of its pitch-visible part (R163, R164). -/
def partitionBytes : Nat := 0x90000000
def windowBytes : Nat := 0x8C000000

/-- Pages of 2 MiB in a partition's pitch-visible part and in a die (R173, R443). -/
def pageBytes : Nat := 0x200000
def partitionPages : Nat := 1120
def diePages : Nat := 17920

/-- Bytes of a cluster's SRAM (R11). -/
def sramBytes : Nat := 0x800000

/-- The limits of R145. -/
def maxQueues : Nat := 128
def maxInFlight : Nat := 8192
def maxRemote : Nat := 64
def counters : Nat := 4096

/-- Entries of the event log (R411) and of the test log (R429). -/
def logEntries : Nat := 4096
def testRecords : Nat := 64

/-! ### Free values -/

/-- Bytes from the hardware entropy source: keys drawn at creation, boot and hand-over (R180, R200, R390). -/
opaque entropy : Nat → Nat → Bytes

/-- A byte whose value the spec calls undefined (R3), by the count of draws and its position. -/
opaque undefinedByte : Nat → Nat → BitVec 8

/-- What an accumulator slot holds after an item that had begun to write it ended ABORTED or failed (R96), by the count of
draws and its position: its value, SAT and INV. -/
opaque undefinedSlot : Nat → Nat → BitVec 256 × Bool × Bool

/-- Where a byte that becomes undefined in a pitch's memory comes from: a pitch address, since an undefined range holds only
data written by its own pitch or the pattern of a scrub (R3). By the count of draws and the byte's position. -/
opaque undefinedSource : Nat → Nat → Nat

/-- How many remote transfers of a cluster's running items are under way at an instant (R145): the spec gives no times. By the
count of draws and the local time. -/
opaque transfersOpen : Nat → Nat → Nat

/-- Which of the outcomes that the orders of its additions allow an accumulator has: the order is not specified (R37). -/
opaque saturationOrder : Nat → Nat

/-- What a product with a non-finite operand adds to an accumulator in NAN mode: the spec states what the accumulator reads
out as (R32), and no value. A function of the operands alone (R50, R51), and below 2^93 as a finite product is (R35). -/
opaque invalidProduct : List Int → List Int → BitVec 94

/-- The low byte of the CODE of an event whose code the spec does not number (R411). -/
opaque eventLow : String → BitVec 8

/-- Whether an event whose severity the spec does not state is a WARN (else an INFO) (R411). -/
opaque eventIsWarn : String → Bool

/-- The DATA of an event whose data the spec does not define (R411). -/
opaque eventData : String → Nat → BitVec 64

/-- The reset count and the PITCH_CREATE acceptance number that another module of a pitch answers, as the module of the
pitch's logical die 0 (R159, R160): module and tag. -/
opaque remoteOrigin : Nat → Nat → Nat × Nat

/-- How many patch entries follow a descriptor of a step program: the spec does not say where a patch list ends (R189). By
the program and the descriptor's index. -/
opaque patchCount : Bytes → Nat → Nat

/-- Of which item an item of a step program is the MVP variant, if of any (R189 lets a program supply variants and does not say
how). By the program's descriptors and the item's index. -/
opaque mvpVariant : Bytes → Nat → Option Nat

/-- POSITION, LOGPROB and EPOCH of a record that carries no token, which the spec does not state (R196). -/
opaque noTokenPosition : Nat → BitVec 64
opaque noTokenLogprob : Nat → BitVec 32
opaque noTokenEpoch : Nat → BitVec 32

/-- Where Gulper keeps a step's position list (0) and its SAMPLE parameter records (1), which the spec does not place (R189): pitch
addresses in units of 64 bytes, by the count of draws. -/
opaque gulperArea : Nat → Nat → Nat

/-- Crusher cycles of one block's update, metered as CRUSHER_CYCLES (R330): R283 gives them for full blocks only. By rule,
rows, columns and the count of draws. -/
opaque crusherCycles : Nat → Nat → Nat → Nat → Nat

/-- What a COLL_UP frame brings (R343): the collective and the fields that contributors agree on (R157), the contributor's index,
and in pass 1 its strip exponents and the strips with a saturated accumulator, in pass 2 its integer values, its invalid lanes
and whether it clamped. -/
structure CollUp where
  ident : Nat
  control : Nat
  dest : Bytes
  draw : Bytes
  locs : List Int
  satStrips : List Nat
  second : Bool
  sums : List (List Int)
  masks : List (List Bool)
  clamped : Bool
  deriving DecidableEq, Repr

/-- What a COLL_DOWN frame brings (R343): the anchors, or the end of the collective, with STATUS, the flags INVALID, ACC_SAT, RD_OVF
and ANC_SAT, and the three counts. -/
structure CollDown where
  ident : Nat
  anchors : List Int
  ended : Bool
  status : Nat
  flags : List Bool
  counts : List Nat
  deriving DecidableEq, Repr

/-- The payloads of these frames, and what a payload says: no rule lays them out. -/
opaque collUpPayload : CollUp → Bytes
opaque collUpOf : Bytes → Option CollUp
opaque collDownPayload : CollDown → Bytes
opaque collDownOf : Bytes → Option CollDown

/-- The die of another module's bridge that a frame to its host window addresses (R163, R178): no rule names it. By module. -/
opaque bridgeDie : Nat → Nat

/-- Whether a unit of the reserved areas of a pitch's dies is one that its saved context occupies (R164, R322): the pitch tag and
the unit's key. The spec does not lay these areas out. -/
opaque holdsContext : Nat → Nat → Bool

/-- The DRAM channel of a byte of a die's bonded DRAM: channels 8c to 8c + 7 hold the partition of cluster c in granules of 256
bytes, and the rotation changes every 2 MiB (R13, R164). -/
def dramChannel (off : Nat) : Nat :=
  let p := off % partitionBytes
  8 * (off / partitionBytes) + (((p >>> 8) ^^^ (p >>> 21)) % 8)

/-- The DRAM bank of a row of a channel, and the page it belongs to: the spec gives no layout (R423, R426). -/
opaque dramBank : Nat → Nat
opaque dramPage : Nat → Nat → Nat

/-- The row, in its channel, of an offset in a die's space (R423, R426): below 2^32, as ADDRESS of R429 holds it. -/
opaque dramRow : Nat → BitVec 32

/-- How many SRAM images of logical clusters that are not loaded fit beside one physical cluster (R161). -/
opaque spareImages : Nat

/-- The ECDSA signature of a digest under a key drawn from entropy: the nonce of the signature is not given (R333,
R390). Key index, digest, count of draws. -/
opaque signature : Nat → Bytes → Nat → Bytes

/-- The public key of an attestation key drawn from entropy, and of the device identity key (R390, R391). -/
opaque publicKey : Nat → Bytes
opaque devicePublicKey : Bytes

/-- The certificate of an attestation key, by key, serial, measurement, SVN and reset count (R390). -/
opaque attestCert : Nat → Bytes → Bytes → Nat → Nat → Bytes

/-- The observed signature of a failure entry that no test recorded, a repair in service (R426, R429), by the count of
draws. -/
opaque observedSignature : Nat → BitVec 64

/-- TAG of an ANNOUNCE frame, which no frame of the operator chose (R431, R434), by the count of draws. -/
opaque announceTag : Nat → BitVec 8

/-- Which spare an address that the SPARES test recorded belongs to, by KIND, INSTANCE and ADDRESS: 0 a row, 1 a column or
column group, 2 a page, and its index. The spec gives no layout (R423). -/
opaque spareUnit : Nat → Nat → Nat → Nat × Nat

/-- A Ringmaster pair passes the lockstep check of its start-up test, by the pair and the count of draws (R386, R421). -/
opaque lockstepPasses : Nat → Bool

/-- What the keepers measure at a local time: the power of a die's rails in W, and the coolant temperatures (R404, R413). -/
opaque diePower : Nat → Nat → BitVec 32
opaque coolantIn : Nat → BitVec 16
opaque coolantOut : Nat → BitVec 16

/-- The four bytes of the MOD_ENABLE marker, and the bytes of the identity EEPROM that no rule assigns (R437, R454). -/
opaque enableMarker : BitVec 32
opaque eepromGap : Nat → BitVec 8

/-- Whether what was written into a saved context changed it (R159, R322), by the count of draws. -/
opaque contextDiffers : Nat → Bool

/-- The vendor code of the BSDL file (R457). -/
opaque vendorCode : BitVec 11

/-- A unit with more bad symbols than its code detects for certain is detected all the same (R174; notes/assumptions/68.md). -/
opaque codeDetects : Nat → Nat → Bool

/-- The golden signature that keeper ROM holds, by instance kind and algorithm (R419). -/
opaque goldenSignature : Nat → BitVec 64

/-- The words of a SECDED bank by KIND of R429: up to 16,384 (R415), and no rule gives the number. -/
opaque bankWords : Nat → Nat

end Sys2Proof.Config
end

