-- ==== Sys2Proof/Machine/Bytes.lean ====
section
/-! DEFINITION. Byte strings: little-endian fields (R6), reads of fields from a message or record, reserved ranges, and
the CRC-32C of R342 and R431. -/

namespace Sys2Proof.Machine

open Sys2Proof

/-- The byte at an offset; beyond the end a byte reads as zero (log entry 9). -/
def byteAt (b : Bytes) (off : Nat) : Nat := (b.getD off 0).toNat

/-- The `n`-byte little-endian field at an offset (R6). -/
def field (b : Bytes) (off : Nat) : Nat → Nat
  | 0 => 0
  | n + 1 => byteAt b off + 256 * field b (off + 1) n

def u8 (b : Bytes) (off : Nat) : Nat := field b off 1
def u16 (b : Bytes) (off : Nat) : Nat := field b off 2
def u32 (b : Bytes) (off : Nat) : Nat := field b off 4
def u64 (b : Bytes) (off : Nat) : Nat := field b off 8

/-- Bits [lo + n - 1 : lo] of a number. -/
def bits (w lo n : Nat) : Nat := (w >>> lo) % 2 ^ n

/-- Bit `i` of a number. -/
def bit (w i : Nat) : Bool := w.testBit i

/-- The two's complement value of an `n`-bit field. -/
def signed (w n : Nat) : Int := if w % 2 ^ n < 2 ^ (n - 1) then (w % 2 ^ n : Nat) else (w % 2 ^ n : Nat) - (2 ^ n : Nat)

/-- The `n`-bit two's complement code of an integer. -/
def unsigned (x : Int) (n : Nat) : Nat := (x % (2 ^ n : Nat)).toNat

/-- `n` bytes of a number, little-endian (R6). -/
def le (n v : Nat) : Bytes :=
  match n with
  | 0 => []
  | n + 1 => BitVec.ofNat 8 v :: le n (v / 256)

/-- The bytes [off, off + n), zeros beyond the end. -/
def slice (b : Bytes) (off n : Nat) : Bytes := (List.range n).map fun i => b.getD (off + i) 0

/-- The bytes [off, off + n) are zero (R4). -/
def zeroRange (b : Bytes) (off n : Nat) : Bool := ((b.drop off).take n).all (· == 0)

/-- Every byte from an offset on is zero (R4: "the rest is reserved"). The tables of WORK_QUEUE_OPEN, SVC_SUBMIT, TRN_RUN_CONFIG and
TURN_PLAN have no such row and the spec is silent on bytes after their last field: for these four commands the test is a
DESIGN CHOICE (notes/assumptions/9.md). -/
def restZero (b : Bytes) (off : Nat) : Bool := (b.drop off).all (· == 0)

/-- The bytes as one number, little-endian. -/
def number : Bytes → Nat
  | [] => 0
  | x :: xs => x.toNat + 256 * number xs

/-- The bytes as one number, big-endian (R333, R383). -/
def numberBE (b : Bytes) : Nat := b.foldl (fun acc x => acc * 256 + x.toNat) 0

/-- `n` bytes of a number, big-endian. -/
def be (n v : Nat) : Bytes := (le n v).reverse

/-- A byte string brought to `n` bytes with zeros. -/
def padTo (b : Bytes) (n : Nat) : Bytes := b ++ List.replicate (n - b.length) 0

/-- Rounded up to a multiple of `m`. -/
def roundUp (n m : Nat) : Nat := (n + m - 1) / m * m

/-- Quotient rounded up. -/
def ceilDiv (n m : Nat) : Nat := (n + m - 1) / m

/-- Saturating increment of a counter register. -/
def satInc (n max : Nat) : Nat := if n < max then n + 1 else n

/-- A time limit has run out: `k` ticks have passed since `t`, that is `t + k ≤ now` (`due_iff`). The two cases of `now` say the
same; they keep the kernel from counting a long limit up by ones. -/
def due (t k : Nat) : Nat → Bool
  | 0 => t + k = 0
  | n + 1 => t + k ≤ n + 1

theorem due_iff (t k now : Nat) : due t k now = true ↔ t + k ≤ now := by
  cases now <;> simp [due]

/-- One bit of the reflected CRC-32C register, polynomial 0x1EDC_6F41 (R342). -/
def crcBit (c : BitVec 32) : BitVec 32 :=
  if c.getLsbD 0 then (c >>> 1) ^^^ 0x82F63B78 else c >>> 1

/-- CRC-32C of a byte string (R342, R385, R431), in the usual reflected form with complemented start and end. -/
def crc32c (b : Bytes) : BitVec 32 :=
  ~~~ (b.foldl (fun c x => (List.range 8).foldl (fun c _ => crcBit c) (c ^^^ x.setWidth 32)) 0xFFFFFFFF)

end Sys2Proof.Machine
end

