-- ==== Sys2Proof/Machine/State.lean ====
section
/-! DEFINITION. The state of one M24 module: everything the spec gives the machine, as plain data, the reasons a
command can stop, and the state right after a power-on reset. Counts, indices, times (local counts of 40 ns, R8) and
addresses are `Nat`; register contents, seeds and binary32 values are bit vectors. -/

namespace Sys2Proof.Machine

open Sys2Proof

/-- Why the machine stops. -/
inductive Fault where
  /-- Raised by a supply command whose input voltage lies above the 60 V absolute maximum of R446: the spec says that
  such a stress may damage the module and gives no behaviour. Safe: the model stops where the part may be destroyed. -/
  | absoluteMaximum (vinMv : Nat)
  deriving DecidableEq, Repr

/-- Why a command has no meaning. -/
inductive Refusal where
  /-- Raised only by an arm of `exec` whose row has no meaning yet; safe. -/
  | notModelled (mnemonic : String)
  deriving DecidableEq, Repr

/-! ### Numbers -/

/-- An exact accumulator with its status bits (R34, R38). One that stands in the accumulator buffer may have an uncorrectable
word (R174, R177): `bad`. -/
structure Acc where
  val : BitVec 256 := 0
  sat : Bool := false
  inv : Bool := false
  bad : Bool := false
  deriving DecidableEq, Repr

/-- The working accumulators of the array tile or MVP output strip in progress (R85, R104), with the flags its products
raised (R90). -/
structure TileAccs where
  key : ItemKey
  tile : Nat
  accs : List Acc
  invalid : Bool
  accSat : Bool
  deriving DecidableEq, Repr

/-! ### Clusters and dies -/

/-- Cluster power states (R399). -/
inductive ClusterSt where
  | working
  | dozing
  | resting
  | off
  deriving DecidableEq, Repr

/-- A physical cluster (R11, R399, R91, R152, R161). -/
structure Cluster where
  st : ClusterSt := .resting
  /-- Cluster cycles since the Carousel last held a dispatched item (R399). -/
  idleCycles : Nat := 0
  /-- Local counts since then (R399). -/
  idleCounts : Nat := 0
  /-- The accumulator buffer: index slot × 1,024 + position; an unlisted accumulator is zero (R91). -/
  slots : List (Nat × Acc) := []
  /-- The arrays' working accumulators (R85). -/
  tile : Option TileAccs := none
  /-- The MVP's working bank (R104). -/
  bank : Option TileAccs := none
  /-- The MVP's draining bank: the output strip handed off last (R104). -/
  drain : Option TileAccs := none
  onArrays : Option ItemKey := none
  onMvp : Option ItemKey := none
  onVector : Option ItemKey := none
  onMover0 : Option ItemKey := none
  onMover1 : Option ItemKey := none
  /-- The COLLECTIVE that the array readout unit runs between drains (R239). -/
  onReadout : Option ItemKey := none
  /-- The logical cluster whose SRAM and slots are loaded (R161). -/
  current : Option Nat := none
  /-- When the Carousel last switched logical clusters (R161). -/
  lastSwitch : Option Nat := none
  deriving DecidableEq, Repr

/-- Die states (R414). -/
inductive DieSt where
  | inService
  | draining
  | drained
  | off
  | fault
  deriving DecidableEq, Repr

/-- A soft repair (R424): KIND and INSTANCE of R429, the row, column or page, and whether it is fused (R428). KIND 8 is a spare
page and 9 the spare cluster; for an array, KIND 4, `addr` is its cluster, 16 for the spare cluster (R99). -/
structure Repair where
  kind : Nat
  inst : Nat
  addr : Nat
  column : Bool
  fused : Bool
  deriving DecidableEq, Repr

/-- A self-test in progress on a die (R422). -/
structure RunningTest where
  testId : Nat
  target : Nat
  repair : Bool
  origin : Nat
  /-- The port of a FABRIC_PORT test. -/
  port : Nat
  deriving DecidableEq, Repr

/-- A frame waiting in a die's router (R349): the frame, whether it already travels on an escape channel, and since when
it waits. -/
structure Waiting where
  frame : Frame
  escape : Bool
  since : Nat
  /-- The port and channel whose receive buffer it occupies (R345). -/
  inPort : Option (Nat × Nat)
  /-- It was taken back from a replay buffer, so HOPS stays (R347). -/
  again : Bool
  deriving DecidableEq, Repr

/-- An outstanding end-to-end transaction of a source die (R352). -/
structure Txn where
  frame : Frame
  /-- The port that its frame left on (R349). -/
  outPort : Option Nat
  firstSent : Nat
  lastSent : Nat
  /-- The current backoff interval, in local counts. -/
  interval : Nat
  /-- The work item that owns it. -/
  owner : Option ItemKey
  deriving DecidableEq, Repr

/-- What a destination die keeps for one source die (R353): the outcomes of its last 4,096 TXNs. -/
structure SourceState where
  srcModule : Nat
  srcDie : Nat
  lastSeen : Nat
  /-- TXN and the stored response. -/
  outcomes : List (Nat × Frame)
  deriving DecidableEq, Repr

/-- A die (R11, R414, R442, R443). -/
structure Die where
  st : DieSt := .inService
  step : Nat := 0
  cap : Nat := 9
  /-- The step that module power control allows (R404). -/
  powerStep : Nat := 0
  /-- The step that the die's thermal control allows (R405). -/
  thermStep : Nat := 9
  /-- A THROTTLE episode of R405 is open. -/
  hot : Bool := false
  /-- When the thermal control last moved the allowed step (R405). -/
  thermAt : Option Nat := none
  cpllOn : Bool := false
  dpllOn : Bool := false
  /-- Since when nothing needs the DRAM PLL (R397). -/
  dpllIdle : Option Nat := none
  divided : Bool := false
  /-- Junction temperature in 0.125 °C units, and the hottest sensor (R405, R442). -/
  tj : Int := 200
  tjSensor : Nat := 0
  vddCoreMv : Nat := 0
  diePower : Nat := 0
  railsUp : Bool := false
  dozeCycles : Nat := 1024
  restUs : Nat := 1000
  clusters : List Cluster := List.replicate 16 {}
  /-- Failed phases: (rail, phase), rails in the order of R442. -/
  phasesLost : List (Nat × Nat) := []
  spareFor : Option Nat := none
  repairs : List Repair := []
  fuseUsed : Nat := 0
  /-- Corrected errors by channel and by cluster SRAM (R175); one that is not listed has none. -/
  corrDram : List (Nat × Nat) := []
  corrSram : List (Nat × Nat) := []
  /-- Corrected errors of the last 24 hours: store kind, row, when (R426). -/
  rowErrors : List (Nat × Nat × Nat) := []
  test : Option RunningTest := none
  /-- The TEST_ID of the background march of released pages, while it is in progress (R421). -/
  march : Option Nat := none
  lastTest : Option Nat := none
  lastTarget : Nat := 0
  lastStatus : Nat := 0
  lastUnrepaired : Nat := 0
  /-- The SPARES test has run since the last power-on reset, and the spares that failed it (R423). -/
  sparesTested : Bool := false
  badSpares : List Failure := []
  sparesExhausted : Bool := false
  sramUnmarched : Bool := false
  /-- The DRAM pages marched since the last reset or release; every other page is UNMARCHED (R326). A page is numbered as its
partition × 1,120 plus its place among the pitch-visible pages of the partition (R443). -/
  marched : List Nat := []
  /-- UNMARCHED pages that were zeroed outside the window and written since; they wait for a march (R326). -/
  zeroed : List Nat := []
  /-- Frames discarded by the tag check (R320). -/
  foreign : Nat := 0
  /-- Route-table entries: destination module and alternates; an unlisted entry is empty (R348). -/
  routes : List (Nat × List Nat) := []
  router : List Waiting := []
  nextTxn : Nat := 0
  txns : List Txn := []
  /-- Request frames that wait for one of the 4,096 transactions, with the work item that owns them (R352). -/
  backlog : List (Frame × Option ItemKey) := []
  sources : List SourceState := []
  deriving DecidableEq, Repr

/-! ### Ports -/

/-- Port states (R339). -/
inductive PortSt where
  | disabled
  | detect
  | train
  | up
  | upX4
  | held
  | test
  deriving DecidableEq, Repr

/-- The role of a virtual channel (R316). -/
inductive Role where
  | off
  | fabric
  | host (tag : Nat)
  deriving DecidableEq, Repr

/-- A host frame held at the bridge: a write to a control page with the TXNs of the earlier writes that it waits for (R359), or a
frame that arrived behind one (R171). -/
structure HeldWrite where
  frame : Frame
  after : List Nat
  deriving DecidableEq, Repr

/-- A Mutik port (R336 to R347, R444). -/
structure Port where
  st : PortSt := .disabled
  medium : Nat := 0
  allowX4 : Bool := false
  expectValid : Bool := false
  expectModule : Nat := 0
  expectPort : Nat := 0
  activeLanes : Nat := 0
  spareInUse : Bool := false
  laneFailed : BitVec 9 := 0
  /-- The spare lane is good and not in use (R341). -/
  spareGood : Bool := true
  mismatch : Bool := false
  /-- The 4 best lanes retrain after a second lane failure (R341). -/
  x4Pending : Bool := false
  peer : Option Hello := none
  helloSeen : Bool := false
  changes : Nat := 0
  lastHello : Nat := 0
  roles : List Role := List.replicate 8 .off
  /-- Frames stamped on each channel and neither delivered nor discarded yet (R318). -/
  stamped : List Nat := List.replicate 8 0
  /-- OFF requests that wait for such frames: the request and its channels (R318). -/
  offs : List (Nat × Nat) := []
  /-- Frames for the host adapter that wait, with their channels, until the port carries traffic (R339, R360). -/
  hostOut : List (Nat × Frame) := []
  /-- Next LSEQ to send and next LSEQ expected (R346). -/
  txLseq : Nat := 0
  rxLseq : Nat := 0
  /-- Unacknowledged sent frames, oldest first (R346). -/
  replay : List Frame := []
  /-- The LSEQ whose replay fails and how often it has failed in a row (R346). -/
  failLseq : Nat := 0
  failCount : Nat := 0
  lastNak : Option Nat := none
  /-- Cumulative credits granted by the neighbour and used, per channel (R345). -/
  credGranted : List Nat := List.replicate 8 2048
  credUsed : List Nat := List.replicate 8 0
  /-- Cumulative credits freed by this receiver and told to the neighbour, per channel (R345). -/
  credFreed : List Nat := List.replicate 8 2048
  credTold : List Nat := List.replicate 8 2048
  credAt : Nat := 0
  trainAt : Nat := 0
  fecCorr : Nat := 0
  fecUncorr : Nat := 0
  crcErr : Nat := 0
  replays : Nat := 0
  trainTries : Nat := 0
  discards : Nat := 0
  /-- The counters, by their place in R444 from FEC_CORR on, that have counted in the present local count (R445). -/
  counted : List Nat := []
  /-- Host frames held at the bridge, oldest first (R171, R359). -/
  heldWrites : List HeldWrite := []
  /-- TXNs of the port's host writes not yet acknowledged end to end (R359). -/
  openWrites : List Nat := []
  deriving DecidableEq, Repr

/-- The module's place in the fabric (R354, R357). -/
structure Fabric where
  moduleId : Nat := 0xFFFF
  assigned : Bool := false
  hostPorts : List Nat := []
  routingFaults : Nat := 0
  deriving DecidableEq, Repr

/-! ### Work queues and items -/

/-- A signal counter (R150). -/
structure Counter where
  value : Nat := 0
  fault : Bool := false
  taint : Bool := false
  deriving DecidableEq, Repr

/-- A descriptor of a program as its owner has filled it (R189, R298): its index in the program, its 128 bytes, and the
tensor descriptors that its patches fill, by address. -/
structure Work where
  index : Nat
  wd : Bytes
  descs : List (Nat × Bytes)
  deriving DecidableEq, Repr

/-- A work queue (R139 to R145). -/
structure Queue where
  id : Nat
  ringBase : Nat
  compBase : Nat
  notifyAddr : Nat
  ringSize : Nat
  homeLdie : Nat
  weight : Nat
  ageLimit : Nat
  head : Nat := 0
  tail : Nat := 0
  ack : Nat := 0
  cursor : Nat := 0
  refused : Bool := false
  refusals : Nat := 0
  dieLimit : Bool := false
  frozen : Bool := false
  /-- The request whose save or suspend froze the queue, until it has ended (R158, R322). -/
  freezer : Option Nat := none
  /-- The sequence number of the WAIT item that holds consumption (R150). -/
  atWait : Option Nat := none
  ackClamped : Bool := false
  /-- Sequence numbers at or above ACK whose completion record is written (R143). -/
  recorded : List Nat := []
  /-- Abort ranges whose items are not all consumed yet (R155). -/
  aborts : List (Nat × Nat) := []
  /-- A close in progress: its request and the TAIL in force, and whether it aborts (R162). -/
  closing : Option (Nat × Nat × Bool) := none
  /-- Engine time received, for rule 4 of R153, in local counts of the last 1 ms: (when, how long). -/
  served : List (Nat × Nat) := []
  /-- The queue belongs to a Gulper instance or a cycle orchestrator (R189, R298), not to pitch software. -/
  own : Bool := false
  /-- An owner's descriptors from HEAD on, with the tensor descriptors that its patches fill. -/
  held : List (Bytes × List (Nat × Bytes)) := []
  /-- SEQ and STATUS of an owner's completed items that it has not used yet, in completion order. -/
  ended : List (Nat × Nat) := []
  /-- Of an owner's completed SAMPLE items that it has not used yet: SEQ, PARAM, and the output records as the sampler wrote them,
  rows in order (R19, R120). -/
  sampled : List (Nat × Nat × List Bytes) := []
  deriving DecidableEq, Repr

/-- Where a consumed item stands (R150, R152, R154). -/
inductive Phase where
  | waiting
  | ready
  | running
  /-- A COLLECTIVE between its two passes (R239). -/
  | anchoring
  /-- Its outcome is fixed and its completion record is not yet written. -/
  | finished
  deriving DecidableEq, Repr

/-- The result fields of a completion record (R154). -/
structure Outcome where
  status : Nat := 0
  failSlot : Nat := 0xFF
  failStep : Nat := 0
  invalid : Bool := false
  accSat : Bool := false
  rdOvf : Bool := false
  ancSat : Bool := false
  nInvalid : Nat := 0
  nAccSat : Nat := 0
  nRdOvf : Nat := 0
  slots : BitVec 32 := 0
  /-- The listed ranges, start and exclusive end. -/
  range0 : Nat × Nat := (0, 0)
  range1 : Nat × Nat := (0, 0)
  deriving DecidableEq, Repr

/-- A consumed work item (R140, R146, R150, R152). -/
structure Item where
  key : ItemKey
  /-- The 128-byte work descriptor as copied at consumption (R140). -/
  wd : Bytes
  /-- The draw offset assigned at consumption (R131). -/
  offset : Nat := 0
  /-- The tensor descriptors and frame records of DESC0 to DESC3, as fetched at validation (R72). -/
  descs : List (Option (Bytes × Option Bytes)) := []
  phase : Phase := .waiting
  /-- When its first operand sectors were staged (R152). -/
  staged : Option Nat := none
  /-- The item is LOOSE by its own mark or through a tainted counter (R53, R150). -/
  loose : Bool := false
  /-- Cluster tiles or output strips handed off (R85, R104). -/
  tiles : Nat := 0
  result : Outcome := {}
  /-- The running item is latched for abort (R155). -/
  latched : Bool := false
  /-- It has been dispatched: its staging allowance is taken until its completion (R152). -/
  dispatched : Bool := false
  startedAt : Nat := 0
  /-- What it has written outside the module is under way over the fabric (R352). -/
  stored : Bool := false
  /-- The output records of a SAMPLE item, rows in order (R120). -/
  rows : List Bytes := []
  /-- Elements that it writes and an item without an order to it writes too, as bit addresses and widths (R73). -/
  clash : List (Nat × Nat) := []
  /-- It reads an element or a slot that an item without an order to it writes (R73, R92). -/
  stale : Bool := false
  /-- Slots of its accesses that need an order to another item's and have none (R92). -/
  clashSlots : BitVec 32 := 0
  deriving DecidableEq, Repr

/-- An exact contribution value of an anchored reduction: mantissa × 2^exponent, or not finite (R46). -/
structure Exact where
  man : Int := 0
  exp : Int := 0
  bad : Bool := false
  deriving DecidableEq, Repr

/-- One contributor of a collective (R157). -/
structure Contributor where
  key : ItemKey
  cindex : Nat
  /-- Its exact values, strips in order, 32 lanes each; none of a contributor on another module. -/
  values : List (List Exact)
  /-- The strip exponents of a contributor on another module, which its COLL_UP gave (R343). -/
  locs : List Int := []
  /-- That contributor's module and die, and the TXN of its last COLL_UP. -/
  source : Option (Nat × Nat × Nat) := none
  accSat : Bool
  rounded : Bool
  deriving DecidableEq, Repr

/-- An anchored reduction in progress at its root (R46, R157). -/
structure Coll where
  ident : Nat
  /-- The fixed fields: control word, DESC3 bytes, and SEED, STREAM, OFFSET. -/
  control : Nat
  dest : Bytes
  draw : Bytes
  contributors : List Contributor
  anchors : Option (List Int)
  /-- The integer sums and the invalid mask, strips in order. -/
  sums : List (List Int)
  masks : List (List Bool)
  ancSat : Bool
  /-- Strips in which a contributor clamped or held a saturated accumulator. -/
  satStrips : List Nat
  delivered : Bool
  /-- The module and die of the root, where D is not on this module; this module's contributors then send to it (R343). -/
  root : Option (Nat × Nat) := none
  deriving DecidableEq, Repr

/-- A collective that was aborted while contributors of it had not come: their indices, and the root's D range that their
records list (R155, R241). -/
structure AbortedColl where
  ident : Nat
  missing : List Nat
  range : Nat × Nat
  deriving DecidableEq, Repr

/-! ### Gulper and the Ticket booth -/

/-- A KV block descriptor (R191); STATE as there: 0 FREE, 1 OWNED, 2 PENDING, 3 HASHED, 4 CACHED. -/
structure Block where
  id : Nat
  hash : Bytes := []
  parent : Bytes := []
  tokens : List Nat := []
  epochLo : Nat := 0
  epochHi : Nat := 0
  refcount : Nat := 0
  state : Nat := 1
  owner : Nat := 0
  /-- The release order of CACHED blocks (R204). -/
  released : Nat := 0
  deriving DecidableEq, Repr

/-- Session states (R192); a CLOSED session is removed. -/
inductive SessSt where
  | idle
  | prefill
  | decode
  | paused
  deriving DecidableEq, Repr

/-- The active request of a session (R195, R214). -/
structure ActiveReq where
  prio : Nat
  generate : Bool
  reqTag : Nat
  /-- Tokens still to generate. -/
  remaining : Nat
  ttft : Nat
  tpot : Nat
  /-- Admission order. -/
  order : Nat
  /-- Blocks promised and not yet taken (R215). -/
  reserved : Nat
  /-- Admitted between the opening and SWAP: joins step formation at SWAP (R301). -/
  afterSwap : Bool
  /-- The rollout it is, by ADMIT_SEQ (R295). -/
  rollout : Option Nat
  /-- Bytes 0 to 39 of its SVC_SUBMIT (R228). -/
  bytes : Bytes
  /-- Blocks promised to its shadow in the draft instance and not yet taken (R215). -/
  shadowReserved : Nat
  deriving DecidableEq, Repr

/-- What a paused session's record holds beyond the session itself (R226 to R228). -/
structure Pause where
  byBooth : Bool
  prior : SessSt
  at_ : Nat
  deadline : Nat
  /-- The record's address in the pause area, its bytes and its units, and the digest kept by the home module. -/
  addr : Nat
  nbytes : Nat
  digest : Bytes
  /-- The descriptors of the blocks of the record, in table order (R228). -/
  blocks : List Block
  /-- The same of its shadow session (R228). -/
  shadow : List Block
  /-- The request that a pitch-software pause answers once the record is written (R227). -/
  request : Option Nat
  written : Bool
  deriving DecidableEq, Repr

/-- A serving session (R192 to R196). -/
structure Session where
  id : Nat
  pinned : Bool
  noPrefix : Bool
  stream : Nat
  temp : BitVec 32
  topP : BitVec 32
  topK : Nat
  maxLen : Nat
  outBase : Nat
  outSlots : Nat
  stop : List Nat
  /-- Bytes 0 to 79 of the open request (R228). -/
  openBytes : Bytes
  st : SessSt := .idle
  tokens : List Nat := []
  kvValid : Nat := 0
  table : List Nat := []
  /-- Next record number g; PRODUCED (R196). -/
  produced : Nat := 0
  req : Option ActiveReq := none
  inStep : Option Nat := none
  /-- When its last record was written, for the order of R197. -/
  lastRecord : Nat := 0
  pause : Option Pause := none
  /-- A close in progress, with its request if a command made it (R211, R210, R301). -/
  closing : Option (Option Nat) := none
  /-- Records that wait for room in the output ring (R196). -/
  waiting : List Bytes := []
  /-- It recomputes its KV once its step in flight has ended (R301). -/
  recompute : Bool := false
  /-- The block table of its shadow in the draft instance (R206). -/
  shadowTable : List Nat := []
  /-- The shadow's KV_VALID, and the drafts that it has proposed from COMMITTED on (R206, R207). -/
  shadowKv : Nat := 0
  drafts : List Nat := []
  deriving DecidableEq, Repr

/-- One session's part in a token step (R197, R198). -/
structure StepPart where
  session : Nat
  first : Nat
  last : Nat
  decode : Bool
  drafts : Nat
  /-- SAMPLE rows that it has in the step (R198, R206). -/
  rows : Nat
  deriving DecidableEq, Repr

/-- A token step in flight (R197). -/
structure TokStep where
  id : Nat
  epoch : Nat
  formedAt : Nat
  parts : List StepPart
  again : Bool
  /-- Descriptors not submitted yet (R302). -/
  todo : List Work := []
  /-- The submitted ones: index in the program and SEQ (R189). -/
  seqs : List (Nat × Nat) := []
  /-- Where the SAMPLE parameter records of the step begin (R120, R189). -/
  parAddr : Nat := 0
  /-- The target instance for whose sessions' shadows this step of the draft instance proposes drafts (R206). -/
  drafting : Option Nat := none
  deriving DecidableEq, Repr

/-- A Ticket booth (R216 to R224). -/
structure Booth where
  /-- 0 STARTUP, 1 NORMAL, 2 RESTRICTED. -/
  mode : Nat := 0
  commits : Nat := 0
  /-- RESTRICTED causes in force (R221). -/
  causes : List Nat := []
  baseNs : Nat := 1000000
  perPosPs : Nat := 100000
  reserve : List Nat := [0, 0, 0, 0]
  protectClass : Nat := 2
  pauseRegion : Nat := 0
  autoTtlMs : Nat := 3600000
  pauseBase : Nat := 0
  pauseBytes : Nat := 0
  hintMinUs : Nat := 1000
  k : BitVec 32 := 0x3F800000
  accEwma : BitVec 32 := 0x3F800000
  nextOrder : Nat := 0
  deriving DecidableEq, Repr

/-- A Gulper model loaded for serving (R185 to R191). -/
structure Model where
  id : Nat
  reuse : Bool
  staleReuse : Bool
  spec : Bool
  draftLen : Nat
  draftModel : Nat
  epoch : Nat
  seed : BitVec 128
  nblocks : Nat
  maxStepTokens : Nat
  prefillChunk : Nat
  vocab : Nat
  layers : Nat
  dies : List (Nat × Nat)
  kvPosBytes : Nat
  maxLen : Nat
  depth : Nat
  /-- The step program: each descriptor with its patch entries (R189). -/
  prog : List (Bytes × List Nat) := []
  booth : Booth := {}
  blocks : List Block := []
  sessions : List Session := []
  nextSession : Nat := 0
  steps : List TokStep := []
  nextStep : Nat := 0
  releases : Nat := 0
  expired : List Nat := []
  /-- The service core that the instance runs on (R367, R368); 16 where none is in use. -/
  core : Nat := 0
  deriving DecidableEq, Repr

/-! ### Training -/

/-- A holder entry with the 64 bytes of its tensor descriptor (R286). -/
structure Holder where
  ldie : Nat
  row0 : Nat
  nrows : Nat
  col0 : Nat
  ncols : Nat
  desc : Bytes
  deriving DecidableEq, Repr

/-- An update rule with its hyperparameters (R270). -/
structure Rule where
  rule : Nat
  nesterov : Bool
  saturate : Bool
  round : Nat
  auto : Bool
  pRoot : Nat
  eOut : Int
  lr : BitVec 32
  wd : BitVec 32
  muB1 : BitVec 32
  b2 : BitVec 32
  eps : BitVec 32
  refresh : Nat
  swapDelay : Nat
  iters : Nat
  /-- The state area of each owning die, in owner order. -/
  areas : List Nat
  stateBytes : Nat
  holders : List Holder
  emitSeed : BitVec 128
  emitStream : Nat
  deriving DecidableEq, Repr

/-- A layer of a run (R245). -/
structure Layer where
  rows : Nat
  cols : Nat
  ownerFirst : Nat
  ownerCount : Nat
  ngroups : Nat
  a32 : Bool
  tag : Nat
  rule : Option Rule := none
  p1 : BitVec 32 := 0x3F800000
  p2 : BitVec 32 := 0x3F800000
  /-- P1 and P2 as they stood before their last advance. -/
  before : BitVec 32 × BitVec 32 := (0x3F800000, 0x3F800000)
  /-- The run step before which P1 and P2 have advanced (R273). -/
  scalarStep : Nat := 0
  /-- The last snapshot step that waited for the round before it, for which the event was written (R282). -/
  lateAt : Option Nat := none
  deriving DecidableEq, Repr

/-- One gradient in a block buffer (R268): its step, its delivered strips and their elements; `none` is an invalid
element (R269). -/
structure Gradient where
  step : Nat
  strips : List Nat
  elems : List (Nat × Option (BitVec 32))
  deriving DecidableEq, Repr

/-- Where a block's gradient of its current step stands (R263, R264, R268, R280). -/
inductive BlockSt where
  | collecting
  | complete
  | held
  deriving DecidableEq, Repr

/-- A converted strip in the emission buffer (R287): the holder and its index, the view index in its piece, the codes by lane,
and the scale. -/
structure EmitStrip where
  holder : Nat
  piece : Holder
  v : List Int
  codes : List (Nat × Nat)
  scale : Int
  deriving DecidableEq, Repr

/-- The Crusher's block-table entry (R266, R268). -/
structure CBlock where
  layer : Nat
  block : Nat
  step : Nat
  st : BlockSt := .collecting
  grads : List Gradient := []
  /-- The place of its current gradient among those of the pitch in the order in which they completed (R264, R283). -/
  order : Nat := 0
  /-- Converted and waiting for its holders (R287, R288): each step that it emits, and the strips. -/
  emission : List (Nat × List EmitStrip) := []
  deriving DecidableEq, Repr

/-- A die's norm partial of one step (R260). -/
structure NormPart where
  ldie : Nat
  step : Nat
  sum : Nat
  sat : Bool
  invalid : Bool
  sent : Bool
  deriving DecidableEq, Repr

/-- A Calliope schedule record (R284). -/
structure Schedule where
  kind : Nat
  restarts : Nat
  restartMult : Nat
  fromStep : Nat
  warmSteps : Nat
  decaySteps : Nat
  warmStart : BitVec 32
  floor : BitVec 32
  deriving DecidableEq, Repr

/-- A checkpoint configuration and its slots (R254, R255). -/
structure Ckpt where
  spoil : Bool
  every : Nat
  areas : List Nat
  slotBytes : Nat
  timeoutMs : Nat
  /-- The step that NOW selected. -/
  nowStep : Option Nat := none
  /-- The first step that the configuration governs. -/
  since : Nat := 0
  /-- Checkpoint steps that are over: complete, failed or skipped (R257). -/
  passed : List Nat := []
  /-- The states of the two slots (R255) and their steps. -/
  slotSt : List Nat := [0, 0]
  slotStep : List Nat := [0, 0]
  /-- The slot being written, its step and what is written: (ldie, layer). -/
  writing : Option (Nat × Nat) := none
  written : List (Nat × Nat) := []
  /-- When each owning die's stream last made progress (R257). -/
  progress : List (Nat × Nat) := []
  deriving DecidableEq, Repr

/-- A training run (R244 to R265). -/
structure Run where
  id : Nat
  held : Bool
  eval : Nat
  layers : List Layer
  startStep : Nat
  normAddr : Nat
  normSig : Nat
  evalFirst : Nat
  evalCount : Nat
  initMult : BitVec 32
  holdTable : List Nat
  holdBytes : Nat
  /-- The run's step in progress or next. -/
  step : Nat
  blocks : List CBlock
  mults : List (Nat × BitVec 32) := []
  /-- The schedule records, the one in force before the pending one (R284). -/
  lr : List Schedule := []
  wd : List Schedule := []
  norms : List NormPart := []
  /-- Blocks that missed a step: (step, layer, block). -/
  missed : List (Nat × Nat × Nat) := []
  /-- Aborted delivering collectives whose block has not ended the step yet (R279): (layer tag, block, step). -/
  aborts : List (Nat × Nat × Nat) := []
  ckpt : Option Ckpt := none
  deriving DecidableEq, Repr

/-! ### The RL cycle -/

/-- A phase entry (R291). -/
structure PlanPhase where
  kind : Nat
  withPrev : Bool
  landed : Bool
  count : Nat
  deriving DecidableEq, Repr

/-- A running phase: its index and its progress (R291). -/
structure RunPhase where
  index : Nat
  /-- ROLLOUT: admitted; LEARN: committed steps. -/
  done : Nat
  /-- ROLLOUT: first ADMIT_SEQ; LEARN: steps instantiated. -/
  mark : Nat
  deriving DecidableEq, Repr

/-- A rollout (R296). -/
structure Rollout where
  admitSeq : Nat
  reqTag : Nat
  session : Nat
  firstPos : Nat
  nGen : Nat
  ended : Bool
  rewarded : Bool
  mixed : Bool
  pinned : Bool
  endReason : Nat
  status : Nat
  epochLo : Nat
  epochHi : Nat
  reward : BitVec 32
  dataAddr : Nat
  dataBytes : Nat
  /-- LOGPROB, EPOCH and FLAGS of its generated tokens. -/
  gen : List (Nat × Nat × Nat) := []
  /-- Its token IDs, kept from the end of the request until its data are written. -/
  toks : List Nat := []
  /-- The request has ended and the entry waits for its completion (R296). -/
  closing : Bool
  deriving DecidableEq, Repr

/-- An instance of a reward program (R298): the admission number of its batch's first entry, the SEQs of its items while it runs, and
the status with which a first instance for the batch failed. -/
structure RewardRun where
  first : Nat
  seqs : Option (List Nat)
  failed : Option Nat
  deriving DecidableEq, Repr

/-- A cycle plan (R290 to R307). STATE 0 IDLE, 1 RUNNING, 2 STOPPING, 3 STOPPED; STAGE 0 NONE, 1 ARMING, 2 DRAIN,
3 SWAP, 4 CLOSING (R294). -/
structure Plan where
  run : Nat
  model : Nat
  shadow : Bool
  kvRecompute : Bool
  drainMs : Nat
  phases : List PlanPhase
  loopFrom : Nat
  phaseSig : Nat
  layerMap : List (Nat × Nat)
  bounds : List Nat
  table : Nat
  slots : Nat
  perStep : Nat
  dataBase : Nat
  dataBytes : Nat
  rewardProg : Bool
  /-- The learning and the reward program: each descriptor with its patch entries (R298). -/
  learnItems : List (Bytes × List Nat) := []
  rewardItems : List (Bytes × List Nat) := []
  /-- The shadow descriptors, in map order and then holder-table order (R290, R303). -/
  shadows : List Bytes
  state : Nat := 0
  stage : Nat := 0
  stopStatus : Nat := 0
  running : List RunPhase := []
  /-- The next phase to start, if any. -/
  nextPhase : Option Nat := none
  /-- The phase started last, whose end or start the next one waits for. -/
  prevPhase : Option Nat := none
  /-- The source step of the current turnover and the time it opened (R300). -/
  source : Option Nat := none
  /-- The source steps of TURNOVER phases that have started while a turnover before them is not DONE (R307). -/
  queued : List Nat := []
  /-- The run step whose learning program has been instantiated and that the run has not committed (R298). -/
  learning : Option Nat := none
  openedAt : Nat := 0
  /-- DRAIN has ended and SWAP may begin. -/
  drained : Bool := false
  gates : List Bool := []
  windows : List (Nat × Nat) := []
  stalled : List Nat := []
  turnovers : Nat := 0
  admitted : Nat := 0
  rewarded : Nat := 0
  consumed : Nat := 0
  dataHead : Nat := 0
  rollouts : List Rollout := []
  /-- Rollouts that a learning step has consumed before their requests ended, by admission number (R291). -/
  unended : List Nat := []
  /-- The running instances of the reward program (R298). -/
  rewardRuns : List RewardRun := []
  /-- The run layers whose holders outside the instance the current SWAP has written from their shadows (R303). -/
  outside : List Nat := []
  /-- The service core that the orchestrator runs on (R367, R368); 16 where none is in use. -/
  core : Nat := 0
  deriving DecidableEq, Repr

/-! ### Pitches -/

/-- Pitch states (R309, R327). -/
inductive PitchSt where
  | active
  | suspending
  | suspended
  | resuming
  | releasing
  | failed
  deriving DecidableEq, Repr

/-- A spoil region (R311). -/
structure Region where
  lent : Bool
  home : Nat
  source : Nat
  length : Nat
  hostAddr : Nat
  lendDies : Nat
  deriving DecidableEq, Repr

/-- An entry of the logical-cluster table: module, die and physical cluster (R165, "Translation"). -/
structure LEntry where
  module : Nat
  die : Nat
  cluster : Nat
  deriving DecidableEq, Repr

/-- The accumulator slots of a logical cluster that is not loaded (R161); its SRAM stands in memory under image keys
(Machine/Ops.lean). -/
structure Swapped where
  lcluster : Nat
  slots : List (Nat × Acc)
  deriving DecidableEq, Repr

/-- A drain or return in progress (R167, R414): the request, the dies it acts on, whether it drains them, the logical
clusters that have not reached an item boundary yet and those that have, and the placement that takes effect then. -/
structure MovePlan where
  seq : Nat
  dies : Nat
  drain : Bool
  waiting : List Nat
  stopped : List Nat
  /-- The logical clusters whose new entries are in effect (R167). -/
  moved : List Nat := []
  target : List LEntry
  pages : Option (List (Nat × Nat × Nat))
  deriving DecidableEq, Repr

/-- A pitch on this module (R308 to R331). -/
structure Pitch where
  tag : Nat
  strict : Bool
  localDies : Nat
  stagingMib : Nat
  /-- Member modules and die masks, in table order (R311). -/
  members : List (Nat × Nat)
  regions : List Region
  shares : List Nat
  /-- The accepted request body, for the digest of R334. -/
  createBody : Bytes
  createSeq : Nat
  st : PitchSt := .active
  /-- The request whose suspend, resume or release is in progress, and when it started. -/
  busyWith : Option Nat := none
  busySince : Nat := 0
  suspendTimeoutMs : Nat := 0
  /-- The members that have answered the command in progress, each with its STATUS (R321). -/
  answers : List (Nat × Nat) := []
  /-- Lenders whose release message has no outcome yet, and whether one has failed (R314, R392). -/
  lenders : List Nat := []
  lenderLost : Bool := false
  /-- A write has reached the saved context while the pitch was SUSPENDED (R164, R322). -/
  contextWritten : Bool := false
  /-- The logical-cluster table (R165). -/
  lmap : List LEntry
  /-- Page entries where a partition is packed: logical cluster, window page, partition page (R173). -/
  pages : Option (List (Nat × Nat × Nat)) := none
  /-- The drain or return in progress (R167, R414). -/
  move : Option MovePlan := none
  touched : List Nat := []
  counters : List (Nat × Counter) := []
  classOrder : Nat := 1
  queues : List Queue := []
  items : List Item := []
  colls : List Coll := []
  /-- Aborted collectives that still await contributors (R155). -/
  aborted : List AbortedColl := []
  swapped : List Swapped := []
  models : List Model := []
  runs : List Run := []
  plans : List Plan := []
  /-- Entropy draws of this module's spoil keys and prefix key (R180, R200, R313): indices of free values. -/
  spoilKey : Option Nat := none
  hashKey : Option Nat := none
  /-- Meter counts of the minute in progress, totals, and the complete minutes (R330, R331). -/
  meterNow : List Nat := List.replicate 8 0
  meterTotal : List Nat := List.replicate 8 0
  meterMinutes : List (Nat × List Nat) := []
  deriving DecidableEq, Repr

/-- A lending set (R314). -/
structure Lend where
  tag : Nat
  dies : Nat
  homeModule : Nat
  deriving DecidableEq, Repr

/-! ### Mailboxes and the Ringmaster -/

/-- An accepted request in the journal (R367, R374, R379). -/
structure Request where
  seq : Nat
  mailbox : Nat
  command : Nat
  fence : Bool
  requestId : Nat
  srcPort : Nat
  hchan : Nat
  tag : Nat
  srcModule : Nat
  htag : Nat
  body : Bytes
  /-- The request may execute: it has no FENCE, or the fence is released (R380). -/
  released : Bool
  /-- The local counter when it was accepted (R229). -/
  acceptedAt : Nat := 0
  deriving DecidableEq, Repr

/-- A replay-window entry (R381): EXECUTING without a response, DONE with it and its time. -/
structure WinEntry where
  requestId : Nat
  done : Option (Bytes × Nat)
  /-- Held duplicates: SRC_MODULE, SRC_PORT, channel, HTAG (R382). -/
  dups : List (Nat × Nat × Nat × Nat)
  deriving DecidableEq, Repr

/-- A message submitted to a mailbox, with its stamps (R372, R375). -/
structure Submission where
  srcPort : Nat
  hchan : Nat
  tag : Nat
  srcModule : Nat
  htag : Nat
  bytes : Bytes
  /-- Acceptable by R319: a HOST channel stamped with this tag. -/
  viaHost : Bool
  deriving DecidableEq, Repr

/-- An assembly of segments (R372). -/
structure Assembly where
  requestId : Nat
  nseg : Nat
  segs : List (Nat × Bytes)
  lastAt : Nat
  first : Submission
  deriving DecidableEq, Repr

/-- A mailbox (R370 to R373). -/
structure Mailbox where
  bound : Option Nat := none
  /-- An UNBIND waits for accepted requests: its request (R318). -/
  unbinding : Option Nat := none
  assembly : Option Assembly := none
  submitted : Option Submission := none
  refused : Bool := false
  refusals : Nat := 0
  outstanding : Nat := 0
  window : List WinEntry := []
  deriving DecidableEq, Repr

/-- Mailbox 0's buffers (R371, R374). -/
structure Mbx0 where
  /-- Request buffer: offset and byte, an unlisted byte is zero. -/
  req : List Host.Cell := []
  /-- Responses not yet released, the one in MBX0_RSP first, and whether its release ends an outstanding command
  (R373). -/
  rsp : List (Bytes × Bool) := []
  deriving DecidableEq, Repr

/-- The Ringmaster complex (R367 to R369). Pair 0 is on D00, pair 1 on D23. -/
structure Ringmaster where
  acceptNext : Nat := 0
  journal : List Request := []
  primary : Nat := 0
  standby : Bool := false
  started : Bool := false
  /-- The pair fenced by a take-over (R368). -/
  fenced : Option Nat := none
  /-- New submissions are held (R368, R389). -/
  holding : Bool := false
  /-- Mailboxes with a submission that has not been accepted or refused, in the order in which the submissions completed (R379). -/
  order : List Nat := []
  takeoverAt : Option Nat := none
  /-- The service cores out of use (R368). -/
  deadCores : List Nat := []
  /-- The fenced pair's test waits for another test on its die to end (R369). -/
  testDue : Bool := false
  /-- Firmware messages taken so far (R321, notes/assumptions/37.md). -/
  messages : Nat := 0
  /-- MSG frames of a reserved KIND that came in through no port of this module (R372). -/
  badKinds : Nat := 0
  /-- When each pair last started; it sends heartbeats from then on (R368). -/
  beats : List Nat := [0, 0]
  /-- Quotes signed since module reset (R333). -/
  quotes : Nat := 0
  deriving DecidableEq, Repr

/-! ### Firmware -/

/-- A running or staged image's fields (R383). -/
structure Image where
  bytes : Nat
  version : BitVec 32
  svn : Nat
  stateFormat : Nat
  minStateFormat : Nat
  measurement : Bytes
  deriving DecidableEq, Repr

/-- The hand-over in progress (R389). -/
structure Handover where
  seq : Nat
  /-- The image that the standby loads. -/
  image : Image
  bytes : Bytes
  /-- When the step in progress began. -/
  startedAt : Nat
  timeoutMs : Nat
  raiseSvn : Bool
  ready : Bool
  deriving DecidableEq, Repr

/-- Firmware storage and identity (R383 to R391). -/
structure Firmware where
  /-- The boot flash below its control area, and the two copies of the control record, each 64 bytes and its CRC-32C (R385). -/
  flash : Bytes
  control : List Bytes
  /-- FLASH of R388: 0 CLEAN, 1 WRITING, 2 FAILED. -/
  flashCode : Nat := 0
  rewrite : Option (Bytes × Bool) := none
  keyHashes : List Bytes
  revoked : List Bool
  svnMin : Nat
  running : Option Image := none
  runningBytes : Bytes := []
  /-- STAGE of R388: 0 EMPTY, 1 LOADING, 2 VERIFIED, 3 FAILED. -/
  stage : Nat := 0
  stageSize : Nat := 0
  stageData : List Host.Cell := []
  stageWritten : List Nat := []
  stageImage : Option Image := none
  /-- The measurement register of the identity engine (R390). -/
  measurement : Bytes := []
  attestKey : Option Nat := none
  handover : Option Handover := none
  deriving DecidableEq, Repr

/-! ### Power, keeper and log -/

/-- Where the start of the module stands (R395, R402). -/
inductive PowerPhase where
  /-- The keeper domain is off. -/
  | off
  /-- In reset with the keeper domain kept. -/
  | inReset
  /-- Step 3 of R395 is reached. -/
  | started
  /-- Step 5 of R395 is reached. -/
  | up
  deriving DecidableEq, Repr

/-- Module states of MOD_STATUS (R436). -/
inductive ModSt where
  | booting
  | ready
  | recovery
  | keeperOnly
  deriving DecidableEq, Repr

/-- The supply, the module power control and the dip registers (R402 to R407, R438). -/
structure Power where
  phase : PowerPhase := .started
  vinMv : Nat := 44000
  iinMa : Nat := 0
  pinW : Nat := 0
  pwrOk : Bool := false
  pwarnW : Nat := 0
  pwarn : Bool := false
  /-- Since when PWR_PIN is at or below PWARN_W (R439). -/
  pwarnBelow : Option Nat := none
  powerLimited : Bool := false
  currentLimited : Bool := false
  lastDown : Option Nat := none
  lastUp : Option Nat := none
  vinHigh : Bool := false
  kprPhaseLost : Bool := false
  dip : Bool := false
  dipStart : Nat := 0
  dipLow : Nat := 0
  dipHold : Option Nat := none
  dips : Nat := 0
  /-- When step 4 of R395 began. -/
  railsAt : Nat := 0
  lastDipMv : Nat := 0
  lastDipLen : Nat := 0
  coolantIn : Int := 0
  coolantOut : Int := 0
  /-- Until when the pulse of the last dip holds ALERT_N low (R407, R441). -/
  pulseUntil : Nat := 0
  /-- A thermal trip has removed every rail: the module starts again only after MOD_ENABLE or the input is cycled (R406). -/
  tripped : Bool := false
  deriving DecidableEq, Repr

/-- The keeper: local time and the registers of R433 to R437. -/
structure Keeper where
  /-- The local elapsed counter, equal on every die (R401). -/
  now : Nat := 0
  mod : ModSt := .booting
  serverD23 : Bool := false
  resetCause : Nat := 0
  rstLock : Bool := false
  scratch : BitVec 32 := 0
  /-- A register reset that takes effect 10 µs after its acknowledgement (R437): when. -/
  resetDue : Option Nat := none
  /-- The upper halves latched by _LO reads, by the address of their _HI registers (R435). -/
  latches : List (Nat × BitVec 32) := []
  /-- The TAGs of the last 8 WRITE frames performed, newest first (R433). -/
  writeTags : List Nat := []
  /-- Value last written to EVT_SEL_LO, and the selection in effect (R440). -/
  selLo : BitVec 32 := 0
  sel : Nat := 0
  /-- When the last ANNOUNCE went out (R434). -/
  announced : Option Nat := none
  /-- When the frames came that may still be unanswered, at most 8, newest first (R432). -/
  arrivals : List Nat := []
  deriving DecidableEq, Repr

/-- An event-log entry (R411). -/
structure Event where
  seq : Nat
  time : Nat
  code : Nat
  severity : Nat
  die : Nat
  tag : Nat
  data : Nat
  deriving DecidableEq, Repr

/-- The event log (R411, R440). -/
structure Log where
  next : Nat := 0
  entries : List Event := []
  alertPend : BitVec 9 := 0
  lastAlert : Nat := 0
  /-- The groups of the ALERT entries of the present local count (R441). -/
  fresh : BitVec 9 := 0
  deriving DecidableEq, Repr

/-- A self-test record (R429). -/
structure TestRecord where
  testId : Nat
  target : Nat
  origin : Nat
  status : Nat
  dieMask : Nat
  abandoned : Nat
  startAt : Nat
  endAt : Nat
  /-- The failure entries with their die and ACTION. -/
  entries : List (Nat × Nat × Failure)
  repairsApplied : Nat
  unrepaired : Nat
  faulted : Nat
  /-- Dies still under test, and the request to answer. -/
  open_ : List Nat
  request : Option Nat
  deriving DecidableEq, Repr

/-- The REPAIR_FUSE in progress (R428): its request, the die of each entry still to program, in order, and of each entry
programmed. -/
structure Fusing where
  seq : Nat
  todo : List Nat
  done : List Nat
  deriving DecidableEq, Repr

/-- The self-test records (R429) and the REPAIR_FUSE in progress (R428). -/
structure Tests where
  nextId : Nat := 0
  records : List TestRecord := []
  fusing : Option Fusing := none
  deriving DecidableEq, Repr

/-- What the identity EEPROM holds at its addresses (R454): the serial, the stepping, the reset count, the trip record as its die,
temperature and local counter (R406), whether the MOD_ENABLE marker stands (R437), and CERT_DEVICE. `Eeprom.byte` lays them out. -/
structure Eeprom where
  serial : Bytes
  stepping : Nat
  resetCount : Nat
  trip : Option (Nat × Int × Nat)
  marker : Bool
  cert : Bytes
  deriving DecidableEq, Repr

/-- What the module has sent (keeper frames, link frames, mailbox messages, host frames), newest last. -/
inductive Sent where
  /-- A keeper frame (R431). -/
  | kpr (frame : KprFrame)
  /-- A frame handed to a port's transmitter (R346). -/
  | link (port : Nat) (frame : Frame)
  /-- A HELLO on a port (R355). -/
  | hello (port : Nat) (hello : Hello)
  /-- A LINK_CTRL frame (R343). -/
  | ctrl (port : Nat) (ctrl : LinkCtrl)
  deriving DecidableEq, Repr

/-- The state of one M24 module. -/
structure State where
  /-- The commands and events that wait, first in, first out. -/
  pending : List Instr
  /-- Bonded DRAM, cluster SRAM and the memory reached outside the module, by physical key (Machine/Ops.lean). -/
  mem : List Host.Cell
  /-- Keys of the sectors and words that are uncorrectable (R177). -/
  bad : List Nat
  dies : List Die
  ports : List Port
  fab : Fabric
  pitches : List Pitch
  lends : List Lend
  boxes : List Mailbox
  mbx0 : Mbx0
  ring : Ringmaster
  fw : Firmware
  power : Power
  kpr : Keeper
  log : Log
  tests : Tests
  eeprom : Eeprom
  /-- The instruction loaded through the test access port (R457). -/
  tap : TapInstr
  sent : List Sent
  /-- The MODEL'S OWN field: how many free values have been drawn (Sys2Proof/Config.lean). -/
  free : Nat
  deriving DecidableEq, Repr

/-- The state right after a power-on reset: step 3 of R395 (R22, R395, R403, and the Reset columns of the register
tables), the reset's cause being the first entry of the event log (R402). Values that the spec does not give are DESIGN CHOICES of notes/assumptions/3.md. -/
def State.reset : State where
  pending := []
  mem := []
  bad := []
  dies := List.replicate 24 {}
  ports := List.replicate 72 {}
  fab := {}
  pitches := []
  lends := []
  boxes := List.replicate 64 {}
  mbx0 := {}
  ring := {}
  fw := { flash := [], control := List.replicate 2 (List.replicate 68 0)
          keyHashes := List.replicate 4 (List.replicate 48 0), revoked := List.replicate 4 false, svnMin := 0 }
  power := {}
  kpr := {}
  log := { next := 1, entries := [⟨0, 0, 0x0101, 0, 0xFF, 0xFFFF, 0⟩] }
  tests := {}
  eeprom := { serial := List.replicate 16 0, stepping := 0, resetCount := 1, trip := none, marker := false, cert := [] }
  tap := .idcode
  sent := []
  free := 0

end Sys2Proof.Machine
end

