-- ==== Sys2Proof/Machine/Formats.lean ====
section
/-! DEFINITION. Number formats and conversion (R23 to R33, R39 to R43, R460): decoding a code to its exact value, and
the one rounding of an exact value to a format. An exact value is a sign, a natural mantissa and a binary exponent. -/

namespace Sys2Proof.Machine

open Sys2Proof

/-- The element formats of R23 and R26. -/
inductive Fmt where
  | int8
  | e2m1
  | e3m2
  | e4m3
  | e5m2
  | fp16
  | bf16
  | fp32
  deriving DecidableEq, Repr

/-- An exact element value: `(-1)^neg × man × 2^exp`, an infinity, or a NaN. -/
inductive Num where
  | fin (neg : Bool) (man : Nat) (exp : Int)
  | inf (neg : Bool)
  | nan
  deriving DecidableEq, Repr

/-- Rounding modes (R39). -/
inductive Mode where
  | rne
  | rtz
  | sr
  deriving DecidableEq, Repr

/-- ROUND field codes: 0 RNE, 1 RTZ, 2 SR (R82). -/
def modeOf (c : Nat) : Mode := if c = 1 then .rtz else if c = 2 then .sr else .rne

/-- The FORMAT codes of R55 that name element formats. -/
def fmtOf (c : Nat) : Option Fmt :=
  [Fmt.int8, .e2m1, .e3m2, .e4m3, .e5m2, .fp16, .bf16, .fp32][c]?

/-- Element width in bits, exponent width, mantissa width and bias (R23). -/
def Fmt.width : Fmt → Nat
  | .int8 => 8 | .e2m1 => 4 | .e3m2 => 6 | .e4m3 => 8 | .e5m2 => 8 | .fp16 => 16 | .bf16 => 16 | .fp32 => 32

def Fmt.expBits : Fmt → Nat
  | .int8 => 0 | .e2m1 => 2 | .e3m2 => 3 | .e4m3 => 4 | .e5m2 => 5 | .fp16 => 5 | .bf16 => 8 | .fp32 => 8

def Fmt.mant : Fmt → Nat
  | .int8 => 0 | .e2m1 => 1 | .e3m2 => 2 | .e4m3 => 3 | .e5m2 => 2 | .fp16 => 10 | .bf16 => 7 | .fp32 => 23

def Fmt.bias : Fmt → Int
  | .int8 => 0 | .e2m1 => 1 | .e3m2 => 3 | .e4m3 => 7 | .e5m2 => 15 | .fp16 => 15 | .bf16 => 127 | .fp32 => 127

/-- The magnitude code of the largest finite value (R23). -/
def Fmt.maxCode : Fmt → Nat
  | .int8 => 127 | .e2m1 => 0x7 | .e3m2 => 0x1F | .e4m3 => 0x7E | .e5m2 => 0x7B | .fp16 => 0x7BFF
  | .bf16 => 0x7F7F | .fp32 => 0x7F7FFFFF

/-- The format has infinities (R23). -/
def Fmt.hasInf : Fmt → Bool
  | .e5m2 | .fp16 | .bf16 | .fp32 => true
  | _ => false

/-- The format has NaN codes (R23, R33). -/
def Fmt.hasNan : Fmt → Bool
  | .int8 | .e2m1 | .e3m2 => false
  | _ => true

/-- The canonical NaN (R27). E2M1, E3M2 and INT8 have none: code 0 stands there. A NAN mode item into them is rejected (R32);
only an accumulator whose INV bit came from a slot or an ACC record still reads out to one (R39), and what code it then
gives the spec does not say (DESIGN CHOICE, notes/assumptions/60.md). -/
def Fmt.canonicalNan : Fmt → Nat
  | .e4m3 => 0x7F | .e5m2 => 0x7E | .fp16 => 0x7E00 | .bf16 => 0x7FC0 | .fp32 => 0x7FC00000
  | _ => 0

/-- The formats that the arrays and the MVP take (R28). -/
def Fmt.arrayFmt : Fmt → Bool
  | .bf16 | .fp32 => false
  | _ => true

/-- The value of a code (R24, R26), with a block scale 2^e applied (R29). -/
def decode (f : Fmt) (code : Nat) (e : Int) : Num :=
  if f = .int8 then
    let x := signed code 8
    .fin (decide (x < 0)) x.natAbs e
  else
    let neg := bit code (f.width - 1)
    let mag := code % 2 ^ (f.width - 1)
    let ef := mag >>> f.mant
    let mf := mag % 2 ^ f.mant
    if mag > f.maxCode then
      if f.hasInf && mag = f.maxCode + 1 then .inf neg else .nan
    else if ef = 0 then .fin neg mf (1 - f.bias - f.mant + e)
    else .fin neg (2 ^ f.mant + mf) (ef - f.bias - f.mant + e)

/-- floor(log2(man × 2^exp)) of a non-zero value. -/
def floorLog2 (man : Nat) (exp : Int) : Int := man.log2 + exp

/-- The quantum exponent of R39, subnormals included. -/
def quantum (f : Fmt) (man : Nat) (exp : Int) : Int :=
  if f = .int8 then 0 else max (floorLog2 man exp) (1 - f.bias) - f.mant

/-- `man × 2^exp` in units of 2^q: the integer part, and the discarded fraction as numerator over 2^shift (R39). -/
def splitAt (man : Nat) (exp q : Int) : Nat × Nat × Nat :=
  if q ≤ exp then (man <<< (exp - q).toNat, 0, 0)
  else
    let sh := (q - exp).toNat
    (man >>> sh, man % 2 ^ sh, sh)

/-- A non-zero discarded fraction: the only elements that take a draw (R40, R132). -/
def needsDraw (f : Fmt) (man : Nat) (exp : Int) : Bool := (splitAt man exp (quantum f man exp)).2.1 != 0

/-- The rounded integer of R39. `draw` is the 24-bit draw of SR. -/
def roundInt (mode : Mode) (draw : Nat) (n frac sh : Nat) : Nat :=
  match mode with
  | .rne => if 2 * frac > 2 ^ sh || (2 * frac = 2 ^ sh && sh != 0 && n % 2 = 1) then n + 1 else n
  | .rtz => n
  | .sr => if frac > 0 && draw < (frac * 2 ^ 24) >>> sh then n + 1 else n

/-- The magnitude code of n × 2^q; above `maxCode` when the value lies beyond the largest finite value (R39). -/
def magCode (f : Fmt) (n : Nat) (q : Int) : Nat :=
  if f = .int8 then n else (q + f.mant + f.bias - 1).toNat * 2 ^ f.mant + n

/-- A code from its sign and magnitude. -/
def signCode (f : Fmt) (neg : Bool) (mag : Nat) : Nat :=
  if f = .int8 then unsigned (if neg then -(mag : Int) else mag) 8
  else mag + (if neg then 2 ^ (f.width - 1) else 0)

/-- The overflow value (R41); `sat` is SATURATE mode. -/
def overflowValue (f : Fmt) (sat neg : Bool) : Nat :=
  if f = .int8 then (if neg then 0x80 else 0x7F)
  else if sat then signCode f neg f.maxCode
  else if f.hasInf then signCode f neg (f.maxCode + 1)
  else if f.hasNan then f.canonicalNan
  else signCode f neg f.maxCode

/-- One rounding of an exact non-zero value to a format at output scale `eOut` (R39); the flag is RD_OVF. -/
def roundTo (f : Fmt) (mode : Mode) (sat : Bool) (draw : Nat) (eOut : Int) (neg : Bool) (man : Nat) (exp : Int) :
    Nat × Bool :=
  let exp := exp - eOut
  let q := quantum f man exp
  let (n, frac, sh) := splitAt man exp q
  let n := roundInt mode draw n frac sh
  let limit := if f = .int8 && neg then 128 else f.maxCode
  if n = 0 then (if f = .int8 then 0 else signCode f neg 0, false)
  else if magCode f n q > limit then (overflowValue f sat neg, true)
  else (signCode f neg (magCode f n q), false)

/-- The draw that an element takes, as a thunk: it is looked at only under SR (R40). -/
abbrev Draw := Nat

/-- A conversion's outcome: the code, RD_OVF and INVALID. -/
structure Conv where
  code : Nat
  rdOvf : Bool := false
  invalid : Bool := false
  deriving DecidableEq, Repr

/-- Conversion of a value to a format under R39 to R43, with non-finite values under R460; an exact zero of either sign
reads out as +0 (R42, R109). -/
def convert (f : Fmt) (mode : Mode) (sat : Bool) (draw : Draw) (eOut : Int) (x : Num) : Conv :=
  match x with
  | .fin neg man exp =>
    if man = 0 then ⟨0, false, false⟩
    else
      let r := roundTo f mode sat draw eOut neg man exp
      ⟨r.1, r.2, false⟩
  | .inf neg =>
    if sat then ⟨if f = .int8 then (if neg then 0x80 else 0x7F) else signCode f neg f.maxCode, false, true⟩
    else if f.hasInf then ⟨signCode f neg (f.maxCode + 1), false, false⟩
    else ⟨f.canonicalNan, false, true⟩
  | .nan => ⟨if sat then 0 else f.canonicalNan, false, true⟩

/-- The h of R43. -/
def Fmt.autoH : Fmt → Int
  | .e2m1 => 1 | .e3m2 => 3 | .e4m3 => 7 | .e5m2 => 14 | .int8 => 5 | .fp16 => 14 | _ => 0

/-- `a < b` of two magnitudes man × 2^exp. -/
def magLt (a b : Nat × Int) : Bool :=
  if a.2 ≤ b.2 then a.1 < b.1 <<< (b.2 - a.2).toNat else a.1 <<< (a.2 - b.2).toNat < b.1

/-- The larger of two magnitudes. -/
def magMax (a b : Nat × Int) : Nat × Int := if magLt a b then b else a

/-- The finite magnitude of a value; non-finite values take no part (R460). -/
def magOf : Num → Nat × Int
  | .fin _ man exp => (man, exp)
  | _ => (0, 0)

/-- The AUTO scale of a strip from its exact values (R43, R65). -/
def autoScale (f : Fmt) (xs : List Num) : Int :=
  let amax := xs.foldl (fun a x => magMax a (magOf x)) (0, 0)
  if amax.1 = 0 then 0 else max (-32) (min 31 (floorLog2 amax.1 amax.2 - f.autoH))

/-- A scale byte is in range (R29). -/
def scaleOk (b : Nat) : Bool := b < 0x20 || 0xE0 ≤ b

/-- The exponent of a scale byte (R29). -/
def scaleExp (b : Nat) : Int := signed b 8

/-! ### The exact accumulator (R34 to R38) -/

/-- The range of an accumulator, in units of 2^-112 (R34). -/
def accMax : Int := 2 ^ 255 - 1
def accMin : Int := -(2 ^ 255)

/-- `(-1)^neg × man × 2^exp` in units of 2^-112; exact for every product of two scaled operands (R35). -/
def accUnits (neg : Bool) (man : Nat) (exp : Int) : Int :=
  let u : Int := if 0 ≤ exp + 112 then (man : Int) * 2 ^ (exp + 112).toNat else (man >>> (-(exp + 112)).toNat : Nat)
  if neg then -u else u

/-- An operand under its non-finite mode (R32): SATURATE replaces infinities and NaN; the flag is INVALID. -/
def arrayOperand (f : Fmt) (sat : Bool) (scale : Int) (x : Num) : Num × Bool :=
  match x with
  | .fin n m e => (.fin n m e, false)
  | .inf n => (if sat then decode f (signCode f n f.maxCode) scale else .inf n, true)
  | .nan => (if sat then .fin false 0 0 else .nan, true)

/-- A value as numbers, for the free value of a product with a non-finite operand. -/
def Num.key : Num → List Int
  | .fin neg man exp => [neg.toNat, man, exp]
  | .inf neg => [2 + neg.toNat]
  | .nan => [4]

/-- A product of two operands in accumulator units (R35). With a non-finite operand it adds a free value that its two
operands determine, in either order (R32, R51). -/
def product (a b : Num) : Int :=
  match a, b with
  | .fin na ma ea, .fin nb mb eb => accUnits (na != nb) (ma * mb) (ea + eb)
  | _, _ => (Config.invalidProduct a.key b.key).toInt + (Config.invalidProduct b.key a.key).toInt

/-- An addend into an accumulator, exact unless it leaves the range (R36, R37). -/
def Acc.add (a : Acc) (u : Int) : Acc :=
  if a.sat then a
  else
    let s := a.val.toInt + u
    if s > accMax then { a with val := BitVec.ofInt 256 accMax, sat := true }
    else if s < accMin then { a with val := BitVec.ofInt 256 accMin, sat := true }
    else { a with val := BitVec.ofInt 256 s }

/-- What the orders of the additions allow (R37): the upper limit where the positive addends together reach beyond it, the
lower limit where the negative ones do, and the exact sum where it lies in the range. -/
def Acc.outcomes (a : Acc) (us : List Int) : List Acc :=
  let hi := a.val.toInt + (us.filter (0 < ·)).foldl (· + ·) 0
  let lo := a.val.toInt + (us.filter (· < 0)).foldl (· + ·) 0
  let sum := hi + lo - a.val.toInt
  (if accMin ≤ sum && sum ≤ accMax then [{ a with val := BitVec.ofInt 256 sum }] else []) ++
  (if hi > accMax then [{ a with val := BitVec.ofInt 256 accMax, sat := true }] else []) ++
  (if lo < accMin then [{ a with val := BitVec.ofInt 256 accMin, sat := true }] else [])

/-- The products of one output element added into its accumulator: the exact sum (R36), or where an addition leaves the
range the one outcome there is, or a free one of several (R37); `k` counts the draws. A saturated accumulator stays. -/
def Acc.addAll (k : Nat) (a : Acc) (us : List Int) : Acc :=
  if a.sat then a
  else
    let os := a.outcomes us
    os.getD (if os.length ≤ 1 then 0 else Config.saturationOrder k % os.length) a

/-- Exact addition of an accumulator into a buffer slot (R91, BUFFER_ADD). -/
def Acc.bufferAdd (slot a : Acc) : Acc :=
  let inv := slot.inv || a.inv
  if slot.sat then { slot with inv := inv }
  else if a.sat then { a with inv := inv }
  else { slot.add a.val.toInt with inv := inv }

/-- Readout of an accumulator (R39): the code, RD_OVF, and INVALID or ACC_SAT for an accumulator with INV or SAT set
(R90). -/
def readout (f : Fmt) (mode : Mode) (sat : Bool) (draw : Draw) (eOut : Int) (a : Acc) : Conv × Bool :=
  if a.inv then (⟨f.canonicalNan, false, true⟩, a.sat)
  else if a.sat then (⟨overflowValue f sat (decide (a.val.toInt < 0)), false, false⟩, true)
  else if a.val = 0 then (⟨0, false, false⟩, false)
  else
    let r := roundTo f mode sat draw eOut (decide (a.val.toInt < 0)) a.val.toInt.natAbs (-112)
    (⟨r.1, r.2, false⟩, false)

/-- The exact value of an accumulator, for AUTO scales and anchors (R43, R46). -/
def Acc.num (a : Acc) : Num := .fin (decide (a.val.toInt < 0)) a.val.toInt.natAbs (-112)

/-- The exact magnitude of an accumulator that enters an AUTO scale; one that reads out as a NaN takes no part: the
spec speaks of the exact values alone (DESIGN CHOICE, notes/assumptions/64.md). -/
def Acc.autoNum (a : Acc) : Num := if a.inv then .nan else a.num

end Sys2Proof.Machine
end

