-- ==== Sys2Proof/Machine/Fp32.lean ====
section
/-! DEFINITION. Binary32 arithmetic and the defining algorithms of the vector unit (R108, R114 to R119): every operation
is computed exactly and rounded once, to nearest even. -/

namespace Sys2Proof.Machine

open Sys2Proof

/-! ### Codes and exact values -/

def f32Nan : W32 := 0x7FC00000
def f32Inf : W32 := 0x7F800000
def f32NegInf : W32 := 0xFF800000
def f32One : W32 := 0x3F800000
def f32Two : W32 := 0x40000000
def f32MinusOne : W32 := 0xBF800000
def f32MaxFinite : W32 := 0x7F7FFFFF

/-- The exact value of a binary32 code. -/
def f32Num (x : W32) : Num := decode .fp32 x.toNat 0

def f32IsNan (x : W32) : Bool := (x &&& 0x7FFFFFFF).toNat > 0x7F800000
def f32IsInf (x : W32) : Bool := (x &&& 0x7FFFFFFF).toNat = 0x7F800000
def f32IsZero (x : W32) : Bool := (x &&& 0x7FFFFFFF) = 0
def f32Finite (x : W32) : Bool := (x &&& 0x7FFFFFFF).toNat < 0x7F800000
def f32Neg (x : W32) : Bool := x.getLsbD 31
def f32Abs (x : W32) : W32 := x &&& 0x7FFFFFFF
/-- Sign change; a NaN gives the canonical NaN (R27). -/
def f32Negate (x : W32) : W32 := if f32IsNan x then f32Nan else x ^^^ 0x80000000
/-- The magnitude of `x` with the sign of `y`. -/
def f32CopySign (x y : W32) : W32 := f32Abs x ||| (y &&& 0x80000000)

/-- One rounding to nearest even of `(-1)^neg × man × 2^exp` (R108); a zero keeps the sign. -/
def f32Round (neg : Bool) (man : Nat) (exp : Int) : W32 :=
  if man = 0 then (if neg then 0x80000000 else 0)
  else BitVec.ofNat 32 (convert .fp32 .rne false 0 0 (.fin neg man exp)).code

/-- One rounding of an integer times a power of two. -/
def f32OfInt (x exp : Int) : W32 := f32Round (decide (x < 0)) x.natAbs exp

/-- to_f32 of a natural number, ties to even (R121). -/
def f32OfNat (n : Nat) : W32 := f32Round false n 0

/-- Signed mantissa. -/
def signedMan (neg : Bool) (man : Nat) : Int := if neg then -(man : Int) else man

/-! ### Basic operations (R108) -/

/-- The exact sum of two finite values, rounded once; an exact zero is +0 unless both addends are −0 or −zero. -/
def addExact (na : Bool) (ma : Nat) (ea : Int) (nb : Bool) (mb : Nat) (eb : Int) : W32 :=
  let e := min ea eb
  let s := signedMan na (ma <<< (ea - e).toNat) + signedMan nb (mb <<< (eb - e).toNat)
  if s = 0 then (if na && nb then 0x80000000 else 0) else f32OfInt s e

/-- a + b. -/
def fadd (a b : W32) : W32 :=
  match f32Num a, f32Num b with
  | .fin na ma ea, .fin nb mb eb => addExact na ma ea nb mb eb
  | .inf na, .inf nb => if na = nb then a else f32Nan
  | .inf _, .fin .. => a
  | .fin .., .inf _ => b
  | _, _ => f32Nan

/-- a − b. -/
def fsub (a b : W32) : W32 := if f32IsNan b then f32Nan else fadd a (b ^^^ 0x80000000)

/-- a × b. -/
def fmul (a b : W32) : W32 :=
  match f32Num a, f32Num b with
  | .fin na ma ea, .fin nb mb eb => f32Round (na != nb) (ma * mb) (ea + eb)
  | .inf na, .inf nb => if na != nb then f32NegInf else f32Inf
  | .inf na, .fin nb mb _ => if mb = 0 then f32Nan else if na != nb then f32NegInf else f32Inf
  | .fin na ma _, .inf nb => if ma = 0 then f32Nan else if na != nb then f32NegInf else f32Inf
  | _, _ => f32Nan

/-- a × b + c with one rounding. -/
def ffma (a b c : W32) : W32 :=
  match f32Num a, f32Num b, f32Num c with
  | .fin na ma ea, .fin nb mb eb, .fin nc mc ec => addExact (na != nb) (ma * mb) (ea + eb) nc mc ec
  | .fin .., .fin .., .inf _ => c
  | _, _, _ => fadd (fmul a b) c

/-- The quotient of two finite values, b non-zero: more bits than binary32 keeps, and a sticky bit for the rest. -/
def divExact (neg : Bool) (ma : Nat) (ea : Int) (mb : Nat) (eb : Int) : W32 :=
  let q := (ma <<< 60) / mb
  let r := (ma <<< 60) % mb
  f32Round neg (2 * q + (if r = 0 then 0 else 1)) (ea - eb - 61)

/-- a / b. -/
def fdiv (a b : W32) : W32 :=
  match f32Num a, f32Num b with
  | .fin na ma ea, .fin nb mb eb =>
    if mb = 0 then (if ma = 0 then f32Nan else if na != nb then f32NegInf else f32Inf)
    else divExact (na != nb) ma ea mb eb
  | .inf na, .fin nb _ _ => if na != nb then f32NegInf else f32Inf
  | .fin na _ _, .inf nb => if na != nb then 0x80000000 else 0
  | _, _ => f32Nan

/-- floor(√n), one bit a step from 2^k down. -/
def isqrtFrom : Nat → Nat → Nat → Nat
  | 0, _, acc => acc
  | k + 1, n, acc => isqrtFrom k n (if (acc + 2 ^ k) * (acc + 2 ^ k) ≤ n then acc + 2 ^ k else acc)

/-- floor(√n). -/
def isqrt (n : Nat) : Nat := isqrtFrom (n.log2 / 2 + 1) n 0

/-- A mantissa with an even exponent. -/
def evenExp (man : Nat) (exp : Int) : Nat × Int := if exp % 2 = 0 then (man, exp) else (2 * man, exp - 1)

/-- √x. -/
def fsqrt (x : W32) : W32 :=
  match f32Num x with
  | .fin neg man exp =>
    if man = 0 then x
    else if neg then f32Nan
    else
      let (m, e) := evenExp man exp
      let n := m <<< 80
      let q := isqrt n
      f32Round false (2 * q + (if q * q = n then 0 else 1)) (e / 2 - 41)
  | .inf neg => if neg then f32Nan else x
  | .nan => f32Nan

/-- 1/√x rounded once (R115). -/
def frsqrt (x : W32) : W32 :=
  match f32Num x with
  | .fin neg man exp =>
    if man = 0 then (if neg then f32NegInf else f32Inf)
    else if neg then f32Nan
    else
      let (m, e) := evenExp man exp
      let q := isqrt (2 ^ 120 / m)
      f32Round false (2 * q + (if q * q * m = 2 ^ 120 then 0 else 1)) (-(e / 2) - 61)
  | .inf neg => if neg then f32Nan else 0
  | .nan => f32Nan

/-- RECIP (R115). -/
def frecip (x : W32) : W32 := fdiv f32One x

/-- A key that orders the values of non-NaN codes, −0 below +0 (R108). -/
def f32Key (x : W32) : Int :=
  if f32Neg x then -1 - ((x &&& 0x7FFFFFFF).toNat : Int) else (x.toNat : Int)

/-- IEEE 754 order: −0 equals +0, false with a NaN (R108). -/
def f32Lt (a b : W32) : Bool :=
  !f32IsNan a && !f32IsNan b && !(f32IsZero a && f32IsZero b) && f32Key a < f32Key b

def f32Eq (a b : W32) : Bool :=
  !f32IsNan a && !f32IsNan b && ((f32IsZero a && f32IsZero b) || a = b)

def f32Le (a b : W32) : Bool := f32Lt a b || f32Eq a b

/-- MIN and MAX (R108). -/
def fmin (a b : W32) : W32 :=
  if f32IsNan a || f32IsNan b then f32Nan else if f32Key b < f32Key a then b else a

def fmax (a b : W32) : W32 :=
  if f32IsNan a || f32IsNan b then f32Nan else if f32Key a < f32Key b then b else a

def fabs (a : W32) : W32 := if f32IsNan a then f32Nan else f32Abs a

/-! ### Helpers of R114 -/

/-- `man × 2^exp` rounded to an integer by the given mode's rule, ties to even. -/
def rneInt (neg : Bool) (man : Nat) (exp : Int) : Int :=
  let (n, frac, sh) := splitAt man exp 0
  signedMan neg (roundInt .rne 0 n frac sh)

/-- rint of a finite code. -/
def f32Rint (x : W32) : Int :=
  match f32Num x with
  | .fin neg man exp => rneInt neg man exp
  | _ => 0

/-- y × 2^k rounded once (R114). -/
def scale2 (y : W32) (k : Int) : W32 :=
  match f32Num y with
  | .fin neg man exp => f32Round neg man (exp + k)
  | _ => y

/-- The constants of R114: the binary32 values nearest to the exact values. -/
def kLog2e : W32 := 0x3FB8AA3B
def kLn2Hi : W32 := 0x3F317200
def kLn2Lo : W32 := 0x35BFBE8E
/-- E7, then E6 down to E0. -/
def kE7 : W32 := 0x39500D01
def kE : List W32 := [0x3AB60B61, 0x3C088889, 0x3D2AAAAB, 0x3E2AAAAB, 0x3F000000, 0x3F800000, 0x3F800000]
/-- L9, then L7, L5, L3. -/
def kL9 : W32 := 0x3E638E39
def kL : List W32 := [0x3E924925, 0x3ECCCCCD, 0x3F2AAAAB]
/-- T9, then T7, T5, T3. -/
def kT9 : W32 := 0x3CB327A4
def kT : List W32 := [0xBD5D0DD1, 0x3E088889, 0xBEAAAAAB]
/-- S6, then S5 down to S0. -/
def kS6 : W32 := 0x38FCD193
def kS : List W32 := [0xBA6016DA, 0x3BAB2DE7, 0xBCDC1672, 0x3DE71791, 0xBEC093A3, 0x3F906EBB]
/-- N9, then N8 down to N0. -/
def kN9 : W32 := 0x3E2EF945
def kN : List W32 := [0xBF527892, 0x3FBE87B0, 0xBF914E5D, 0x3E8EC7CC, 0xBE3EC24C, 0x3DC636C9, 0x3EBF88FB,
  0x3F8000C7, 0xBFA1FC4E]

/-- p := ffma(p, r, c) over the coefficients. -/
def horner (p r : W32) (cs : List W32) : W32 := cs.foldl (fun p c => ffma p r c) p

/-- EXP (R116). -/
def fexp (x : W32) : W32 :=
  if f32IsNan x then f32Nan
  else if f32Lt 0x42B17180 x then f32Inf
  else if f32Lt x 0xC2CFF1B5 then 0
  else
    let k := f32Rint (fmul x kLog2e)
    let nk := f32OfInt (-k) 0
    let r := ffma nk kLn2Lo (ffma nk kLn2Hi x)
    scale2 (horner kE7 r kE) k

/-- split of R114: the mantissa as a binary32 value in [1, 2) and the exponent. -/
def f32Split (x : W32) : W32 × Int :=
  match f32Num x with
  | .fin _ man exp => (f32Round false man (-(man.log2 : Int)), floorLog2 man exp)
  | _ => (f32One, 0)

/-- LOG (R117). -/
def flog (x : W32) : W32 :=
  if f32IsNan x then f32Nan
  else if f32IsZero x then f32NegInf
  else if f32Neg x then f32Nan
  else if f32IsInf x then f32Inf
  else
    let (m, e) := f32Split x
    let big := 0x3FB504F3 ≤ m.toNat
    let m := if big then fmul m 0x3F000000 else m
    let e := if big then e + 1 else e
    let f := fadd m f32MinusOne
    let s := fdiv f (fadd f32Two f)
    let z := fmul s s
    let p := horner kL9 z kL
    let u := ffma f32Two s (fmul (fmul s z) p)
    let ef := f32OfInt e 0
    fadd (fmul ef kLn2Hi) (ffma ef kLn2Lo u)

/-- TANH (R118). -/
def ftanh (x : W32) : W32 :=
  if f32IsNan x then f32Nan
  else
    let a := f32Abs x
    let y :=
      if f32Le 0x41100000 a then f32One
      else if f32Lt a 0x3E800000 then
        let z := fmul a a
        ffma (fmul a z) (horner kT9 z kT) a
      else
        let g := fexp (fmul f32Two a)
        fdiv (fadd g f32MinusOne) (fadd g f32One)
    f32CopySign y x

/-- ERF (R119). -/
def ferf (x : W32) : W32 :=
  if f32IsNan x then f32Nan
  else
    let a := f32Abs x
    let y :=
      if f32Lt a 0x3F000000 then
        let z := fmul a a
        fmul a (horner kS6 z kS)
      else if f32Lt a 0x40800000 then
        let t := fdiv f32One (ffma 0x3F000000 a f32One)
        let q := horner kN9 t kN
        fadd f32One (f32Negate (fmul t (fexp (ffma (f32Negate a) a q))))
      else f32One
    f32CopySign y x

/-- An FP32 value widened from a BF16 code (R26, R109). -/
def bf16Widen (code : Nat) : W32 := BitVec.ofNat 32 (code * 2 ^ 16)

/-- An operand element as the vector unit reads it (R109): exact, a NaN in canonical form. -/
def f32OfNum (x : Num) : W32 :=
  match x with
  | .fin neg man exp => f32Round neg man exp
  | .inf neg => if neg then f32NegInf else f32Inf
  | .nan => f32Nan

end Sys2Proof.Machine
end

