-- ==== Sys2Proof/Machine/Aes.lean ====
section
/-! DEFINITION. AES-256 and its XTS mode, which R181 names for the spoil tier by their standards: FIPS 197 and IEEE 1619 (log
entry 5). -/

namespace Sys2Proof.Machine

open Sys2Proof

/-! ### AES-256 (FIPS 197) -/

/-- The S-box, 16 entries a row, the first in the high byte. -/
def aesRows : List Nat :=
  [0x637C777BF26B6FC53001672BFED7AB76, 0xCA82C97DFA5947F0ADD4A2AF9CA472C0, 0xB7FD9326363FF7CC34A5E5F171D83115] ++
  [0x04C723C31896059A071280E2EB27B275, 0x09832C1A1B6E5AA0523BD6B329E32F84, 0x53D100ED20FCB15B6ACBBE394A4C58CF] ++
  [0xD0EFAAFB434D338545F9027F503C9FA8, 0x51A3408F929D38F5BCB6DA2110FFF3D2, 0xCD0C13EC5F974417C4A77E3D645D1973] ++
  [0x60814FDC222A908846EEB814DE5E0BDB, 0xE0323A0A4906245CC2D3AC629195E479, 0xE7C8376D8DD54EA96C56F4EA657AAE08] ++
  [0xBA78252E1CA6B4C6E8DD741F4BBD8B8A, 0x703EB5664803F60E613557B986C11D9E, 0xE1F8981169D98E949B1E87E9CE5528DF] ++
  [0x8CA1890DBFE6426841992D0FB054BB16]

/-- The inverse S-box. -/
def aesInvRows : List Nat :=
  [0x52096AD53036A538BF40A39E81F3D7FB, 0x7CE339829B2FFF87348E4344C4DEE9CB, 0x547B9432A6C2233DEE4C950B42FAC34E] ++
  [0x082EA16628D924B2765BA2496D8BD125, 0x72F8F66486689816D4A45CCC5D65B692, 0x6C704850FDEDB9DA5E154657A78D9D84] ++
  [0x90D8AB008CBCD30AF7E45805B8B34506, 0xD02C1E8FCA3F0F02C1AFBD0301138A6B, 0x3A9111414F67DCEA97F2CFCEF0B4E673] ++
  [0x96AC7422E7AD3585E2F937E81C75DF6E, 0x47F11A711D29C5896FB7620EAA18BE1B, 0xFC563E4BC6D279209ADBC0FE78CD5AF4] ++
  [0x1FDDA8338807C731B11210592780EC5F, 0x60517FA919B54A0D2DE57A9F93C99CEF, 0xA0E03B4DAE2AF5B0C8EBBB3C83539961] ++
  [0x172B047EBA77D626E169146355210C7D]

/-- An entry of a box of 16 rows. -/
def boxAt (rows : List Nat) (x : Byte) : Byte :=
  BitVec.ofNat 8 (rows.getD (x.toNat / 16) 0 >>> (8 * (15 - x.toNat % 16)))

/-- SubBytes and its inverse on a byte. -/
def subByte (x : Byte) : Byte := boxAt aesRows x
def invSubByte (x : Byte) : Byte := boxAt aesInvRows x

/-- A byte times x in GF(2^8). -/
def xtime (b : Byte) : Byte := (b <<< 1) ^^^ (if b.msb then 0x1B else 0)

/-- Exclusive or, byte by byte. -/
def xorBytes (a b : Bytes) : Bytes := List.zipWith (· ^^^ ·) a b

/-- The round constant of a key-schedule round: x to the power of the round less one. -/
def rcon : Nat → Byte
  | 0 => 1
  | n + 1 => xtime (rcon n)

/-- `n` further words of the key schedule, newest word first; the next word is word `i`. -/
def keyWords : Nat → Nat → List Bytes → List Bytes
  | 0, _, w => w
  | n + 1, i, w =>
    let t := w.getD 0 []
    let t := if i % 8 = 0 then xorBytes ((t.drop 1 ++ t.take 1).map subByte) [rcon (i / 8 - 1), 0, 0, 0]
      else if i % 8 = 4 then t.map subByte else t
    keyWords n (i + 1) (xorBytes (w.getD 7 []) t :: w)

/-- The 15 round keys of a 32-byte key. -/
def roundKeys (key : Bytes) : List Bytes :=
  let w := (keyWords 52 8 ((List.range 8).map fun i => slice key (4 * i) 4).reverse).reverse
  (List.range 15).map fun r => ((w.drop (4 * r)).take 4).flatten

/-- ShiftRows on a block held column by column, and its inverse. -/
def shiftRows (b : Bytes) : Bytes := (List.range 16).map fun i => b.getD ((i + 4 * (i % 4)) % 16) 0
def invShiftRows (b : Bytes) : Bytes := (List.range 16).map fun i => b.getD ((i + 12 * (i % 4)) % 16) 0

/-- MixColumns on one column: 2, 3, 1, 1 rotated. -/
def mixColumn : Bytes → Bytes
  | [a, b, c, d] =>
    let e := a ^^^ b ^^^ c ^^^ d
    [a ^^^ e ^^^ xtime (a ^^^ b), b ^^^ e ^^^ xtime (b ^^^ c), c ^^^ e ^^^ xtime (c ^^^ d), d ^^^ e ^^^ xtime (d ^^^ a)]
  | x => x

/-- Its inverse: a column first multiplied by 5, 0, 4, 0 rotated. -/
def invMixColumn : Bytes → Bytes
  | [a, b, c, d] =>
    let u := xtime (xtime (a ^^^ c))
    let v := xtime (xtime (b ^^^ d))
    mixColumn [a ^^^ u, b ^^^ v, c ^^^ u, d ^^^ v]
  | x => x

/-- A map on each of the four columns of a block. -/
def onColumns (f : Bytes → Bytes) (b : Bytes) : Bytes := (List.range 4).flatMap fun i => f (slice b (4 * i) 4)

/-- The cipher on one 16-byte block under expanded round keys. -/
def aesEncrypt (ks : List Bytes) (b : Bytes) : Bytes :=
  let b := ((ks.drop 1).take 13).foldl (fun b k => xorBytes (onColumns mixColumn (shiftRows (b.map subByte))) k)
    (xorBytes b (ks.getD 0 []))
  xorBytes (shiftRows (b.map subByte)) (ks.getD 14 [])

/-- The inverse cipher. -/
def aesDecrypt (ks : List Bytes) (b : Bytes) : Bytes :=
  let b := ((ks.drop 1).take 13).reverse.foldl (fun b k => onColumns invMixColumn (xorBytes ((invShiftRows b).map invSubByte) k))
    (xorBytes b (ks.getD 14 []))
  xorBytes ((invShiftRows b).map invSubByte) (ks.getD 0 [])

/-! ### XTS (IEEE 1619) -/

/-- A 128-bit tweak times α in GF(2^128). -/
def timesAlpha (t : Nat) : Nat := if 2 ^ 127 ≤ t then (2 * t) % 2 ^ 128 ^^^ 0x87 else 2 * t

/-- The tweaks of `n` successive blocks. -/
def tweaks : Nat → Nat → List Nat
  | 0, _ => []
  | n + 1, t => t :: tweaks n (timesAlpha t)

/-- A data unit of whole blocks through `f` between its tweaks. -/
def xtsBlocks (f : Bytes → Bytes) (t0 : Nat) (b : Bytes) : Bytes :=
  (tweaks (b.length / 16) t0).zipIdx.flatMap fun x => xorBytes (f (xorBytes (slice b (16 * x.2) 16) (le 16 x.1))) (le 16 x.1)

/-- XTS-AES-256 encryption of one data unit: `key` is the data key and then the tweak key, 32 bytes each. -/
def xtsEncrypt (key : Bytes) (tweak : Nat) (b : Bytes) : Bytes :=
  xtsBlocks (aesEncrypt (roundKeys (slice key 0 32))) (number (aesEncrypt (roundKeys (slice key 32 32)) (le 16 tweak))) b

/-- XTS-AES-256 decryption of one data unit. -/
def xtsDecrypt (key : Bytes) (tweak : Nat) (b : Bytes) : Bytes :=
  xtsBlocks (aesDecrypt (roundKeys (slice key 0 32))) (number (aesEncrypt (roundKeys (slice key 32 32)) (le 16 tweak))) b

end Sys2Proof.Machine
end

