-- ==== Sys2Proof/Machine/Frames.lean ====
section
/-! DEFINITION. The bytes of a Mutik frame: header, payload and trailer (R342), and the MSG word of R372. -/

namespace Sys2Proof.Machine

open Sys2Proof

/-- The 32-byte header of a frame (R342). -/
def frameHeader (f : Frame) : Bytes :=
  le 1 f.typ ++ le 1 (f.vc % 8 + 8 * f.pitchAddr.toNat + 16 * f.ordered.toNat + 32 * (f.hchan % 8)) ++ le 2 f.len ++
  le 2 (f.tag % 4096 + 4096 * (f.srcKind % 4)) ++ le 1 f.hops ++ le 1 f.status ++ le 8 f.dest ++ le 2 f.srcModule ++
  le 1 f.srcDie ++ le 1 f.srcPort ++ le 4 f.txn ++ le 4 f.lseq ++ le 4 f.htag

/-- What the CRC covers: the header, the payload and the ACK field (R342). -/
def frameBody (f : Frame) : Bytes := frameHeader f ++ f.payload ++ le 4 f.ack

/-- A frame's bytes on the link. -/
def frameImage (f : Frame) : Bytes := frameBody f ++ le 4 f.crc.toNat

/-- The CRC of a frame is right (R346). -/
def frameGood (f : Frame) : Bool := f.crc = crc32c (frameBody f)

/-- A frame with its CRC. -/
def frameSealed (f : Frame) : Frame := { f with crc := crc32c (frameBody f) }

/-- Bytes of a frame on the link (R342). -/
def frameBytes (f : Frame) : Nat := 40 + f.payload.length

/-- Credits that a frame takes (R345). -/
def frameCredits (f : Frame) : Nat := ceilDiv (40 + f.len) 64

/-- A request frame, whose transaction has a TXN (R352). -/
def isRequest (typ : Nat) : Bool := 1 ≤ typ && typ ≤ 5

/-- HELLO and LINK_CTRL frames: link-local, with LSEQ 0, and without credits (R343). -/
def linkLocal (typ : Nat) : Bool := typ = 0x0E || typ = 0x0F

/-- The fields of a MSG word, and its data (R372). -/
structure MsgWord where
  requestId : Nat
  kind : Nat
  seg : Nat
  nseg : Nat
  data : Bytes
  deriving DecidableEq, Repr

def parseMsg (f : Frame) : MsgWord :=
  ⟨u64 f.payload 0, u8 f.payload 8, u8 f.payload 9, u8 f.payload 10, f.payload.drop 16⟩

/-- The payload of a MSG frame: its MSG word, and the data padded to a multiple of 8 bytes (R342, R372). -/
def msgPayload (requestId kind seg nseg : Nat) (data : Bytes) : Bytes :=
  le 8 requestId ++ le 1 kind ++ le 1 seg ++ le 1 nseg ++ le 5 0 ++ padTo data (roundUp data.length 8)

end Sys2Proof.Machine
end

