-- ==== Sys2Proof/Machine/Ops.lean ====
section
/-! DEFINITION. The shared operations of the machine: status codes (R377), memory by physical key and its canonical form,
updates of one part of the state, the event log (R411), responses to requests (R373 to R382), the translation of pitch
addresses (R163 to R173), the spoil tier (R178 to R181), and reads and writes at pitch addresses (R73, R168, R172, R177,
R326). -/

namespace Sys2Proof.Machine

open Sys2Proof

/-! ### Status codes (R377) -/

def stOk : Nat := 0
def stBusy : Nat := 1
def stQueueFull : Nat := 2
def stNotPermitted : Nat := 3
def stBadCommand : Nat := 4
def stBadDescriptor : Nat := 5
def stNotInjective : Nat := 6
def stOutOfRange : Nat := 7
def stNoCapacity : Nat := 8
def stExpired : Nat := 9
def stAborted : Nat := 10
def stAbortLate : Nat := 11
def stUncorrectable : Nat := 12
def stDegraded : Nat := 13
def stNotFound : Nat := 14
def stVerifyFailed : Nat := 15

/-- The tag of no pitch (R375, R411). -/
def noTag : Nat := 0xFFFF

/-- The die of a module-wide event (R411). -/
def noDie : Nat := 0xFF

/-- The first error, or every result. -/
def mapE {ε α β : Type} (f : α → Except ε β) : List α → Except ε (List β)
  | [] => .ok []
  | x :: xs => match f x with
    | .error e => .error e
    | .ok y => match mapE f xs with
      | .error e => .error e
      | .ok ys => .ok (y :: ys)

/-- A fold that stops at the first error. -/
def foldE {ε α β : Type} (f : β → α → Except ε β) : β → List α → Except ε β
  | b, [] => .ok b
  | b, x :: xs => match f b x with
    | .error e => .error e
    | .ok b' => foldE f b' xs

/-- What stands when an operation ends: its result, or `b` and the error that stopped it. -/
def kept {ε β : Type} (b : β) : Except ε β → β × Option ε
  | .ok b' => (b', none)
  | .error e => (b, some e)

/-- A fold that keeps what it has done when it stops at an error, the stopped piece's own beginning included. -/
def foldKeep {ε α β : Type} (f : β → α → β × Option ε) : β → List α → β × Option ε
  | b, [] => (b, none)
  | b, x :: xs => match f b x with
    | (b', some e) => (b', some e)
    | (b', none) => foldKeep f b' xs

/-! ### Memory: sparse cells in one canonical form

An unlisted address reads as zero (R168). -/

/-- The byte at a key. -/
def memGet : List Host.Cell → Nat → Byte
  | [], _ => 0
  | (k, v) :: m, a => if k = a then v else if a < k then 0 else memGet m a

/-- One byte written; a zero removes its entry. -/
def memSet : List Host.Cell → Nat → Byte → List Host.Cell
  | [], a, v => if v = 0 then [] else [(a, v)]
  | (k, w) :: m, a, v =>
    if a < k then (if v = 0 then (k, w) :: m else (a, v) :: (k, w) :: m)
    else if a = k then (if v = 0 then m else (a, v) :: m)
    else (k, w) :: memSet m a v

/-- Bytes written in order. -/
def memWrite (m : List Host.Cell) (cs : List Host.Cell) : List Host.Cell := cs.foldl (fun m c => memSet m c.1 c.2) m

/-- The keys [lo, lo + n) zeroed. -/
def memClear (m : List Host.Cell) (lo n : Nat) : List Host.Cell := m.filter fun c => c.1 < lo || lo + n ≤ c.1

/-- The cells of [lo, lo + n), by offset. -/
def memCells (m : List Host.Cell) (lo n : Nat) : List Host.Cell :=
  (m.filter fun c => lo ≤ c.1 && c.1 < lo + n).map fun c => (c.1 - lo, c.2)

/-- The canonical form: keys strictly rising, no zero listed. -/
def Memory.wf : List Host.Cell → Bool
  | [] => true
  | [c] => c.2 != 0
  | c :: d :: m => c.2 != 0 && decide (c.1 < d.1) && Memory.wf (d :: m)

/-! ### Physical keys -/

/-- A byte of the module's own dies: die × 2^43 + offset in the die's space (R163). -/
def localKey (die off : Nat) : Nat := die * 2 ^ 43 + off

/-- A byte of another module of a pitch, as this module reaches it over the fabric (R163). -/
def remoteKey (module die off : Nat) : Nat := (module + 1) * 2 ^ 48 + die * 2 ^ 43 + off

/-- A byte of a spoil region homed on another module, by pitch tag and pitch address: its home die gives and takes plaintext
(R165, R179, R183). -/
def spoilKey (tag a : Nat) : Nat := 2 ^ 80 + tag * 2 ^ 48 + a

/-- Such a key. -/
def isSpoilKey (k : Nat) : Bool := 2 ^ 80 ≤ k && k < 2 ^ 81

/-- A byte of host memory behind a bridge module, where a HOST region homed here keeps its ciphertext (R178). -/
def hostKey (module a : Nat) : Nat := 2 ^ 100 + module * 2 ^ 65 + a

/-- A byte of the SRAM image of a logical cluster that is not loaded (R161). -/
def imageKey (tag l off : Nat) : Nat := 2 ^ 81 + tag * 2 ^ 40 + l * 2 ^ 23 + off

/-- Offsets of a cluster's DRAM partition and SRAM in the die's space (R163). -/
def dramOff (cluster p : Nat) : Nat := cluster * Config.partitionBytes + p
def sramOff (cluster o : Nat) : Nat := 0x10000000000 + cluster * Config.sramBytes + o

/-- The code of a store (R174): the data bytes of its unit, the bits of a symbol, and how many bad symbols in a unit it corrects
and detects. -/
structure StoreCode where
  bytes : Nat
  symbol : Nat
  corrects : Nat
  detects : Nat
  deriving DecidableEq, Repr

/-- Reed–Solomon on a 64-byte sector of bonded DRAM, and SECDED on a 64-bit word of every other store (R174). -/
def sectorCode : StoreCode := ⟨64, 16, 1, 2⟩
def wordCode : StoreCode := ⟨8, 1, 1, 2⟩

/-- What a code makes of a unit that is read with a number of bad symbols. -/
inductive Decoded where
  | clean
  | corrected
  | uncorrectable
  deriving DecidableEq, Repr

/-- What a code makes of a unit with so many bad symbols; past those that it detects for certain, whether it does is open
(R174, notes/assumptions/68.md). -/
def StoreCode.decode (c : StoreCode) (symbols k now : Nat) : Decoded :=
  if symbols = 0 then .clean
  else if symbols ≤ c.corrects then .corrected
  else if symbols ≤ c.detects || Config.codeDetects k now then .uncorrectable
  else .clean

/-- The code of the store that holds a key. -/
def codeOf (k : Nat) : StoreCode :=
  if (k < 2 ^ 80 && 0x10000000000 ≤ k % 2 ^ 43) || (2 ^ 81 ≤ k && k < 2 ^ 100) then wordCode else sectorCode

/-- The unit of failure that holds a key, and its bytes (R174, R177). -/
def unitOf (k : Nat) : Nat × Nat := (k / (codeOf k).bytes * (codeOf k).bytes, (codeOf k).bytes)

/-- A key of bonded DRAM of this module. -/
def isLocalDram (k : Nat) : Bool := k < 24 * 2 ^ 43 && k % 2 ^ 43 < 16 * Config.partitionBytes

/-! ### Updates of one part of the state -/

def State.setMem (s : State) (m : List Host.Cell) : State := { s with mem := m }
def State.setBad (s : State) (b : List Nat) : State := { s with bad := b }
def State.setDies (s : State) (d : List Die) : State := { s with dies := d }
def State.setPorts (s : State) (p : List Port) : State := { s with ports := p }
def State.setFab (s : State) (f : Fabric) : State := { s with fab := f }
def State.setPitches (s : State) (p : List Pitch) : State := { s with pitches := p }
def State.setLends (s : State) (l : List Lend) : State := { s with lends := l }
def State.setBoxes (s : State) (b : List Mailbox) : State := { s with boxes := b }
def State.setMbx0 (s : State) (m : Mbx0) : State := { s with mbx0 := m }
def State.setRing (s : State) (r : Ringmaster) : State := { s with ring := r }
def State.setFw (s : State) (f : Firmware) : State := { s with fw := f }
def State.setPower (s : State) (p : Power) : State := { s with power := p }
def State.setKpr (s : State) (k : Keeper) : State := { s with kpr := k }
def State.setLog (s : State) (l : Log) : State := { s with log := l }
def State.setTests (s : State) (t : Tests) : State := { s with tests := t }
def State.setEeprom (s : State) (e : Eeprom) : State := { s with eeprom := e }
def State.send (s : State) (x : Sent) : State := { s with sent := s.sent ++ [x] }
def State.draw (s : State) : State := { s with free := s.free + 1 }

def State.die (s : State) (d : Nat) : Die := s.dies.getD d {}
def State.updDie (s : State) (d : Nat) (f : Die → Die) : State := s.setDies (s.dies.modify d f)
def Die.cluster (d : Die) (c : Nat) : Cluster := d.clusters.getD c {}
def Die.updCluster (d : Die) (c : Nat) (f : Cluster → Cluster) : Die := { d with clusters := d.clusters.modify c f }
def State.cluster (s : State) (p : Place) : Cluster := (s.die p.die).cluster p.cluster
def State.updCluster (s : State) (p : Place) (f : Cluster → Cluster) : State :=
  s.updDie p.die fun d => d.updCluster p.cluster f
def State.port (s : State) (p : Nat) : Port := s.ports.getD p {}
def State.updPort (s : State) (p : Nat) (f : Port → Port) : State := s.setPorts (s.ports.modify p f)
def State.box (s : State) (m : Nat) : Mailbox := s.boxes.getD m {}
def State.updBox (s : State) (m : Nat) (f : Mailbox → Mailbox) : State := s.setBoxes (s.boxes.modify m f)
def State.now (s : State) : Nat := s.kpr.now

def State.pitch? (s : State) (tag : Nat) : Option Pitch := s.pitches.find? fun p => p.tag = tag
def State.updPitch (s : State) (tag : Nat) (f : Pitch → Pitch) : State :=
  s.setPitches (s.pitches.map fun p => if p.tag = tag then f p else p)
def Pitch.queue? (p : Pitch) (id : Nat) : Option Queue := p.queues.find? fun q => q.id = id
def Pitch.updQueue (p : Pitch) (id : Nat) (f : Queue → Queue) : Pitch :=
  { p with queues := p.queues.map fun q => if q.id = id then f q else q }
def Pitch.item? (p : Pitch) (k : ItemKey) : Option Item := p.items.find? fun i => i.key = k
def Pitch.updItem (p : Pitch) (k : ItemKey) (f : Item → Item) : Pitch :=
  { p with items := p.items.map fun i => if i.key = k then f i else i }
def State.item? (s : State) (k : ItemKey) : Option Item := (s.pitch? k.tag).bind fun p => p.item? k
def State.updItem (s : State) (k : ItemKey) (f : Item → Item) : State := s.updPitch k.tag fun p => p.updItem k f
def State.updQueue (s : State) (tag id : Nat) (f : Queue → Queue) : State := s.updPitch tag fun p => p.updQueue id f

/-- A count added to one of the eight meter counters and its total (R330, R331). -/
def Pitch.meter (p : Pitch) (i n : Nat) : Pitch :=
  { p with meterNow := p.meterNow.modify i (· + n), meterTotal := p.meterTotal.modify i (· + n) }

/-- A value by key in an association list. -/
def lookupD {α : Type} (l : List (Nat × α)) (k : Nat) (d : α) : α := ((l.find? fun e => e.1 = k).map (·.2)).getD d

/-- The total of an association list of counts. -/
def totalOf (l : List (Nat × Nat)) : Nat := (l.map (·.2)).foldl (· + ·) 0

/-- An association list with one entry replaced or added, keys rising. -/
def insertKey {α : Type} : List (Nat × α) → Nat → α → List (Nat × α)
  | [], k, v => [(k, v)]
  | e :: l, k, v => if k < e.1 then (k, v) :: e :: l else if k = e.1 then (k, v) :: l else e :: insertKey l k v

/-- A rising list of numbers with one more. -/
def insertNat : List Nat → Nat → List Nat
  | [], k => [k]
  | e :: l, k => if k < e then k :: e :: l else if k = e then e :: l else e :: insertNat l k

/-- Stable insertion sort; `le a b` keeps `a` before `b`. -/
def insertBy {α : Type} (le : α → α → Bool) (x : α) : List α → List α
  | [] => [x]
  | y :: l => if le x y then x :: y :: l else y :: insertBy le x l

def sortBy {α : Type} (le : α → α → Bool) : List α → List α
  | [] => []
  | x :: l => insertBy le x (sortBy le l)

/-- The bits of a mask, ascending. -/
def maskBits (m n : Nat) : List Nat := (List.range n).filter fun i => m.testBit i

/-- A mask from its bits. -/
def maskOf (l : List Nat) : Nat := l.foldl (fun m i => m ||| 2 ^ i) 0

/-! ### The event log (R411, R440) -/

/-- An event-log entry with its code, severity (0 INFO, 1 WARN, 2 ALERT), die, tag and data. -/
def State.logEvent (s : State) (code sev die tag data : Nat) : State :=
  let e : Event := ⟨s.log.next, s.now, code, sev, die, tag, data % 2 ^ 64⟩
  let l := s.log.entries ++ [e]
  s.setLog { next := s.log.next + 1
             entries := l.drop (l.length - Config.logEntries)
             alertPend := if sev = 2 then s.log.alertPend ||| (1#9 <<< (code / 256)) else s.log.alertPend
             lastAlert := if sev = 2 then e.seq else s.log.lastAlert
             fresh := if sev = 2 then s.log.fresh ||| (1#9 <<< (code / 256)) else s.log.fresh }

/-- An entry whose code the spec does not number: its group's high byte, an open low byte and open data (R411). The
severity is given where the spec gives it, else it is open between INFO and WARN. -/
def State.logNote (s : State) (group : Nat) (name : String) (sev : Option Nat) (die tag data : Nat) : State :=
  s.logEvent (group * 256 + (Config.eventLow name).toNat) (sev.getD (if Config.eventIsWarn name then 1 else 0)) die tag
    (Config.eventData name data).toNat

/-- The same where the spec says what DATA holds. -/
def State.logFact (s : State) (group : Nat) (name : String) (sev : Option Nat) (die tag data : Nat) : State :=
  s.logEvent (group * 256 + (Config.eventLow name).toNat) (sev.getD (if Config.eventIsWarn name then 1 else 0)) die tag data

/-! ### Ports and links (R316, R339, R342 to R347) -/

/-- A carrying port: it is trained, and carries frames or HELLO (R339). -/
def Port.carrying (p : Port) : Bool := p.st = .up || p.st = .upX4 || p.st = .held

/-- A port that carries traffic. -/
def Port.traffic (p : Port) : Bool := p.st = .up || p.st = .upX4

/-- An event of a counter of R444 in the present local count, by the counter's place from FEC_CORR on (R445). -/
def Port.noted (p : Port) (i : Nat) : Port := { p with counted := insertNat p.counted i }

/-- A discarded frame counted on its port (R444). -/
def State.countDiscard (s : State) (port : Nat) : State :=
  s.updPort port fun p => { p with discards := satInc p.discards 0xFFFFFFFF }.noted 5

/-- The die of a port (R317). -/
def portDie (port : Nat) : Nat := port / 3

/-- Credits that the sender holds on a channel: granted less used, as 32-bit counts. -/
def Port.credits (p : Port) (vc : Nat) : Nat := (p.credGranted.getD vc 0 + 2 ^ 32 - p.credUsed.getD vc 0 % 2 ^ 32) % 2 ^ 32

/-- The replay buffer of 512 KiB has room for a frame (R346). -/
def Port.replayRoom (p : Port) (f : Frame) : Bool := (p.replay.map frameBytes).foldl (· + ·) 0 + frameBytes f ≤ 524288

/-- The highest LSEQ received in order (R342, R346). -/
def Port.lastIn (p : Port) : Nat := (p.rxLseq + 2 ^ 32 - 1) % 2 ^ 32

/-- The port takes the frame on the channel now (R345, R346). -/
def State.takes (s : State) (port vc : Nat) (f : Frame) : Bool :=
  frameCredits f ≤ (s.port port).credits vc && (s.port port).replayRoom f

/-- A frame put on the link, with the ACK of this moment and its CRC. -/
def State.onLink (s : State) (port : Nat) (f : Frame) : State :=
  s.send (.link port (frameSealed { f with ack := (s.port port).lastIn }))

/-- A frame handed to a port's transmitter on a channel. -/
def State.transmit (s : State) (port vc : Nat) (f : Frame) : State :=
  let g := { f with vc := vc, lseq := (s.port port).txLseq }
  (s.onLink port g).updPort port fun p =>
    { p with txLseq := (p.txLseq + 1) % 2 ^ 32, replay := p.replay ++ [g]
             credUsed := p.credUsed.modify vc fun c => (c + frameCredits f) % 2 ^ 32 }

/-- A LINK_CTRL frame sent on a port. -/
def State.control (s : State) (port : Nat) (c : CtrlItem) : State := s.send (.ctrl port ⟨c, (s.port port).lastIn⟩)

/-- The credits that the receiver has to return go out as cumulative counts; the frame acknowledges what has come, too (R342,
R345). -/
def State.tellCredits (s : State) (port : Nat) : State :=
  (s.control port (.credits (s.port port).credFreed)).updPort port fun p => { p with credTold := p.credFreed, credAt := s.now }

/-- The frames that wait for the host adapter leave in their order on each channel, as far as the port carries traffic and takes
them (R339, R345); `blocked` are the channels on which one waits. -/
def State.hostLine (port : Nat) : List (Nat × Frame) → List Nat → State → State
  | [], _, s => s
  | x :: l, blocked, s =>
    if (s.port port).traffic && !blocked.contains x.1 && s.takes port x.1 x.2 then
      State.hostLine port l blocked (s.transmit port x.1 x.2)
    else State.hostLine port l (x.1 :: blocked) (s.updPort port fun p => { p with hostOut := p.hostOut ++ [x] })

/-- What waits for the host adapter goes on. -/
def State.flushHost (s : State) (port : Nat) : State :=
  State.hostLine port (s.port port).hostOut [] (s.updPort port fun p => { p with hostOut := [] })

/-- Bytes on HOST channels of a pitch of this module (R330). -/
def State.meterHost (s : State) (tag n : Nat) : State := s.updPitch tag fun p => p.meter 7 n

/-- A frame on its way to the host adapter on a channel of its pitch (R330, R358, R360). -/
def State.sendHost (s : State) (port vc : Nat) (f : Frame) : State :=
  ((s.updPort port fun p => { p with hostOut := p.hostOut ++ [(vc, f)] }).flushHost port).meterHost f.tag f.payload.length

/-! ### Originated frames (R352, R354) -/

/-- A frame put into a die's router. -/
def State.toRouter (s : State) (die : Nat) (w : Waiting) : State := s.updDie die fun d => { d with router := d.router ++ [w] }

/-- A die may have 4,096 transactions outstanding. -/
def Die.txnRoom (d : Die) : Bool := d.txns.length < 4096

/-- A transaction begins: its TXN, its frame, and the work item that owns it. -/
def State.beginTxn (s : State) (die : Nat) (f : Frame) (owner : Option ItemKey) : State :=
  let f := { f with txn := (s.die die).nextTxn, hops := 32 }
  (s.updDie die fun d =>
    { d with nextTxn := (d.nextTxn + 1) % 2 ^ 32
             txns := d.txns ++ [{ frame := f, outPort := none, firstSent := s.now, lastSent := s.now, interval := 25000
                                  owner := owner }] }).toRouter die ⟨f, false, s.now, none, false⟩

/-- A request frame that a die originates; above 4,096 transactions it waits (R352). A module without a module ID originates
none (R354). -/
def State.originate (s : State) (die : Nat) (f : Frame) (owner : Option ItemKey) : State :=
  if !s.fab.assigned then s
  else if (s.die die).txnRoom then s.beginTxn die f owner
  else s.updDie die fun d => { d with backlog := d.backlog ++ [(f, owner)] }

/-- A transaction is over: a frame that waits for its place takes it. -/
def State.endTxn (s : State) (die txn : Nat) : State :=
  let s := s.updDie die fun d => { d with txns := d.txns.filter fun t => t.frame.txn != txn }
  match (s.die die).backlog with
  | [] => s
  | x :: l => (s.updDie die fun d => { d with backlog := l }).beginTxn die x.1 x.2

/-- Frames addressed to the module's own dies are discarded: it has no module ID, or is in keeper-only mode (R354, R361). -/
def State.deaf (s : State) : Bool := s.kpr.mod = .keeperOnly || !s.fab.assigned

/-- The die of a Ringmaster pair (R367). -/
def pairDie (pair : Nat) : Nat := if pair = 0 then 0 else 23

/-- The die of the primary Ringmaster, whose firmware sends MSG frames. -/
def State.ringDie (s : State) : Nat := pairDie s.ring.primary

/-! ### Firmware messages (R321, R352, R392)

No rule lays them out: a message is a MSG frame to mailbox 0 with SRC_KIND FIRMWARE, and carries a request or a response as a
mailbox's MSG frames do (PRESUMED, notes/assumptions/37.md). -/

/-- The mailbox number of firmware messages in the journal, and the first of their numbers there. -/
def messageBox : Nat := 0xFF
def messageSeq : Nat := 2 ^ 64

/-- A MSG frame that the Ringmaster's firmware sends about a pitch: to a fabric address, for the HOST port of an adapter or, with 0xFF,
for the Ringmaster of the other module. -/
def State.firmwareFrame (s : State) (dest tag srcPort hchan htag : Nat) (payload : Bytes) : State :=
  s.originate s.ringDie
    { typ := 4, hchan := hchan, len := payload.length, tag := tag, srcKind := 1, dest := dest, srcModule := s.fab.moduleId
      srcDie := s.ringDie, srcPort := srcPort, htag := htag, payload := payload } none

/-- A firmware message to another module. -/
def State.sendMessage (s : State) (module tag requestId kind : Nat) (data : Bytes) : State :=
  s.firmwareFrame (module * 2 ^ 48) tag 0xFF 0 0 (msgPayload requestId kind 0 1 data)

/-- A MSG frame toward a port and channel of a bridge (R372); a frame that came through no HOST port has none. -/
def State.toAdapter (s : State) (srcModule srcPort hchan htag tag : Nat) (payload : Bytes) : State :=
  if Config.ports ≤ srcPort then s else s.firmwareFrame (srcModule * 2 ^ 48 + portDie srcPort * 2 ^ 43) tag srcPort hchan htag payload

/-! ### Responses (R373 to R375, R381, R382) -/

/-- A 64-byte message header (R375). -/
def header (command flags length requestId srcPort hchan tag mailbox status srcModule seq : Nat) : Bytes :=
  le 2 command ++ le 2 flags ++ le 4 length ++ le 8 requestId ++ le 1 srcPort ++ le 1 hchan ++ le 2 tag ++
  le 1 mailbox ++ le 1 0 ++ le 2 status ++ le 2 srcModule ++ le 6 0 ++ le 8 seq ++ le 24 0

/-- The response message of an accepted request (R374). -/
def responseMsg (r : Request) (status : Nat) (body : Bytes) : Bytes :=
  header r.command (1 + if r.fence then 4 else 0) body.length r.requestId r.srcPort r.hchan r.tag r.mailbox status
    r.srcModule r.seq ++ body

/-- A stored response with DUPLICATE set (R382). -/
def asDuplicate (msg : Bytes) : Bytes := msg.modify 2 fun b => b ||| 2

/-- A response on its way: into mailbox 0's response queue, as RSP_SEG frames of 240 bytes, or for a firmware message as its
answer (R372, R374). -/
def State.deliver (s : State) (mailbox srcModule srcPort hchan htag requestId : Nat) (msg : Bytes) (counted : Bool) :
    State :=
  if mailbox = 0 then s.setMbx0 { s.mbx0 with rsp := s.mbx0.rsp ++ [(msg, counted)] }
  else if mailbox = messageBox then s.sendMessage srcModule (u16 msg 18 % 4096) requestId 2 (msg.take 72)
  else
    let n := ceilDiv msg.length 240
    (List.range n).foldl (fun s i => s.toAdapter srcModule srcPort hchan htag (u16 msg 18 % 4096)
      (msgPayload requestId 2 i n ((msg.drop (240 * i)).take 240))) s

/-- The DONE entries of a window beyond the newest 1,024 dropped, oldest first (R381). -/
def trimDone (w : List WinEntry) : List WinEntry :=
  let extra := (w.filter fun e => e.done.isSome).length - 1024
  (w.foldl (fun (acc : List WinEntry × Nat) e =>
    if e.done.isSome && acc.2 < extra then (acc.1, acc.2 + 1) else (acc.1 ++ [e], acc.2)) ([], 0)).1

/-- The one response of an accepted request: it leaves the journal, its window entry is DONE, held duplicates are answered,
and on mailboxes 1 to 63 it is outstanding no more (R373, R374, R381, R382). -/
def State.respond (s : State) (seq status : Nat) (body : Bytes) : State :=
  match s.ring.journal.find? fun r => r.seq = seq with
  | none => s
  | some r =>
    let msg := responseMsg r status body
    let dups := ((s.box r.mailbox).window.find? fun e => e.requestId = r.requestId).elim [] (·.dups)
    let s := s.setRing { s.ring with journal := s.ring.journal.filter fun x => x.seq != seq }
    let s := s.updBox r.mailbox fun b =>
      { b with
        window := trimDone ((b.window.filter fun e => e.requestId != r.requestId) ++
          [⟨r.requestId, some (msg, s.now), []⟩])
        outstanding := if r.mailbox = 0 then b.outstanding else b.outstanding - 1 }
    let s := s.deliver r.mailbox r.srcModule r.srcPort r.hchan r.htag r.requestId msg true
    dups.foldl (fun s d => s.deliver r.mailbox d.1 d.2.1 d.2.2.1 d.2.2.2 r.requestId (asDuplicate msg) false) s

/-- FW_ACTIVATE's command code. -/
def cmdActivate : Nat := 0x0702

/-- The object of R379 that a request acts on: its kind (0 pitch, 1 port, 2 mailbox, 3 route tables, 4 staged image, 5 queue,
6 model instance, 7 session, 8 run, 9 plan), the pitch it belongs to, and its name; no name is every object of the kind. -/
def Request.object (r : Request) : Option (Nat × Nat × Option Nat) :=
  let b := r.body
  if [0x0101, 0x0102, 0x0104, 0x0105].contains r.command then some (0, u16 b 0 % 4096, none)
  else if r.command = 0x0103 then some (if u8 b 0 = 0 then 1 else 2, 0, some (u8 b 1))
  else if r.command = 0x0601 then some (1, 0, if u8 b 0 = 0xFF then none else some (u8 b 0))
  else if r.command = 0x0604 then some (1, 0, none)
  else if r.command = 0x0602 then some (3, 0, none)
  else if r.command = 0x0701 || r.command = cmdActivate then some (4, 0, none)
  else if r.command = 0x0202 || r.command = 0x0203 then some (5, r.tag, some (u8 b 0))
  else if [0x0201, 0x0204, 0x0205].contains r.command then some (5, r.tag, none)
  else if [0x0301, 0x0302, 0x0307].contains r.command then some (6, r.tag, some (u32 b 0))
  else if 0x0303 ≤ r.command && r.command ≤ 0x0306 then some (7, r.tag, some (u32 b 0))
  else if 0x0401 ≤ r.command && r.command ≤ 0x0405 then some (8, r.tag, some (u32 b 0))
  else if 0x0501 ≤ r.command && r.command ≤ 0x0504 then some (9, r.tag, some (u32 b 0))
  else none

/-- Two requests act on one object. -/
def Request.meets (a b : Request) : Bool :=
  match a.object, b.object with
  | some x, some y => x.1 = y.1 && x.2.1 = y.2.1 && (x.2.2.isNone || y.2.2.isNone || x.2.2 = y.2.2)
  | _, _ => false

/-- A pitch's own state shows that a request has taken effect and waits to be answered; a save has frozen every queue but one that a
later close has started again. -/
def Pitch.begun (p : Pitch) (r : Request) : Bool :=
  p.busyWith = some r.seq ||
  p.queues.any (fun q => q.freezer = some r.seq || q.closing.elim false fun c => c.1 = r.seq) ||
  (r.command = 0x0204 && r.tag = p.tag && p.queues.all fun q => q.frozen || q.closing.isSome) ||
  p.models.any fun m => m.sessions.any fun x => x.closing = some (some r.seq) || x.pause.elim false fun q => q.request = some r.seq

/-- A request has taken effect and waits to be answered. -/
def State.begun (s : State) (r : Request) : Bool :=
  s.pitches.any (fun p => p.begun r) || s.ports.any (fun p => p.offs.any fun x => x.1 = r.seq) ||
  s.boxes.any (fun b => b.unbinding = some r.seq) || s.fw.handover.elim false (fun h => h.seq = r.seq) ||
  (r.command = cmdActivate && s.fw.rewrite.isSome)

/-- A request's turn: none accepted before it on the same object has still to take effect (R379). -/
def State.hasTurn (s : State) (r : Request) : Bool :=
  !(s.ring.journal.any fun x => x.seq < r.seq && x.meets r && !s.begun x)

/-- The accepted request that a Cusis row executes: it carries the row's command, may execute, and has its turn (R379, R380). No
command but FW_ACTIVATE executes while a take-over or a hand-over holds the Ringmaster (R368, R389). -/
def State.request? (s : State) (seq command : Nat) : Option Request :=
  if s.ring.holding && command != cmdActivate then none
  else s.ring.journal.find? fun r => r.seq = seq && r.command = command && r.released && s.hasTurn r

/-- A Cusis command of a pitch (R319): it acts on the pitch whose tag is stamped on it. A pitch that is gone answers
NOT_FOUND, and a FAILED one BUSY (R335, R376). -/
def State.onRequest (s : State) (seq command : Nat) (f : Request → Pitch → State) : State :=
  match s.request? seq command with
  | none => s
  | some r => match s.pitch? r.tag with
    | none => s.respond seq stNotFound []
    | some p => if p.st = .failed then s.respond seq stBusy [] else f r p

/-- The same for a command whose OP field, the byte at an offset, has a row for each of its `n` values; a value beyond them
is BAD_COMMAND. -/
def State.onRequestOp (s : State) (seq command off n op : Nat) (f : Request → Pitch → State) : State :=
  s.onRequest seq command fun r p =>
    if u8 r.body off = op then f r p else if n ≤ u8 r.body off then s.respond seq stBadCommand [] else s

/-- A Cusis command of the module. -/
def State.onOperator (s : State) (seq command : Nat) (f : Request → State) : State :=
  match s.request? seq command with
  | none => s
  | some r => f r

/-- A Cusis command of the module whose OP field has a row for each of its `n` values. -/
def State.onOperatorOp (s : State) (seq command off n op : Nat) (f : Request → State) : State :=
  s.onOperator seq command fun r =>
    if u8 r.body off = op then f r else if n ≤ u8 r.body off then s.respond seq stBadCommand [] else s

/-! ### The control record of the boot flash (R385) -/

/-- A copy of the control record: WRITE_STATE, IMAGE_BYTES and the measurement, closed by its CRC-32C. -/
def controlCopy (state bytes : Nat) (measurement : Bytes) : Bytes :=
  let b := le 4 state ++ le 4 0 ++ le 8 bytes ++ slice measurement 0 48
  b ++ le 4 (crc32c b).toNat

/-- A copy is valid: its CRC is right. -/
def controlValid (b : Bytes) : Bool := b.length = 68 && u32 b 64 = (crc32c (b.take 64)).toNat

/-- The control record in force: the first valid copy, else one that shows WRITING. -/
def Firmware.record (f : Firmware) : Bytes := (f.control.find? controlValid).getD (controlCopy 1 0 [])

/-- The record shows WRITING. -/
def Firmware.writing (f : Firmware) : Bool := u32 f.record 0 != 0

/-- IMAGE_BYTES of the record. -/
def Firmware.imageBytes (f : Firmware) : Nat := u64 f.record 8

/-- Both copies with WRITING set (R389, step 5). -/
def Firmware.writingControl (f : Firmware) : List Bytes := List.replicate 2 (controlCopy 1 f.imageBytes (slice f.record 16 48))

/-! ### Service cores (R367, R368)

Cores 0 to 7 stand beside pair 0 and cores 8 to 15 beside pair 1. -/

/-- A service core is in use: it has no fault, and its pair is not fenced. -/
def State.coreUsable (s : State) (c : Nat) : Bool :=
  c < 16 && !s.ring.deadCores.contains c && s.ring.fenced != some (c / 8)

/-- The Ringmaster performs the steps of a service task on a core: it is not held (R368, R389), and the core is in use. -/
def State.orchestrates (s : State) (c : Nat) : Bool := !s.ring.holding && s.coreUsable c

/-- The service tasks of the module, each with its core. -/
def State.taskCores (s : State) : List Nat := s.pitches.flatMap fun p => p.models.map (·.core) ++ p.plans.map (·.core)

/-- The core that a task is given: of those in use the one with the fewest tasks, the lowest first; 16 where none is in use
(DESIGN CHOICE, notes/assumptions/65.md). -/
def State.pickCore (s : State) : Nat :=
  let load := fun c => s.taskCores.countP (· = c)
  (((List.range 16).filter s.coreUsable).foldl (fun (b : Option Nat) c =>
    some (b.elim c fun x => if load c < load x then c else x)) none).getD 16

/-- The instances and orchestrators on a core. -/
def Pitch.tasksOn (p : Pitch) (c : Nat) : Bool := p.models.any (·.core = c) || p.plans.any (·.core = c)

/-- Every task of one core goes on, from its journaled state, on another. -/
def State.moveTasks (s : State) (c : Nat) : State :=
  if s.coreUsable c || !(s.pitches.any (·.tasksOn c)) then s
  else
    let d := s.pickCore
    s.setPitches (s.pitches.map fun p =>
      { p with models := p.models.map fun m => if m.core = c then { m with core := d } else m
               plans := p.plans.map fun x => if x.core = c then { x with core := d } else x })

/-- The tasks of every core that is not in use, and those that had none, go on where a core is (R368). -/
def State.rehome (s : State) : State := (List.range 17).foldl State.moveTasks s

/-! ### The pitch map (R163 to R173) -/

/-- A kind of region of a pitch address (R165). -/
inductive Where where
  | dram
  | sram
  | control
  | spoil
  deriving DecidableEq, Repr

/-- What a pitch address names: a byte of memory, or a byte of a queue's control page. -/
inductive Loc where
  | cell (w : Where) (key : Nat)
  | ctrl (queue off : Nat)
  deriving DecidableEq, Repr

def Loc.kind : Loc → Where
  | .cell w _ => w
  | .ctrl .. => .control

/-- The key of a byte of the space of a logical cluster's die. -/
def memKey (s : State) (e : LEntry) (off : Nat) : Nat :=
  if e.module = s.fab.moduleId then localKey e.die off else remoteKey e.module e.die off

/-- The logical cluster's SRAM and slots are in its physical cluster (R161). -/
def loaded (s : State) (e : LEntry) (l : Nat) : Bool :=
  e.module != s.fab.moduleId || (s.cluster ⟨e.die, e.cluster⟩).current = some l

/-- The page table of a logical cluster: that of a move in progress once its new entries are in effect (R167). -/
def Pitch.pagesOf (p : Pitch) (l : Nat) : Option (List (Nat × Nat × Nat)) :=
  match p.move with
  | none => p.pages
  | some m => if m.moved.contains l then m.pages else p.pages

/-- The partition page behind a window page (R173). -/
def backing (p : Pitch) (l page : Nat) : Option Nat :=
  match p.pagesOf l with
  | none => some page
  | some t => (t.find? fun x => x.1 = l && x.2.1 = page).map (·.2.2)

/-- Bases of the regions of R165. -/
def sramBase : Nat := 0x400000000000
def controlBase : Nat := 0x410000000000
def spoilBase : Nat := 0x800000000000

/-- Mapped SRAM bytes of a logical cluster (R165, R166). -/
def sramMapped (p : Pitch) : Nat := Config.sramBytes - p.stagingMib * 2 ^ 20

/-- The SRAM key of a logical cluster's byte. -/
def sramKey (s : State) (p : Pitch) (l : Nat) (e : LEntry) (o : Nat) : Nat :=
  if loaded s e l then memKey s e (sramOff e.cluster o) else imageKey p.tag l o

/-- The 2 MiB pages of a cluster's partition that a pitch sees (R164, R173). -/
def partitionPages : Nat := Config.windowBytes / Config.pageBytes

/-- Where byte `o` of a spoil region is kept: in host memory, or in the pitch-visible pages of the lending dies, in ascending
die, cluster and partition order (R178, R311). -/
def Region.store (s : State) (r : Region) (o : Nat) : Option Nat :=
  if r.lent then
    let pg := o / Config.pageBytes
    ((maskBits r.lendDies 24)[pg / (16 * partitionPages)]?).map fun d =>
      memKey s ⟨r.source, d, 0⟩
        (dramOff (pg / partitionPages % 16) (pg % partitionPages * Config.pageBytes + o % Config.pageBytes))
  else some (hostKey r.source (r.hostAddr + o))

/-- The home die of a byte of a region homed here: page k has the die at position k mod m of the pitch's m dies (R165, R179). -/
def Region.homeDie (p : Pitch) (r : Region) (o : Nat) : Option Nat :=
  let dies := maskBits p.localDies 24
  dies[o / (if r.lent then Config.pageBytes else 2 ^ 30) % dies.length]?

/-- The home die of a byte holds the region's keys: they stand, and its engine is powered (R180, R335). -/
def Region.keyed (s : State) (p : Pitch) (r : Region) (o : Nat) : Bool :=
  p.spoilKey.isSome && (r.homeDie p o).elim false fun d => (s.die d).railsUp

/-- The key of the spoil byte at offset `o` of a region, pitch address `a`: where the region keeps it if this module is its
home and its home die holds the keys, else as its home die gives it (R179). -/
def Region.spoilAt (s : State) (p : Pitch) (r : Region) (o a : Nat) : Option Nat :=
  if o < r.length then
    (r.store s o).bind fun k =>
      if r.home != s.fab.moduleId then some (spoilKey p.tag a) else if r.keyed s p o then some k else none
  else none

/-- Translation of a pitch address (R165, R166, R170); `none` is unmapped. -/
def translate (s : State) (p : Pitch) (a : Nat) : Option Loc :=
  if a < sramBase then
    let l := a / 2 ^ 32
    let o := a % 2 ^ 32
    (p.lmap[l]?).bind fun e =>
      if o < Config.windowBytes then
        (backing p l (o / Config.pageBytes)).map fun pg =>
          .cell .dram (memKey s e (dramOff e.cluster (pg * Config.pageBytes + o % Config.pageBytes)))
      else none
  else if a < controlBase then
    let l := (a - sramBase) / 2 ^ 24
    let o := (a - sramBase) % 2 ^ 24
    (p.lmap[l]?).bind fun e => if o < sramMapped p then some (.cell .sram (sramKey s p l e o)) else none
  else if a < spoilBase then
    let q := (a - controlBase) / 4096
    let o := (a - controlBase) % 4096
    if q < Config.maxQueues && (p.queue? q).isSome && o < 64 then some (.ctrl q o) else none
  else if a < 2 ^ 48 then
    let i := (a - spoilBase) / 2 ^ 42
    let o := (a - spoilBase) % 2 ^ 42
    (p.regions[i]?).bind fun r => (r.spoilAt s p o a).map (.cell .spoil)
  else none

/-- The region kind of an address, if mapped. -/
def kindAt (s : State) (p : Pitch) (a : Nat) : Option Where := (translate s p a).map Loc.kind

/-- Every byte of [a, a + n) is mapped and in a region kind that `ok` admits. -/
def allKind (s : State) (p : Pitch) (a n : Nat) (ok : Where → Bool) : Bool :=
  (List.range n).all fun i => (kindAt s p (a + i)).elim false ok

/-- The 64 bytes of a queue control page (R141). -/
def controlPage (q : Queue) : Bytes :=
  let flags := 1 + (if q.refused then 2 else 0) + (if q.dieLimit then 4 else 0) + (if q.frozen then 8 else 0) +
    (if q.atWait.isSome then 16 else 0) + (if q.ackClamped then 32 else 0) + q.refusals * 2 ^ 16
  le 8 0 ++ le 8 0 ++ le 8 flags ++ le 8 q.head ++ le 8 q.tail ++ le 8 q.ack ++ le 8 q.cursor ++ le 8 0

/-! ### Doorbells and acknowledgements (R142, R143) -/

/-- A DOORBELL write (R142); a queue whose close is accepted takes none (R162). -/
def Queue.doorbell (q : Queue) (t : Nat) : Queue :=
  if q.closing.isSome || t ≤ q.tail then q
  else if t > q.ack + q.ringSize then { q with refused := true, refusals := satInc q.refusals 0xFFFF }
  else { q with tail := t, refused := false }

/-- The lowest sequence number at or above `n` that is not in the list, looking at most `fuel` further. -/
def firstMissing (l : List Nat) : Nat → Nat → Nat
  | 0, n => n
  | fuel + 1, n => if n ∈ l then firstMissing l fuel (n + 1) else n

/-- s0 of R143: the lowest sequence number whose completion record is not yet written. -/
def Queue.unrecorded (q : Queue) : Nat := firstMissing q.recorded q.recorded.length q.ack

/-- An ACK_WR write (R143). -/
def Queue.ackWrite (q : Queue) (a : Nat) : Queue :=
  let s0 := q.unrecorded
  let ack := max q.ack (min a s0)
  { q with ack := ack, ackClamped := decide (a > s0), recorded := q.recorded.filter fun n => ack ≤ n }

/-- The event of a control-page write that has no effect (R141). -/
def State.logPageWrite (s : State) (tag queue off : Nat) : State :=
  s.logNote 6 "CONTROL_PAGE_WRITE" none noDie tag (queue * 4096 + off)

/-- A write to a queue's control page: one whole WO field, or an event and no effect (R141). -/
def State.writePage (s : State) (tag queue off : Nat) (data : Bytes) : State :=
  if data.length = 8 && off = 0 then s.updQueue tag queue fun q => q.doorbell (number data)
  else if data.length = 8 && off = 8 then s.updQueue tag queue fun q => q.ackWrite (number data)
  else s.logPageWrite tag queue off

/-! ### Reads and writes at pitch addresses -/

/-- The pair of AES-256 keys of the spoil regions homed here, the data key first (R180, R181). -/
def Pitch.spoilPair (p : Pitch) : Bytes := p.spoilKey.elim [] fun k => Config.entropy 64 k

/-- The tweak of the sector at a pitch address (R181). -/
def spoilTweak (tag a : Nat) : Nat := a / 64 % 2 ^ 42 + tag * 2 ^ 42

/-- A spoil byte that this module's engines keep encrypted (R179, R181). -/
def isSealed (w : Where) (k : Nat) : Bool := w = .spoil && !isSpoilKey k

/-- The 64 decrypted bytes of the encrypted sector that holds pitch address `a` at key `k` (R181). -/
def State.spoilSector (s : State) (p : Pitch) (a k : Nat) : Bytes :=
  xtsDecrypt p.spoilPair (spoilTweak p.tag a) ((List.range 64).map fun i => memGet s.mem (k - a % 64 + i))

/-- The byte that the location of a pitch address holds. -/
def State.locByte (s : State) (p : Pitch) (a : Nat) : Loc → Byte
  | .cell w k => if isSealed w k then (s.spoilSector p a k).getD (a % 64) 0 else memGet s.mem k
  | .ctrl q o => ((p.queue? q).elim [] controlPage).getD o 0

/-- A location lies in an uncorrectable sector or word (R177). -/
def State.locBad (s : State) : Loc → Bool
  | .cell _ k => s.bad.contains (unitOf k).1
  | .ctrl .. => false

/-- One byte read at a pitch address: unmapped is OUT_OF_RANGE (R170), an uncorrectable unit is UNCORRECTABLE (R177). -/
def readByte (s : State) (p : Pitch) (a : Nat) : Except Nat Byte :=
  match translate s p a with
  | none => .error stOutOfRange
  | some l => if s.locBad l then .error stUncorrectable else .ok (s.locByte p a l)

/-- Byte `i` of a pitch's memory as it becomes undefined: what the pitch's own memory holds at an open address, or the zero
that a scrub leaves (R3). -/
def State.ownByte (s : State) (tag i : Nat) : Byte :=
  let a := Config.undefinedSource s.free i
  (s.pitch? tag).elim 0 fun p => (translate s p a).elim 0 (s.locByte p a)

/-- `n` bytes read at a pitch address. -/
def readBytes (s : State) (p : Pitch) (a n : Nat) : Except Nat Bytes := mapE (fun i => readByte s p (a + i)) (List.range n)

/-- The stored bytes whatever their error state; an unmapped byte counts as zero. Only for the bits of a partly written
byte that a write leaves as they are. -/
def rawBytes (s : State) (p : Pitch) (a n : Nat) : Bytes :=
  (List.range n).map fun i => (translate s p (a + i)).elim 0 (s.locByte p (a + i))

/-- VDD_CORE and the cluster clock lie in the window of R420. -/
def Die.inWindow (d : Die) : Bool :=
  d.railsUp && !d.divided && 730 ≤ d.vddCoreMv && d.vddCoreMv ≤ 780 && 8 ≤ d.step && d.step ≤ 9

/-- The event of memories zeroed without a march, whose DATA the spec does not lay out (R421, R429). -/
def State.logUnmarched (s : State) (die tag what : Nat) : State :=
  s.logEvent 0x0703 1 die tag (Config.eventData "UNMARCHED_ZEROED" what).toNat

/-- The first write to an UNMARCHED page of a die: the page is marched and zeroed, or outside the window only zeroed, with an
event, and its march stays due (R326). -/
def State.firstWrite (s : State) (die page : Nat) : State :=
  let d := s.die die
  if d.marched.contains page || d.zeroed.contains page then s
  else if d.inWindow then s.updDie die fun d => { d with marched := insertNat d.marched page }
  else
    (s.updDie die fun d => { d with zeroed := insertNat d.zeroed page }).logUnmarched die
      ((s.pitches.find? fun p => p.localDies.testBit die).elim noTag (·.tag)) page

/-- The number of the page of an offset in a die's DRAM among the die's 17,920 pitch-visible pages (R164, R443); a page of the
reserved area has none. -/
def pageNumber (off : Nat) : Option Nat :=
  if off % Config.partitionBytes < Config.windowBytes then
    some (off / Config.partitionBytes * Config.partitionPages + off % Config.partitionBytes / Config.pageBytes)
  else none

/-- A written byte's page has had its first write (R326). -/
def State.markWritten (s : State) (k : Nat) : State :=
  if isLocalDram k then (pageNumber (k % 2 ^ 43)).elim s fun g => s.firstWrite (k / 2 ^ 43) g else s

/-- The units among `bad` that a write of these keys covers wholly, or `none` if it covers one in part (R177). -/
def coveredUnits (bad : List Nat) (ks : List Nat) : Option (List Nat) :=
  bad.foldl (fun acc u =>
    let n := (ks.filter fun k => (unitOf k).1 = u).length
    acc.bind fun l => if n = 0 then some l else if n = (unitOf u).2 then some (u :: l) else none) (some [])

/-- A write that names the bytes at `ks` and stores the cells `cs`: UNCORRECTABLE where its merge must read a bad unit, else
the cells are written, wholly covered units are good again, and their pages are marched (R73, R177, R326). -/
def State.writeUnits (s : State) (ks : List Nat) (cs : List Host.Cell) : Except Nat State :=
  match coveredUnits s.bad ks with
  | none => .error stUncorrectable
  | some good =>
    let s := (s.setMem (memWrite s.mem cs)).setBad (s.bad.filter fun u => !good.contains u)
    .ok (cs.foldl (fun s c => s.markWritten c.1) s)

/-- A write of cells by key. -/
def State.writeCells (s : State) (cs : List Host.Cell) : Except Nat State := s.writeUnits (cs.map (·.1)) cs

/-- The cells that a write of encrypted spoil bytes stores, each a pitch address, its key and the byte: every sector is read,
decrypted, merged, encrypted and written whole (R181). -/
def State.sealBytes (s : State) (p : Pitch) (ws : List (Nat × Nat × Byte)) : List Host.Cell :=
  ((ws.map fun w => w.1 / 64).eraseDups).flatMap fun n =>
    match ws.filter fun w => w.1 / 64 = n with
    | [] => []
    | (a, k, v) :: rest =>
      let plain := ((a, k, v) :: rest).foldl (fun b w => b.set (w.1 % 64) w.2.2) (s.spoilSector p a k)
      (xtsEncrypt p.spoilPair (spoilTweak p.tag a) plain).zipIdx.map fun x => (k - a % 64 + x.2, x.1)

/-- What a write of bytes at pitch addresses stores, each with its region kind and key. -/
def State.cellsOf (s : State) (p : Pitch) (ws : List (Nat × Where × Nat × Byte)) : List Host.Cell :=
  (ws.filterMap fun w => if isSealed w.2.1 w.2.2.1 then none else some (w.2.2.1, w.2.2.2)) ++
  s.sealBytes p (ws.filterMap fun w => if isSealed w.2.1 w.2.2.1 then some (w.1, w.2.2) else none)

/-- The bytes that a masked write covers, with their addresses. -/
def maskedBytes (a : Nat) (bs : List (Option Byte)) : List (Nat × Byte) :=
  (bs.zipIdx).filterMap fun x => x.1.map fun b => (a + x.2, b)

/-- The DRAM pages of these addresses become TOUCHED (R172). -/
def Pitch.touch (p : Pitch) (as : List Nat) : Pitch :=
  { p with touched := as.foldl (fun t a => if a < sramBase then insertNat t (a / Config.pageBytes) else t) p.touched }

/-- A write at a pitch address; `none` bytes are left as they are. Unmapped bytes make it OUT_OF_RANGE; DRAM pages
become TOUCHED (R172); a control page takes it under R141. -/
def pitchWrite (s : State) (tag a : Nat) (bs : List (Option Byte)) : Except Nat State :=
  match s.pitch? tag with
  | none => .error stOutOfRange
  | some p =>
    let ws := maskedBytes a bs
    match mapE (fun w => ((translate s p w.1).elim (.error stOutOfRange) fun l => .ok (w.1, l, w.2) :
        Except Nat (Nat × Loc × Byte))) ws with
    | .error e => .error e
    | .ok [] => .ok s
    | .ok ((_, .ctrl q o, b) :: rest) => .ok (s.writePage tag q o (b :: rest.map (·.2.2)))
    | .ok ls =>
      let cs := ls.filterMap fun x => match x.2.1 with
        | .cell w k => some (x.1, w, k, x.2.2)
        | .ctrl .. => none
      match s.writeUnits (cs.map (·.2.2.1)) (s.cellsOf p cs) with
      | .error e => .error e
      | .ok s =>
        .ok (s.updPitch tag fun p => p.touch (ws.map (·.1)))

/-- A write of whole bytes at a pitch address. -/
def pitchWriteAll (s : State) (tag a : Nat) (b : Bytes) : Except Nat State := pitchWrite s tag a (b.map some)

/-- A write whose failure has no effect beyond itself: on an error the state is unchanged. -/
def State.tryWrite (s : State) (tag a : Nat) (b : Bytes) : State := (pitchWriteAll s tag a b).toOption.getD s

/-! ### Dies and pitches -/

/-- The entry of a logical die's cluster 0: logical die d holds logical clusters 16d to 16d + 15 (R161). -/
def Pitch.ldie (p : Pitch) (d : Nat) : Option LEntry := p.lmap[16 * d]?

/-- Logical dies and logical clusters of a pitch (R161, R308). -/
def Pitch.dieCount (p : Pitch) : Nat := (p.members.map fun m => (maskBits m.2 24).length).foldl (· + ·) 0
def Pitch.lclusters (p : Pitch) : Nat := p.lmap.length

/-- The physical cluster of this module that runs a logical cluster. -/
def Pitch.place? (s : State) (p : Pitch) (l : Nat) : Option Place :=
  (p.lmap[l]?).bind fun e => if e.module = s.fab.moduleId then some ⟨e.die, e.cluster⟩ else none

/-- The dies of this module that a pitch holds. -/
def Pitch.dies (p : Pitch) : List Nat := maskBits p.localDies 24

/-- The pitch that holds a die. -/
def State.dieTag? (s : State) (d : Nat) : Option Nat := (s.pitches.find? fun p => p.localDies.testBit d).map (·.tag)

/-- The lending set that holds a die (R314). -/
def State.dieLend? (s : State) (d : Nat) : Option Lend := s.lends.find? fun l => l.dies.testBit d

/-- The die's cluster PLLs stop once no cluster is WORKING or DOZING and no self-test needs them (R397). -/
def Die.stopPlls (d : Die) : Die :=
  if d.test.isNone && d.march.isNone && d.clusters.all (fun c => c.st = .resting || c.st = .off) then { d with cpllOn := false } else d

/-- Patrol scrub or a march has worked on the die's stack: the DRAM PLL runs, and outside every pitch and lending set it stops
10 ms after this (R397). -/
def State.dramNeed (s : State) (die : Nat) : State :=
  let held := (s.dieTag? die).isSome || (s.dieLend? die).isSome
  s.updDie die fun d => { d with dpllOn := true, dpllIdle := if held then none else some s.now }

/-- A cluster's SRAM and a die's DRAM pages brought to zero. -/
def State.clearSram (s : State) (die cluster : Nat) : State :=
  let lo := localKey die (sramOff cluster 0)
  (s.setMem (memClear s.mem lo Config.sramBytes)).setBad
    (s.bad.filter fun u => u < lo || lo + Config.sramBytes ≤ u)

def State.clearDram (s : State) (die off n : Nat) : State :=
  let lo := localKey die off
  (s.setMem (memClear s.mem lo n)).setBad (s.bad.filter fun u => u < lo || lo + n ≤ u)

/-- Every DRAM page of a die UNMARCHED: it reads as zeros until its march (R326). -/
def State.unmarch (s : State) (die : Nat) : State :=
  (s.clearDram die 0 (16 * Config.partitionBytes)).updDie die fun d => { d with marched := [], zeroed := [] }

end Sys2Proof.Machine
end

