-- ==== Sys2Proof/Machine/Tombola.lean ====
section
/-! DEFINITION. Tombola (R125 to R129): the block function, key derivation, counters and draws. -/

namespace Sys2Proof.Machine

open Sys2Proof

/-- Four 32-bit words, word 0 first (R125). -/
structure Quad where
  w0 : W32
  w1 : W32
  w2 : W32
  w3 : W32
  deriving DecidableEq, Repr

/-- Word `i mod 4`. -/
def Quad.get (q : Quad) (i : Nat) : W32 :=
  match i % 4 with
  | 0 => q.w0 | 1 => q.w1 | 2 => q.w2 | _ => q.w3

/-- A 128-bit number as words, bits [31:0] in word 0. -/
def quadOf (n : BitVec 128) : Quad :=
  ⟨n.extractLsb' 0 32, n.extractLsb' 32 32, n.extractLsb' 64 32, n.extractLsb' 96 32⟩

/-- RC[r] (R126). -/
def roundConst (r : Nat) : W32 := BitVec.ofNat 32 ((r + 1) * 0x9E3779B9)

/-- One round of F (R125, R126). -/
def tombolaRound (k : Quad) (x : Quad) (r : Nat) : Quad :=
  let rotA := if r % 2 = 0 then 16 else 8
  let rotB := if r % 2 = 0 then 7 else 13
  let x0 := x.w0 + x.w1
  let x3 := (x.w3 ^^^ x0).rotateLeft rotA
  let x2 := x.w2 + x3
  let x1 := (x.w1 ^^^ x2).rotateLeft rotB
  ⟨x0 + (k.get r + roundConst r), x1, x2, x3⟩

/-- The block function F (R125). -/
def tombola (k c : Quad) : Quad :=
  let x : Quad := ⟨c.w0 ^^^ k.w0, c.w1 ^^^ k.w1, c.w2 ^^^ k.w2, c.w3 ^^^ k.w3⟩
  let x := (List.range 10).foldl (tombolaRound k) x
  ⟨x.w0 + k.w0, x.w1 + k.w1, x.w2 + k.w2, x.w3 + k.w3⟩

/-- Purposes (R128). -/
inductive Purpose where
  | round
  | dropout
  | sample
  | init
  deriving DecidableEq, Repr

/-- Purpose codes (R128). -/
def Purpose.code : Purpose → W32
  | .round => 1 | .dropout => 2 | .sample => 3 | .init => 4

/-- The key of a purpose from a seed (R127). -/
def tombolaKey (seed : BitVec 128) (p : Purpose) : Quad := tombola (quadOf seed) ⟨p.code, 0, 0, 0⟩

/-- The block for an index: the counter is STREAM × 2^64 + (li + OFFSET) (R129). -/
def tombolaBlock (seed : BitVec 128) (p : Purpose) (stream idx : Nat) : Quad :=
  tombola (tombolaKey seed p) (quadOf (BitVec.ofNat 128 (stream % 2 ^ 64 * 2 ^ 64 + idx % 2 ^ 64)))

/-- What an item's draws are addressed by, beside the element's index (R129). -/
structure DrawAddr where
  seed : BitVec 128 := 0
  stream : Nat := 0
  offset : Nat := 0
  deriving DecidableEq, Repr

/-- The 24-bit draw of stochastic rounding for an element (R40, R128, R129). -/
def roundDraw (d : DrawAddr) (li : Nat) : Nat :=
  (tombolaBlock d.seed .round d.stream (li + d.offset)).w0.toNat % 2 ^ 24

/-- The 64-bit sampling draw of a row (R122, R128). -/
def sampleDraw (seed : BitVec 128) (stream position : Nat) : Nat :=
  let y := tombolaBlock seed .sample stream position
  y.w1.toNat * 2 ^ 32 + y.w0.toNat

end Sys2Proof.Machine
end

