-- ==== Sys2Proof/Machine/Operands.lean ====
section
/-! DEFINITION. Operand forms: tensor descriptors and frame records (R54 to R61, R149), the address and the logical index
of an element (R59, R61), pads (R63, R64), spans (R70, R71), and reads and writes of elements and strips (R62, R73). -/

namespace Sys2Proof.Machine

open Sys2Proof

/-! ### Formats of descriptors (R55) -/

def fcBf16 : Nat := 6
def fcFp32 : Nat := 7
def fcA64 : Nat := 8
def fcA32 : Nat := 9
def fcAcc : Nat := 10

/-- Strip bytes, BASE alignment, and the width of an element in bits (R54, R55). -/
def stripBytes (f : Nat) : Nat := [32, 16, 24, 32, 32, 64, 64, 128, 264, 136, 1032].getD f 0
def baseAlign (f : Nat) : Nat := [32, 16, 8, 32, 32, 64, 64, 64, 8, 8, 8].getD f 1
def elemWidth (f : Nat) : Nat := [8, 4, 6, 8, 8, 16, 16, 32, 64, 32, 256].getD f 0

/-- A scalable format (R55). -/
def scalable (f : Nat) : Bool := f < 6

/-- A record format. -/
def isRecord (f : Nat) : Bool := 8 ≤ f

/-! ### Tensor descriptors (R57) -/

/-- An outer dimension: its stride in strips, its extent, and its pads. -/
structure Dim where
  stride : Int
  extent : Nat
  padLo : Nat
  padHi : Nat
  deriving DecidableEq, Repr

/-- A tensor descriptor (R57); `reservedOk` says that its reserved fields are zero. -/
structure TDesc where
  base : Nat
  fmt : Nat
  ndim : Nat
  stripDim : Nat
  chanTail : Nat
  scaled : Bool
  scaleBase : Nat
  padValue : Nat
  laneRev : Bool
  dims : List Dim
  reservedOk : Bool
  deriving DecidableEq, Repr

/-- The descriptor that 64 bytes hold (R57). -/
def parseDesc (b : Bytes) : TDesc :=
  let w0 := u64 b 0
  let w1 := u64 b 8
  let pad := field b 58 6
  let ndim := bits w0 52 3
  let dim := fun d =>
    let w := field b (16 + 6 * d) 6
    (⟨signed w 30, bits w 30 18, bits pad (6 * d) 3, bits pad (6 * d + 3) 3⟩ : Dim)
  { base := bits w0 0 48, fmt := bits w0 48 4, ndim := ndim, stripDim := bits w0 55 3, chanTail := bits w0 58 5
    scaled := bit w0 63, scaleBase := bits w1 0 48, padValue := bits w1 48 3, laneRev := bit w1 51
    dims := (List.range ndim).map dim
    reservedOk := bits w1 52 12 = 0 && bits pad (6 * ndim) 48 = 0 && zeroRange b (16 + 6 * ndim) (42 - 6 * ndim) }

/-- Dimension d, counted from 1. -/
def TDesc.dim (t : TDesc) (d : Nat) : Dim := t.dims.getD (d - 1) ⟨0, 1, 0, 0⟩

/-- Lanes of the last channel strip that belong to the tensor (R58). -/
def TDesc.tail (t : TDesc) : Nat := if t.chanTail = 0 then 32 else t.chanTail

/-- The channel length C (R58). -/
def TDesc.chan (t : TDesc) : Nat := 32 * ((t.dim t.stripDim).extent - 1) + t.tail

/-- View length of an outer dimension in indices (R58). -/
def Dim.view (d : Dim) : Nat := d.extent + d.padLo + d.padHi

/-- View length as R83 counts it: on the strip dimension the channel length plus the pad lanes. -/
def TDesc.len (t : TDesc) (d : Nat) : Nat :=
  if d = t.stripDim then t.chan + 32 * ((t.dim d).padLo + (t.dim d).padHi) else (t.dim d).view

/-- Positions along a dimension: lanes of the view strips on the strip dimension, view indices elsewhere (R112). -/
def TDesc.positions (t : TDesc) (d : Nat) : Nat := if d = t.stripDim then 32 * (t.dim d).view else (t.dim d).view

/-- The element format, where FORMAT names one. -/
def TDesc.elem? (t : TDesc) : Option Fmt := fmtOf t.fmt

/-- The number of elements of the valid box. -/
def TDesc.boxCount (t : TDesc) : Nat :=
  (List.range t.ndim).foldl (fun n i => n * if i + 1 = t.stripDim then t.chan else (t.dim (i + 1)).extent) 1

/-! ### Frames (R61, R149) -/

/-- A frame record: extents and origins of dimensions 1 to 7. -/
structure Frame64 where
  fx : List Nat
  origin : List Nat
  reservedOk : Bool
  deriving DecidableEq, Repr

/-- The frame record that 64 bytes hold, for a descriptor of `ndim` dimensions. -/
def parseFrame (ndim : Nat) (b : Bytes) : Frame64 :=
  { fx := (List.range ndim).map fun d => u32 b (8 * d)
    origin := (List.range ndim).map fun d => u32 b (8 * d + 4)
    reservedOk := zeroRange b (8 * ndim) (64 - 8 * ndim) }

/-- The extents of the index space: the frame's, or the valid box's with C on the strip dimension (R61). -/
def TDesc.frameExtents (t : TDesc) (f : Option Frame64) : List Nat :=
  match f with
  | some fr => fr.fx
  | none => (List.range t.ndim).map fun i => if i + 1 = t.stripDim then t.chan else (t.dim (i + 1)).extent

/-- The element count that an item draws over: the frame's, or the valid box's (R130, R131). -/
def TDesc.drawCount (t : TDesc) (f : Option Frame64) : Nat := (t.frameExtents f).foldl (· * ·) 1

/-- The frame covers the valid box (R149). -/
def TDesc.frameFits (t : TDesc) (f : Frame64) : Bool :=
  (List.range t.ndim).all fun i =>
    f.origin.getD i 0 + (if i + 1 = t.stripDim then t.chan else (t.dim (i + 1)).extent) ≤ f.fx.getD i 0

/-! ### Positions, view indices, addresses (R59) -/

/-- The view index of a position, one entry per dimension, and the logical lane. -/
def TDesc.viewIndex (t : TDesc) (x : List Nat) : List Int :=
  (List.range t.ndim).map fun i =>
    let d := t.dim (i + 1)
    ((if i + 1 = t.stripDim then x.getD i 0 / 32 else x.getD i 0 : Nat) : Int) - d.padLo

def TDesc.lane (t : TDesc) (x : List Nat) : Nat := x.getD (t.stripDim - 1) 0 % 32

/-- Some index lies at a pad position (R59). -/
def TDesc.atPad (t : TDesc) (v : List Int) : Bool :=
  (List.range t.ndim).any fun i => v.getD i 0 < 0 || ((t.dim (i + 1)).extent : Int) ≤ v.getD i 0

/-- The lane lies on the tail of the last channel strip (R59). -/
def TDesc.onTail (t : TDesc) (v : List Int) (l : Nat) : Bool :=
  t.chanTail != 0 && v.getD (t.stripDim - 1) 0 = (t.dim t.stripDim).extent - 1 && t.chanTail ≤ l

/-- The strip offset k (R59). -/
def TDesc.stripOff (t : TDesc) (v : List Int) : Int :=
  (List.range t.ndim).foldl (fun k i => k + v.getD i 0 * (t.dim (i + 1)).stride) 0

/-- The stored lane of a logical lane (R59, R67). -/
def TDesc.stored (t : TDesc) (l : Nat) : Nat := if t.laneRev then 31 - l else l

/-- The address of byte `i` of the strip at an offset. The span check of R72 keeps the bytes of valid lanes in range; the
bytes of tail lanes may lie below address 0. -/
def TDesc.byteAddr (t : TDesc) (k : Int) (i : Nat) : Nat := ((t.base : Int) + k * stripBytes t.fmt + i).toNat

/-- The address of the strip at an offset, and how many of its bytes lie below address 0, all of them in tail lanes. -/
def TDesc.stripAddr (t : TDesc) (k : Int) : Nat := t.byteAddr k 0
def TDesc.below (t : TDesc) (k : Int) : Nat := (-((t.base : Int) + k * stripBytes t.fmt)).toNat

/-- The address of the scale byte at an offset (R60). -/
def TDesc.scaleAddr (t : TDesc) (k : Int) : Nat := ((t.scaleBase : Int) + k).toNat

/-- The logical linear index of an element of the valid box (R61). -/
def TDesc.logical (t : TDesc) (f : Option Frame64) (v : List Int) (l : Nat) : Nat :=
  let ext := t.frameExtents f
  ((List.range t.ndim).foldl (fun (acc : Nat × Nat) i =>
    let x := if i + 1 = t.stripDim then 32 * (v.getD i 0).toNat + l else (v.getD i 0).toNat
    let o := f.elim 0 fun fr => fr.origin.getD i 0
    (acc.1 + (o + x) * acc.2, acc.2 * ext.getD i 1)) (0, 1)).1

/-! ### Spans (R70, R71) -/

/-- Least and greatest strip offset over the dimensions other than the strip dimension. -/
def TDesc.otherRange (t : TDesc) : Int × Int :=
  (List.range t.ndim).foldl (fun r i =>
    if i + 1 = t.stripDim then r
    else
      let d := t.dim (i + 1)
      let x := d.stride * ((d.extent : Int) - 1)
      (r.1 + min 0 x, r.2 + max 0 x)) (0, 0)

/-- Offsets of the first and last byte that the valid lanes take in a strip with `n` valid lanes. Of a record with tail lanes
the whole record counts: which of its bytes belong to the element span the spec does not say (DESIGN CHOICE,
notes/assumptions/60.md). -/
def TDesc.laneBytes (t : TDesc) (n : Nat) : Nat × Nat :=
  if isRecord t.fmt then (0, stripBytes t.fmt - 1)
  else
    let w := elemWidth t.fmt
    if t.laneRev then ((32 - n) * w / 8, stripBytes t.fmt - 1) else (0, (n * w + 7) / 8 - 1)

/-- The element span: lowest and highest byte of the valid box (R70). -/
def TDesc.elemSpan (t : TDesc) : Int × Int :=
  let (o0, o1) := t.otherRange
  let d := t.dim t.stripDim
  let sb : Int := stripBytes t.fmt
  let last := d.stride * ((d.extent : Int) - 1)
  let tl := t.laneBytes t.tail
  let lo := t.base + (o0 + last) * sb + tl.1
  let hi := t.base + (o1 + last) * sb + tl.2
  if d.extent ≤ 1 then (lo, hi)
  else
    let full := t.laneBytes 32
    let prev := d.stride * ((d.extent : Int) - 2)
    (min lo (t.base + (o0 + min 0 prev) * sb + full.1), max hi (t.base + (o1 + max 0 prev) * sb + full.2))

/-- The scale span, where the descriptor carries scales (R70). -/
def TDesc.scaleSpan (t : TDesc) : Option (Int × Int) :=
  if t.scaled then
    let (o0, o1) := t.otherRange
    let d := t.dim t.stripDim
    let last := d.stride * ((d.extent : Int) - 1)
    some (t.scaleBase + o0 + min 0 last, t.scaleBase + o1 + max 0 last)
  else none

/-- Every span of a descriptor. -/
def TDesc.spans (t : TDesc) : List (Int × Int) := t.elemSpan :: t.scaleSpan.toList

/-- Two closed ranges meet. -/
def rangesMeet (a b : Int × Int) : Bool := a.1 ≤ b.2 && b.1 ≤ a.2

/-! ### The injectivity test (R69) -/

/-- S[d] of the dimensions with extent above 1: the stride in elements and the extent. -/
def TDesc.strides (t : TDesc) : List (Nat × Nat) :=
  (t.dims.filter fun d => 1 < d.extent).map fun d => (32 * d.stride.natAbs, d.extent)

/-- The nested-stride test over sorted strides. -/
def nested : Nat → List (Nat × Nat) → Bool
  | _, [] => true
  | span, (s, e) :: l => span ≤ s && nested (span + s * (e - 1)) l

/-- R69: accepted as a write destination. -/
def TDesc.injective (t : TDesc) : Bool := nested 32 (sortBy (fun a b => a.1 ≤ b.1) t.strides)

/-! ### Pads (R63, R64) -/

/-- The code of a pad element, or `none` where PAD_VALUE is not permitted for the format (R64). -/
def padCode? (f pv : Nat) : Option Nat :=
  match pv with
  | 0 => some 0
  | 1 => [0x01, 0x2, 0x0C, 0x38, 0x3C, 0x3C00, 0x3F80, 0x3F800000][f]?
  | 2 => [0x80, 0xF, 0x3F, 0xFE, 0xFB, 0xFBFF, 0xFF7F, 0xFF7FFFFF][f]?
  | 3 => [0x7F, 0x7, 0x1F, 0x7E, 0x7B, 0x7BFF, 0x7F7F, 0x7F7FFFFF][f]?
  | 4 => if 4 ≤ f then [0, 0, 0, 0, 0xFC, 0xFC00, 0xFF80, 0xFF800000][f]? else none
  | _ => none

def TDesc.pad (t : TDesc) : Nat := (padCode? t.fmt t.padValue).getD 0

/-! ### Reading -/

/-- A strip's scale exponent at use: 0 without scales; a byte out of range fails the item (R29, R74). -/
def readScale (s : State) (p : Pitch) (t : TDesc) (k : Int) : Except Nat Int :=
  if t.scaled then
    match readByte s p (t.scaleAddr k) with
    | .error e => .error e
    | .ok b => if scaleOk b.toNat then .ok (scaleExp b.toNat) else .error stBadDescriptor
  else .ok 0

/-- The stored code of lane `l` of the strip at offset k: FORMATs of elements (R59). -/
def readCode (s : State) (p : Pitch) (t : TDesc) (k : Int) (l : Nat) : Except Nat Nat :=
  let w := elemWidth t.fmt
  let bp := t.stored l * w
  let first := bp / 8
  let n := (bp + w + 7) / 8 - first
  match readBytes s p (t.byteAddr k first) n with
  | .error e => .error e
  | .ok b => .ok (bits (number b) (bp % 8) w)

/-- The element at a position: its code and its scale exponent. Pads and tail lanes are synthesised (R63); a position
beyond the view carries the pad value (R75). -/
def readElem (s : State) (p : Pitch) (t : TDesc) (x : List Nat) : Except Nat (Nat × Int) :=
  let v := t.viewIndex x
  if t.atPad v then .ok (t.pad, 0)
  else
    let k := t.stripOff v
    match readScale s p t k with
    | .error e => .error e
    | .ok sc =>
      if t.onTail v (t.lane x) then .ok (t.pad, sc)
      else match readCode s p t k (t.lane x) with
        | .error e => .error e
        | .ok c => .ok (c, sc)

/-- The exact value of the element at a position (R24, R26, R29). -/
def readNum (s : State) (p : Pitch) (t : TDesc) (f : Fmt) (x : List Nat) : Except Nat Num :=
  match readElem s p t x with
  | .error e => .error e
  | .ok (c, sc) => .ok (decode f c sc)

/-- The accumulator of lane `l` of an ACC record (R38). -/
def accOfRecord (b : Bytes) (sl : Nat) : Acc :=
  { val := BitVec.ofNat 256 (number (slice b (32 * sl) 32)), sat := bit (u32 b 1024) sl, inv := bit (u32 b 1028) sl }

/-- The accumulator at a position of an ACC operand; pads are zero (R64). -/
def readAcc (s : State) (p : Pitch) (t : TDesc) (x : List Nat) : Except Nat Acc :=
  let v := t.viewIndex x
  if t.atPad v || t.onTail v (t.lane x) then .ok {}
  else match readBytes s p (t.stripAddr (t.stripOff v)) (stripBytes t.fmt) with
    | .error e => .error e
    | .ok b => .ok (accOfRecord b (t.stored (t.lane x)))

/-! ### Writing -/

/-- The lanes of the strip at view index v that lie in the valid box (R62). -/
def TDesc.lanesIn (t : TDesc) (v : List Int) : List Nat :=
  if t.atPad v then [] else (List.range 32).filter fun l => !t.onTail v l

/-- A strip's stored bits with the given lanes replaced, and the mask of the bits that the write covers. -/
def mergeLanes (t : TDesc) (old : Nat) (cs : List (Nat × Nat)) : Nat × Nat :=
  let w := elemWidth t.fmt
  cs.foldl (fun acc c =>
    let sh := t.stored c.1 * w
    let m := (2 ^ w - 1) * 2 ^ sh
    (acc.1 - (acc.1 &&& m) + c.2 % 2 ^ w * 2 ^ sh, acc.2 ||| m)) (old, 0)

/-- The bytes of a number of which the mask covers at least one bit. -/
def maskedNumber (n v m : Nat) : List (Option Byte) :=
  (List.range n).map fun i => if bits m (8 * i) 8 = 0 then none else some (BitVec.ofNat 8 (bits v (8 * i) 8))

/-- Element codes written to lanes of the strip at view index v, with the strip's scale byte (R60, R62). -/
def writeStrip (s : State) (tag : Nat) (t : TDesc) (v : List Int) (cs : List (Nat × Nat)) (scale : Int) :
    Except Nat State :=
  let ls := t.lanesIn v
  let cs := cs.filter fun c => ls.contains c.1
  if cs = [] then .ok s
  else
    let k := t.stripOff v
    let a := t.stripAddr k
    let n := stripBytes t.fmt
    let z := t.below k
    let old := ((s.pitch? tag).elim 0 fun p => number (List.replicate z 0 ++ rawBytes s p a (n - z)))
    let r := mergeLanes t old cs
    match pitchWrite s tag a ((maskedNumber n r.1 r.2).drop z) with
    | .error e => .error e
    | .ok s =>
      if t.scaled then pitchWriteAll s tag (t.scaleAddr k) [BitVec.ofNat 8 (unsigned scale 8)] else .ok s

/-- A strip record with its elements, its middle bytes and its per-lane bits, restricted to those of the given lanes that
are valid (R38, R45, R58). `elems` and `flags` are by logical lane; `mid` follows the elements. -/
def writeRecord (s : State) (tag : Nat) (t : TDesc) (v : List Int) (lanes elems : List Nat) (mid : Bytes)
    (flags : List (List Bool)) : Except Nat State :=
  let ls := (t.lanesIn v).filter lanes.contains
  if ls = [] then .ok s
  else
    let k := t.stripOff v
    let a := t.stripAddr k
    let w := elemWidth t.fmt / 8
    let n := stripBytes t.fmt
    let z := t.below k
    let old := ((s.pitch? tag).elim [] fun p => List.replicate z 0 ++ rawBytes s p a (n - z))
    let body := (List.range 32).flatMap fun sl =>
      let l := t.stored sl
      if ls.contains l then (le w (elems.getD l 0)).map some else List.replicate w none
    let tails := flags.zipIdx.flatMap fun fl =>
      let was := u32 old (32 * w + mid.length + 4 * fl.2)
      let now := (List.range 32).foldl (fun m sl =>
        let l := t.stored sl
        let b := if ls.contains l then fl.1.getD l false else bit was sl
        if b then m + 2 ^ sl else m) 0
      (le 4 now).map some
    pitchWrite s tag a ((body ++ mid.map some ++ tails).drop z)

/-- An ACC record (R38). -/
def writeAccRecord (s : State) (tag : Nat) (t : TDesc) (v : List Int) (lanes : List Nat) (accs : List Acc) :
    Except Nat State :=
  writeRecord s tag t v lanes (accs.map fun a => a.val.toNat) [] [accs.map (·.sat), accs.map (·.inv)]

/-- An A64 or A32 record (R45). -/
def writeAnchored (s : State) (tag : Nat) (t : TDesc) (v : List Int) (q : List Int) (anchor : Int) (mask : List Bool) :
    Except Nat State :=
  writeRecord s tag t v (List.range 32) (q.map fun x => unsigned x (elemWidth t.fmt)) (le 1 (unsigned anchor 8) ++ le 3 0) [mask]

/-- Every view index of the valid box's strips: dimension 1 fastest. -/
def boxIndices (exts : List Nat) : List (List Int) :=
  exts.foldr (fun e rest => rest.flatMap fun r => (List.range e).map fun (i : Nat) => (i : Int) :: r) [[]]

/-- The strips of the valid box, by view index. -/
def TDesc.boxStrips (t : TDesc) : List (List Int) := boxIndices (t.dims.map (·.extent))

/-- The positions of all view strips and rows, strip positions at lane 0: dimension 1 fastest. -/
def TDesc.viewStrips (t : TDesc) : List (List Int) :=
  (boxIndices (t.dims.map Dim.view)).map fun v =>
    v.zipIdx.map fun x => x.1 - ((t.dim (x.2 + 1)).padLo : Int)

/-- Elements of a tensor's valid box become undefined, at each view index those of the lanes that `pick` gives: free bytes of the
pitch's own memory (R3). -/
def undefineLanes (s : State) (tag : Nat) (t : TDesc) (pick : List Int → List Nat) : State :=
  let own := s.ownByte tag
  let n := stripBytes t.fmt
  let met := t.boxStrips.zipIdx.filter fun x => pick x.1 != []
  (met.foldl (fun (s : State) x =>
    let junk := number ((List.range n).map fun i => own (x.2 * 2048 + i))
    let elem := fun (l : Nat) => bits junk (l * elemWidth t.fmt) (elemWidth t.fmt)
    let tail := le 8 (bits junk (32 * elemWidth t.fmt) 64)
    let scale := signed (own (x.2 * 2048 + n)).toNat 8
    let write := fun (s : State) (ls : List Nat) =>
      if t.fmt = fcAcc then
        writeRecord s tag t x.1 ls ((List.range 32).map elem) []
          [(List.range 32).map (bit (u32 tail 0)), (List.range 32).map (bit (u32 tail 4))]
      else if isRecord t.fmt then
        writeRecord s tag t x.1 ls ((List.range 32).map elem) (slice tail 0 1 ++ le 3 0) [(List.range 32).map (bit (u32 tail 4))]
      else writeStrip s tag t x.1 (ls.map fun l => (l, elem l)) scale
    match write s (pick x.1) with
    | .ok s => s
    | .error _ => (pick x.1).foldl (fun (s : State) l => (write s [l]).toOption.getD s) s) s).draw

/-- The elements of the strips that meet [lo, hi) become undefined (R96, R154). -/
def undefineTensor (s : State) (tag : Nat) (t : TDesc) (lo hi : Nat) : State :=
  undefineLanes s tag t fun v =>
    if t.stripAddr (t.stripOff v) < hi && lo < t.byteAddr (t.stripOff v) (stripBytes t.fmt) then List.range 32 else []

end Sys2Proof.Machine
end

