-- ==== Sys2Proof/Machine/Flags.lean ====
section
/-! DEFINITION. The flags of completion records (R32, R37, R39, R90, R106, R157): what a tile, a strip or an item raises,
and readout of a strip with its scale choice, its draws and its flags (R39 to R43, R65, R89). -/

namespace Sys2Proof.Machine

open Sys2Proof

/-- What one tile, output strip or item raised. -/
structure Raised where
  invalid : Bool := false
  accSat : Bool := false
  rdOvf : Bool := false
  deriving DecidableEq, Repr

def Raised.or (a b : Raised) : Raised := ⟨a.invalid || b.invalid, a.accSat || b.accSat, a.rdOvf || b.rdOvf⟩

/-- A tile's flags joined to an item's outcome, with the counts of R90. -/
def Outcome.addTile (o : Outcome) (r : Raised) : Outcome :=
  { o with
    invalid := o.invalid || r.invalid, accSat := o.accSat || r.accSat, rdOvf := o.rdOvf || r.rdOvf
    nInvalid := o.nInvalid + r.invalid.toNat, nAccSat := o.nAccSat + r.accSat.toNat
    nRdOvf := o.nRdOvf + r.rdOvf.toNat }

/-- Flags of an item whose engine counts no tiles (VEC, RAND, MOVE): only the OR is carried (log entry 20). -/
def Outcome.addFlags (o : Outcome) (r : Raised) : Outcome :=
  { o with invalid := o.invalid || r.invalid, accSat := o.accSat || r.accSat, rdOvf := o.rdOvf || r.rdOvf }

/-- CFLAGS (R154). -/
def cflags (o : Outcome) (loose : Bool) : Nat :=
  o.invalid.toNat + 2 * o.accSat.toNat + 4 * o.rdOvf.toNat + 8 * o.ancSat.toNat + 16 * loose.toNat

/-- How an output is converted: rounding mode, SATURATE, AUTO or the EXPLICIT scale, and the address of its draws. -/
structure OutMode where
  mode : Mode
  sat : Bool
  auto : Bool
  eOut : Int
  draw : DrawAddr
  deriving DecidableEq, Repr

/-- The output scale of a strip: 0 for an unscaled destination, else EXPLICIT or AUTO over the lanes in the valid box (R43,
R65). -/
def OutMode.scale (m : OutMode) (t : TDesc) (f : Fmt) (xs : List Num) : Int :=
  if t.scaled then (if m.auto then autoScale f xs else m.eOut) else 0

/-- The 24-bit draw of an element of D, looked at only under SR (R40). -/
def OutMode.drawOf (m : OutMode) (li : Nat) : Nat := if m.mode = .sr then roundDraw m.draw li else 0

/-- A strip ready to be written: codes by logical lane, the scale, and what it raised. -/
structure StripOut where
  codes : List (Nat × Nat)
  scale : Int
  raised : Raised
  deriving DecidableEq, Repr

/-- Exact values converted to one strip of D (R39 to R43, R109, R460); `xs` is by logical lane. Elements outside the valid
box are never converted (R65). -/
def convertStrip (t : TDesc) (fr : Option Frame64) (f : Fmt) (m : OutMode) (v : List Int) (xs : List Num) : StripOut :=
  let ls := t.lanesIn v
  let e := m.scale t f (ls.map fun l => xs.getD l (.fin false 0 0))
  ls.foldl (fun o l =>
    let c := convert f m.mode m.sat (m.drawOf (t.logical fr v l)) e (xs.getD l (.fin false 0 0))
    { o with codes := o.codes ++ [(l, c.code)], raised := o.raised.or ⟨c.invalid, false, c.rdOvf⟩ }) ⟨[], e, {}⟩

/-- Accumulators of the given lanes read out to one strip of D (R39, R89, R90). -/
def readoutStrip (t : TDesc) (fr : Option Frame64) (f : Fmt) (m : OutMode) (v : List Int) (lanes : List Nat)
    (as : List Acc) : StripOut :=
  let ls := (t.lanesIn v).filter lanes.contains
  let e := m.scale t f (ls.map fun l => (as.getD l {}).autoNum)
  ls.foldl (fun o l =>
    let c := readout f m.mode m.sat (m.drawOf (t.logical fr v l)) e (as.getD l {})
    { o with codes := o.codes ++ [(l, c.1.code)], raised := o.raised.or ⟨c.1.invalid, c.2, c.1.rdOvf⟩ }) ⟨[], e, {}⟩

/-- The strip written to D. -/
def writeOut (s : State) (tag : Nat) (t : TDesc) (v : List Int) (o : StripOut) : Except Nat State :=
  writeStrip s tag t v o.codes o.scale

end Sys2Proof.Machine
end

