-- ==== Sys2Proof/Machine/Validate.lean ====
section
/-! DEFINITION. Work descriptors and their validation: the fields of R146, the control words of R82, R101, R110, R134,
R156 and R157, the checks of R148, and the steps of R72 in their order, with the status, the slot and the step that a
failure reports (R154). -/

namespace Sys2Proof.Machine

open Sys2Proof

/-! ### The work descriptor (R146) -/

/-- Work item types. -/
def tyMma : Nat := 1
def tyMvp : Nat := 2
def tyVec : Nat := 3
def tyMove : Nat := 4
def tyColl : Nat := 5
def tyRand : Nat := 6
def tySignal : Nat := 7
def tyWait : Nat := 8

/-- The fields of a work descriptor. -/
structure WDesc where
  seq : Nat
  typ : Nat
  flags : Nat
  prio : Nat
  stage : Nat
  lcluster : Nat
  waitId : Nat
  sigId : Nat
  waitValue : Nat
  sigValue : Nat
  control : Nat
  param : Nat
  seed : BitVec 128
  stream : Nat
  offset : Nat
  slots : List Nat
  reservedOk : Bool
  deriving DecidableEq, Repr

/-- The work descriptor that 128 bytes hold (R146). -/
def parseWork (b : Bytes) : WDesc :=
  { seq := u64 b 0, typ := u8 b 8, flags := u8 b 9, prio := u8 b 10, stage := u8 b 11, lcluster := u16 b 12
    waitId := u16 b 16, sigId := u16 b 18, waitValue := u64 b 24, sigValue := u64 b 32, control := u64 b 40
    param := u64 b 48, seed := BitVec.ofNat 128 (field b 56 16), stream := u64 b 72, offset := u64 b 80
    slots := (List.range 4).map fun i => u64 b (96 + 8 * i)
    reservedOk := zeroRange b 14 2 && zeroRange b 20 4 && zeroRange b 88 8 }

def WDesc.cursor (w : WDesc) : Bool := bit w.flags 0
def WDesc.looseMark (w : WDesc) : Bool := bit w.flags 1
def WDesc.backward (w : WDesc) : Bool := bit w.flags 2
def WDesc.notify (w : WDesc) : Bool := bit w.flags 3
/-- Staging units of 64 KiB (R146). -/
def WDesc.units (w : WDesc) : Nat := if w.stage = 0 then 2 else w.stage
/-- A field of the control word. -/
def WDesc.c (w : WDesc) (lo n : Nat) : Nat := bits w.control lo n
def WDesc.present (w : WDesc) (i : Nat) : Bool := bit (w.slots.getD i 0) 48
def WDesc.framed (w : WDesc) (i : Nat) : Bool := bit (w.slots.getD i 0) 49
def WDesc.addr (w : WDesc) (i : Nat) : Nat := bits (w.slots.getD i 0) 0 48

/-- The array shapes (R81): Mt and Nt. -/
def shapeMt (c : Nat) : Nat := [64, 32, 16, 8, 4].getD c 1
def shapeNt (c : Nat) : Nat := [16, 32, 64, 128, 256].getD c 1

/-- Vector operations by operand count (R111). -/
def vopUnary : List Nat := [0x06, 0x07, 0x0B, 0x11, 0x12, 0x13, 0x14, 0x15, 0x16, 0x17]
def vopBinary : List Nat := [0x00, 0x01, 0x02, 0x04, 0x05, 0x08, 0x09, 0x10]
def vopTernary : List Nat := [0x03, 0x0A]
def vopReduce : List Nat := [0x20, 0x21, 0x22, 0x23]
def vopLogSoftmax : Nat := 0x28
def vopSample : Nat := 0x29

def WDesc.vop (w : WDesc) : Nat := w.c 0 6
def WDesc.isSample (w : WDesc) : Bool := w.typ = tyVec && w.vop = vopSample
def WDesc.isLsm (w : WDesc) : Bool := w.typ = tyVec && w.vop = vopLogSoftmax

/-- The ROUND field of a type's control word; 0 where it has none. -/
def WDesc.round (w : WDesc) : Nat :=
  if w.typ = tyMma || w.typ = tyMvp then w.c 9 2
  else if w.typ = tyVec then w.c 7 2
  else if w.typ = tyMove then w.c 5 2
  else if w.typ = tyColl then w.c 43 2
  else if w.typ = tyRand then w.c 3 2
  else 0

/-- SATURATE is selected (R32). -/
def WDesc.saturate (w : WDesc) : Bool :=
  if w.typ = tyMma || w.typ = tyMvp then bit w.control 8
  else if w.typ = tyVec then bit w.control 6
  else if w.typ = tyMove then bit w.control 4
  else if w.typ = tyColl then bit w.control 45
  else bit w.control 2

/-- OUT_SCALE = AUTO. -/
def WDesc.auto (w : WDesc) : Bool :=
  if w.typ = tyMma || w.typ = tyMvp then bit w.control 11
  else if w.typ = tyVec then bit w.control 9
  else if w.typ = tyMove then bit w.control 7
  else if w.typ = tyRand then bit w.control 5
  else false

/-- E_OUT as a code of six bits. -/
def WDesc.eOutCode (w : WDesc) : Nat :=
  if w.typ = tyMma || w.typ = tyMvp then w.c 12 6
  else if w.typ = tyVec then w.c 10 6
  else if w.typ = tyMove then w.c 8 6
  else if w.typ = tyRand then w.c 6 6
  else 0

def WDesc.outMode (w : WDesc) (offset : Nat) : OutMode :=
  { mode := modeOf w.round, sat := w.saturate, auto := w.auto, eOut := signed w.eOutCode 6
    draw := ⟨w.seed, w.stream, offset⟩ }

/-- MMA fields (R82). -/
def WDesc.accIn (w : WDesc) : Nat := w.c 18 2
def WDesc.accOut (w : WDesc) : Nat := w.c 20 2
def WDesc.slotIn (w : WDesc) : Nat := w.c 22 5
def WDesc.slotOut (w : WDesc) : Nat := w.c 27 5
def WDesc.noOps (w : WDesc) : Bool := bit w.control 32
def WDesc.ntiles (w : WDesc) : Nat := w.c 33 6
def WDesc.usesIn (w : WDesc) : Bool := w.accIn = 1 || w.accIn = 2
def WDesc.usesOut (w : WDesc) : Bool := w.accOut = 1 || w.accOut = 2
/-- Names neither C nor D: its tile count is NTILES (R91). -/
def WDesc.slotsOnly (w : WDesc) : Bool := w.noOps && w.usesIn && w.usesOut

/-- The item rounds with stochastic rounding, or is a RAND item: the items that may draw by OFFSET (R131). A MOVE draws only on
its conversion path (`drawsInto`). -/
def WDesc.draws (w : WDesc) : Bool :=
  w.typ = tyRand ||
  (modeOf w.round = .sr &&
    ((w.typ = tyMma && w.accOut = 0) || (w.typ = tyMvp && w.accOut = 0) ||
     (w.typ = tyVec && !w.isSample && !w.isLsm) || (w.typ = tyMove && w.c 14 2 = 0) ||
     (w.typ = tyColl && w.c 2 2 = 1)))

/-! ### The checks of R148 -/

/-- The control and parameter words of each type, where a check needs no tensor descriptor. -/
def controlOk (w : WDesc) : Bool :=
  if w.typ = tyMma then
    let op := w.c 0 3
    op ≤ 4 && w.round != 3 && w.c 39 25 = 0 && w.param = 0 && (!w.auto || w.eOutCode = 0) &&
    (w.usesIn || w.slotIn = 0) && (w.usesOut || w.slotOut = 0) &&
    (if op = 0 then
      w.c 3 3 ≤ 4 && (!w.noOps || w.accIn != 0) &&
      (if w.slotsOnly then 1 ≤ w.ntiles && w.ntiles ≤ 32 && w.slotIn + w.ntiles ≤ 32 && w.slotOut + w.ntiles ≤ 32
       else w.ntiles = 0)
     else
      w.c 3 3 = 0 && w.c 6 2 = 0 && w.accIn = 0 && w.accOut = 0 && !w.noOps && w.ntiles = 0)
  else if w.typ = tyMvp then
    w.c 0 3 = 0 && w.c 3 5 = 0 && w.round != 3 && (!w.auto || w.eOutCode = 0) && (w.accIn = 0 || w.accIn = 3) &&
    (w.accOut = 0 || w.accOut = 3) && w.c 22 42 = 0 && w.param = 0
  else if w.typ = tyVec then
    let v := w.vop
    let red := vopReduce.contains v || v = vopLogSoftmax || v = vopSample
    (red || vopUnary.contains v || vopBinary.contains v || vopTernary.contains v) && w.round != 3 &&
    (!w.auto || w.eOutCode = 0) && (if red then 1 ≤ w.c 16 3 else w.c 16 3 = 0) && w.c 19 45 = 0 &&
    (if v = vopLogSoftmax then w.c 7 9 = 0 else true) &&
    (if v = vopLogSoftmax || v = vopSample then w.param < 2 ^ 48 && w.param % 32 = 0 else w.param = 0)
  else if w.typ = tyMove then
    (if w.c 0 1 = 0 then w.c 1 3 = 0 else 1 ≤ w.c 1 3) && w.round != 3 && w.c 14 2 != 3 && w.c 16 48 = 0 &&
    (if w.c 14 2 = 0 then true else w.c 0 1 = 0 && w.c 5 9 = 0) && w.param = 0
  else if w.typ = tyColl then
    w.c 0 2 ≤ 1 && w.c 2 2 ≤ 2 && w.c 5 3 ≤ 4 && (if w.c 4 1 = 1 then 1 ≤ w.c 13 6 && w.c 13 6 ≤ 32 else w.c 13 6 = 0) &&
    w.c 31 12 ≤ w.c 19 12 && (if w.c 0 2 = 1 then w.c 19 12 < 256 else true) && w.round != 3 && w.c 46 18 = 0
  else if w.typ = tyRand then
    w.c 0 2 ≤ 2 && w.round != 3 && (!w.auto || w.eOutCode = 0) && w.c 12 52 = 0
  else if w.typ = tySignal then w.c 0 2 ≤ 1 && w.c 2 62 = 0 && w.param = 0
  else w.control = 0 && w.param = 0

/-- Which slots the type and control word require (R83, R97, R102, R112, R147, R157). -/
def slotsNeeded (w : WDesc) : List Bool :=
  if w.typ = tyMma then
    let op := w.c 0 3
    if op = 0 then [!w.noOps, !w.noOps, w.accIn = 3, w.accOut = 0 || w.accOut = 3]
    else [true, op != 4, op = 2, true]
  else if w.typ = tyMvp then [true, true, w.accIn = 3, true]
  else if w.typ = tyVec then
    let v := w.vop
    [true, vopBinary.contains v || vopTernary.contains v, vopTernary.contains v, true]
  else if w.typ = tyMove then [true, false, false, true]
  else if w.typ = tyColl then [w.c 4 1 = 0, false, false, true]
  else if w.typ = tyRand then [false, false, false, true]
  else [false, false, false, false]

/-- A counter number (R145). -/
def counterOk (n : Nat) : Bool := n < Config.counters || n = 0xFFFF

/-- The checks of R148 after SEQ; each failure is reported alike. -/
def workOk (p : Pitch) (w : WDesc) : Bool :=
  1 ≤ w.typ && w.typ ≤ 8 && w.reservedOk && w.flags < 16 && w.prio < 4 && (!w.cursor || w.offset = 0) &&
  w.slots.all (fun x => x < 2 ^ 50) && controlOk w &&
  (if w.typ = tySignal || w.typ = tyWait then w.lcluster = 0 else w.lcluster < p.lclusters) &&
  counterOk w.waitId && counterOk w.sigId &&
  (List.range 4).all (fun i => w.present i == (slotsNeeded w).getD i false) &&
  (List.range 4).all (fun i => !w.present i ||
    (if i = 3 && w.isSample then w.addr i % 8 = 0 && !w.framed i else w.addr i % 64 = 0)) &&
  w.units ≤ p.stagingMib * 16

/-! ### Operands -/

/-- How a validation fails: status, FAIL_SLOT and FAIL_STEP (R154). -/
structure VFail where
  status : Nat
  slot : Nat
  step : Nat
  deriving DecidableEq, Repr

/-- A validated operand. -/
structure Operand where
  slot : Nat
  desc : TDesc
  raw : Bytes
  frame : Option Frame64
  dst : Bool
  deriving DecidableEq, Repr

/-- Bytes that must be mapped DRAM window memory, as descriptors and records are (R72 step 1, R169). -/
def fetchDram (s : State) (p : Pitch) (a n : Nat) : Except Nat Bytes :=
  if !allKind s p a n fun _ => true then .error stOutOfRange
  else if !allKind s p a n (· = .dram) then .error stBadDescriptor
  else readBytes s p a n

/-- Step 1 of R72 on a fetched descriptor: reserved fields and codes. -/
def TDesc.codesOk (t : TDesc) : Bool := t.reservedOk && t.fmt < 11 && t.padValue < 5 && t.ndim != 0

/-- Step 1: the descriptor and its frame record fetched, reserved fields and codes checked. -/
def fetchOperand (s : State) (p : Pitch) (w : WDesc) (i : Nat) : Except VFail Operand :=
  let fail := fun st => (Except.error (⟨st, i, 1⟩ : VFail) : Except VFail Operand)
  match fetchDram s p (w.addr i) (if w.framed i then 128 else 64) with
    | .error e => fail e
    | .ok b =>
      let t := parseDesc b
      let fr := if w.framed i then some (parseFrame t.ndim (b.drop 64)) else none
      if !t.codesOk || !(fr.elim true (·.reservedOk)) then fail stBadDescriptor
      else .ok ⟨i, t, b.take 64, fr, i = 3⟩

/-! ### Step 6: formats, arrangements and regions -/

/-- The kinds of the lowest and the highest byte of each span; `none` is unmapped. -/
def spanKinds (s : State) (p : Pitch) (t : TDesc) : List (Option Where) :=
  t.spans.flatMap fun r => [kindAt s p r.1.toNat, kindAt s p r.2.toNat]

/-- No span names a region that R169 forbids for the reference. -/
def regionsOk (s : State) (p : Pitch) (t : TDesc) (ok : Where → Bool) : Bool :=
  (spanKinds s p t).all fun k => k.elim true ok

/-- A control page is named only as one aligned 8-byte field, by the elements and by no scale byte (R169). -/
def controlFieldOk (s : State) (p : Pitch) (t : TDesc) : Bool :=
  t.spans.all fun r =>
    if [kindAt s p r.1.toNat, kindAt s p r.2.toNat].contains (some .control) then r.1 % 8 = 0 && r.2 = r.1 + 7 else true

/-- Every byte of a span lies in [lo, lo + n). -/
def spansWithin (t : TDesc) (lo n : Nat) : Bool := t.spans.all fun r => (lo : Int) ≤ r.1 && r.2 < lo + n

/-- The named lengths of an MMA, EW, MVP or COLLECTIVE operand: 0 M, 1 N, 2 K, 3 batch (R83, R102, R157). -/
def namedLens (w : WDesc) (i : Nat) (t : TDesc) : List (Nat × Nat) :=
  let two := fun a b => [(a, t.len 1), (b, t.len 2)] ++ (if t.ndim = 3 then [(3, t.len 3)] else [])
  if w.typ = tyMvp then (if i = 0 then two 2 1 else if i = 1 then two 2 0 else two 1 0)
  else if i = 0 && w.typ = tyMma then (if w.c 6 1 = 1 then two 0 2 else two 2 0)
  else if i = 1 && w.typ = tyMma then (if w.c 7 1 = 1 then two 1 2 else two 2 1)
  else two 1 0

/-- Two lists of named lengths agree wherever both name a length. -/
def lensAgree (a b : List (Nat × Nat)) : Bool := a.all fun x => b.all fun y => x.1 != y.1 || x.2 = y.2

/-- The same view lengths in every dimension, that of STRIP_DIM being the channel length with its pad lanes (R83; DESIGN
CHOICE for the items of R112, notes/assumptions/64.md). -/
def sameLens (a b : TDesc) : Bool := a.ndim = b.ndim && (List.range a.ndim).all fun i => a.len (i + 1) = b.len (i + 1)

/-- The path of a MOVE (R156). -/
inductive MovePath where
  | copy
  | convert
  deriving DecidableEq, Repr

def movePath (w : WDesc) (src dst : TDesc) : MovePath :=
  if src.fmt = dst.fmt && src.scaled = dst.scaled && !(w.c 0 1 = 1 && dst.scaled) then .copy else .convert

/-- The item draws by OFFSET into this destination: of a MOVE, only on its conversion path (R130, R131, R156). -/
def drawsInto (w : WDesc) (src : Option TDesc) (dst : TDesc) : Bool :=
  w.draws && (w.typ != tyMove || src.elim true fun t => movePath w t dst = .convert)

/-- A destination that takes a conversion under a NONFIN field: NAN mode needs a format with NaN (R32), and E_OUT is 0
for an unscaled destination where the control word says so. -/
def convertOk (w : WDesc) (t : TDesc) : Bool :=
  (w.saturate || (t.elem?.elim false (·.hasNan))) && (t.scaled || w.typ = tyMove || w.eOutCode = 0)

/-- The block reference record of a delivering COLLECTIVE (R267). -/
structure BlockRef where
  run : Nat
  layerTag : Nat
  block : Nat
  row0 : Nat
  nrows : Nat
  col0 : Nat
  ncols : Nat
  step : Nat
  reservedOk : Bool
  deriving DecidableEq, Repr

def parseBlockRef (b : Bytes) : BlockRef :=
  { run := u32 b 0, layerTag := u32 b 4, block := u32 b 8, row0 := u16 b 12, nrows := u16 b 14, col0 := u16 b 16
    ncols := u16 b 18, step := u64 b 24, reservedOk := zeroRange b 20 4 && zeroRange b 32 32 }

/-- Blocks across a layer's columns, and its blocks (R245). -/
def Layer.across (l : Layer) : Nat := ceilDiv l.cols 256
def Layer.blockCount (l : Layer) : Nat := ceilDiv l.rows 256 * l.across
/-- Clipped rows and columns of block b. -/
def Layer.blockRows (l : Layer) (b : Nat) : Nat := min 256 (l.rows - b / l.across * 256)
def Layer.blockCols (l : Layer) (b : Nat) : Nat := min 256 (l.cols - b % l.across * 256)
/-- The logical die that owns block b (R245). -/
def Layer.owner (l : Layer) (b : Nat) : Nat := l.ownerFirst + b % l.ownerCount

/-- The fields of a block reference are in range and its layer has a rule (R267). -/
def blockRefOk (p : Pitch) (r : BlockRef) : Bool :=
  r.reservedOk &&
  ((p.runs.find? fun x => x.id = r.run).bind fun x => x.layers.find? fun l => l.tag = r.layerTag).elim false fun l =>
    l.rule.isSome && r.block < l.blockCount && 1 ≤ r.nrows && r.row0 + r.nrows ≤ l.blockRows r.block &&
    r.col0 % 32 = 0 && 1 ≤ r.ncols && r.col0 + r.ncols ≤ l.blockCols r.block &&
    (r.ncols % 32 = 0 || r.col0 + r.ncols = l.blockCols r.block)

/-- Capacity that the compressed side of a CODEC MOVE needs (R249). -/
def codecCapacity (raw : TDesc) : Nat :=
  let n := raw.boxStrips.length
  32 + 5 * ceilDiv n 64 + n * (stripBytes raw.fmt + raw.scaled.toNat) + ceilDiv n 4

/-- The arrangement of the compressed side (R249). -/
def codecShape (t : TDesc) : Bool := !t.scaled && t.ndim = 1 && (t.dim 1).stride = 1 && t.fmt < 8

/-- The bytes from BASE on that a stream may take: none of a tail lane (R58, R62). -/
def packedBytes (t : TDesc) : Nat :=
  let sb := stripBytes t.fmt
  let last := if t.chanTail = 0 then sb else if t.laneRev then 0 else t.chanTail * elemWidth t.fmt / 8
  ((t.dim 1).extent - 1) * sb + last

/-- The compressed side's format and capacity (R249). -/
def codecPacked (t raw : TDesc) : Bool := t.fmt = raw.fmt && codecCapacity raw ≤ packedBytes t

/-- The raw side (R249). -/
def codecRaw (t : TDesc) : Bool := t.fmt < 8 && t.dims.all fun d => d.padLo = 0 && d.padHi = 0

/-- Step 6 for the operand in slot `i`, given the operands checked before it: the format and SCALED, the arrangement,
and the region are permitted (R28, R84, R86, R97, R102, R109, R112, R120, R134, R156, R157, R169). -/
def step6Ok (s : State) (p : Pitch) (w : WDesc) (prior : List Operand) (i : Nat) (t : TDesc) : Bool :=
  let agree := prior.all fun o => lensAgree (namedLens w o.slot o.desc) (namedLens w i t)
  let same := prior.all fun o => sameLens o.desc t
  let mem := regionsOk s p t fun k => k = .dram || k = .sram
  let arr := fun (f : Nat) => f < 6
  if w.typ = tyMma then
    mem && t.stripDim = 1 &&
    (if w.c 0 3 = 0 then
      (t.ndim = 2 || t.ndim = 3) && agree &&
      (if i < 2 then arr t.fmt
       else if i = 2 then t.fmt = fcAcc
       else if w.accOut = 3 then t.fmt = fcAcc && w.eOutCode = 0
       else t.fmt < 8 && convertOk w t && !(t.scaled && w.auto && w.c 3 3 = 0))
     else same && (if i < 3 then arr t.fmt else t.fmt < 8 && convertOk w t))
  else if w.typ = tyMvp then
    t.ndim = 2 && t.stripDim = 1 && agree &&
    (if i = 0 then arr t.fmt && spansWithin t (w.lcluster * 2 ^ 32) Config.windowBytes
     else if i = 1 then
      arr t.fmt && 1 ≤ t.len 2 && t.len 2 ≤ 8 && spansWithin t (sramBase + w.lcluster * 2 ^ 24) (sramMapped p)
     else if i = 2 then mem && t.fmt = fcAcc
     else if w.accOut = 3 then mem && t.fmt = fcAcc && w.eOutCode = 0
     else mem && t.fmt < 8 && convertOk w t)
  else if w.typ = tyVec then
    let rd := w.c 16 3
    mem && t.fmt < 8 &&
    (if w.isSample || w.isLsm then
      (if i = 0 then
        rd = t.stripDim && t.positions rd ≤ 4194304 &&
        ((List.range t.ndim).foldl (fun n d => if d + 1 = rd then n else n * t.positions (d + 1)) 1) ≤ 4096
       else same && t.fmt = fcFp32)
     else if vopReduce.contains w.vop then
      (if i = 0 then rd ≤ t.ndim && (w.vop != 0x23 || t.positions rd ≤ 2 ^ 24)
       else
        convertOk w t && prior.all fun o => o.desc.ndim = t.ndim &&
          (List.range t.ndim).all fun d => t.len (d + 1) = if d + 1 = rd then 1 else o.desc.len (d + 1))
     else same && (i < 3 || convertOk w t))
  else if w.typ = tyMove then
    let codec := w.c 14 2
    controlFieldOk s p t &&
    (if i = 0 then
      (w.c 0 1 = 0 || (w.c 1 3 ≤ t.ndim && w.c 1 3 != t.stripDim && t.fmt < 8)) && (codec != 1 || codecRaw t) &&
      (codec != 2 || codecShape t)
     else prior.all fun o =>
      let src := o.desc
      if codec = 1 then codecShape t && codecPacked t src
      else if codec = 2 then codecRaw t && codecPacked src t
      else if w.c 0 1 = 1 then
        let x := w.c 1 3
        t.ndim = src.ndim && t.stripDim = src.stripDim && t.fmt < 8 &&
        ((List.range t.ndim).all fun d =>
          t.len (d + 1) = src.len (if d + 1 = t.stripDim then x else if d + 1 = x then t.stripDim else d + 1)) &&
        (movePath w src t = .copy || convertOk w t)
      else
        sameLens src t && src.stripDim = t.stripDim &&
        (movePath w src t = .copy || (src.fmt < 8 && t.fmt < 8 && convertOk w t)))
  else if w.typ = tyColl then
    mem && (t.ndim = 2 || t.ndim = 3) && t.stripDim = 1 && agree &&
    (if i = 0 then t.fmt = fcFp32 || t.fmt = fcBf16
     else
      (if w.c 2 2 = 0 then t.fmt = (if w.c 0 2 = 0 then fcA64 else fcA32) else t.fmt = fcFp32 || t.fmt = fcBf16) &&
      prior.all fun o => sameLens o.desc t)
  else mem && t.fmt < 8 && convertOk w t

/-! ### Steps 2 to 9 of one operand -/

/-- Spans inside the address space, their ends mapped in one region kind (R72, R170). -/
def spansMapped (s : State) (p : Pitch) (t : TDesc) : Bool :=
  t.spans.all fun r => 0 ≤ r.1 && r.2 < 2 ^ 48 &&
    (kindAt s p r.1.toNat).isSome && kindAt s p r.1.toNat = kindAt s p r.2.toNat

/-- Step 7: spans, and the frame and the draws in range (R72, R130, R149, R170). -/
def step7Ok (s : State) (p : Pitch) (w : WDesc) (offset : Nat) (prior : List Operand) (o : Operand) : Bool :=
  let t := o.desc
  let n := t.drawCount o.frame
  spansMapped s p t && o.frame.elim true (fun f => t.frameFits f && n ≤ 2 ^ 64) &&
  (!(o.dst && drawsInto w (prior.head?.map (·.desc)) t) || n - 1 + offset < 2 ^ 64)

/-- Steps 2 to 9 of R72 for a fetched descriptor, given the outcomes of steps 6 and 7: the first that fails, as status and
step. -/
def descFail (t : TDesc) (dst ok6 ok7 : Bool) : Option (Nat × Nat) :=
  if t.stripDim = 0 || t.ndim < t.stripDim || t.dims.any (fun d => d.extent = 0) then some (stBadDescriptor, 2)
  else if (t.scaled && !scalable t.fmt) || (!t.scaled && t.scaleBase != 0) then some (stBadDescriptor, 3)
  else if (padCode? t.fmt t.padValue).isNone then some (stBadDescriptor, 4)
  else if t.base % baseAlign t.fmt != 0 then some (stBadDescriptor, 5)
  else if !ok6 then some (stBadDescriptor, 6)
  else if !ok7 then some (stOutOfRange, 7)
  else if dst && t.dims.any (fun d => d.stride = 0) then some (stBadDescriptor, 8)
  else if dst && (!t.injective || (t.scaleSpan.elim false fun r => rangesMeet r t.elemSpan)) then
    some (stNotInjective, 9)
  else none

/-- Steps 2 to 9 of R72 for an operand. -/
def operandFail (s : State) (p : Pitch) (w : WDesc) (offset : Nat) (prior : List Operand) (o : Operand) :
    Option (Nat × Nat) :=
  descFail o.desc o.dst (step6Ok s p w prior o.slot o.desc) (step7Ok s p w offset prior o)

/-- The operands in their order, each through steps 1 to 9; a slot other than DESC3 names no frame record (R148). -/
def checkOperands (s : State) (p : Pitch) (w : WDesc) (offset : Nat) : Except VFail (List Operand) :=
  foldE (fun prior i =>
    if w.framed i && i != 3 then .error ⟨stBadDescriptor, i, 1⟩
    else if !w.present i || (i = 3 && (w.isSample || (w.typ = tyColl && w.c 2 2 = 2))) then .ok prior
    else match fetchOperand s p w i with
      | .error e => .error e
      | .ok o => match operandFail s p w offset prior o with
        | some (st, step) => .error ⟨st, i, step⟩
        | none => .ok (prior ++ [o])) [] [0, 1, 2, 3]

/-! ### The rest of R72 -/

/-- Rows of a SAMPLE or LOGSOFTMAX item: the view positions outside RDIM (R120). -/
def rowCount (t : TDesc) (rd : Nat) : Nat :=
  (List.range t.ndim).foldl (fun n d => if d + 1 = rd then n else n * t.positions (d + 1)) 1

/-- Step 1 of a span of records: mapped, and in DRAM windows (R72, R169). -/
def recordSpanFail (s : State) (p : Pitch) (a n : Nat) : Option Nat :=
  if !allKind s p a n fun _ => true then some stOutOfRange
  else if !allKind s p a n (· = .dram) then some stBadDescriptor
  else none

/-- Tiles of an item with slots or records: batch × ⌈M/Mt⌉ × ⌈N/Nt⌉ (R91, R157). -/
def tileCount (shape m n batch : Nat) : Nat := batch * ceilDiv m (shapeMt shape) * ceilDiv n (shapeNt shape)

/-- A named length over the operands. -/
def lenOf (w : WDesc) (os : List Operand) (name dflt : Nat) : Nat :=
  ((os.flatMap fun o => namedLens w o.slot o.desc).find? fun x => x.1 = name).elim dflt (·.2)

/-- The slot count of an MMA (R91). -/
def mmaTiles (w : WDesc) (os : List Operand) : Nat :=
  if w.slotsOnly then w.ntiles else tileCount (w.c 3 3) (lenOf w os 0 1) (lenOf w os 1 1) (lenOf w os 3 1)

/-- The checks that relate several operands: the slot range of R91 and the NSLOTS count of R157. -/
def slotsOk (w : WDesc) (os : List Operand) (ref : Option BlockRef) : Bool :=
  if w.typ = tyMma && w.c 0 3 = 0 then
    let n := mmaTiles w os
    (!w.usesIn || w.slotIn + n ≤ 32) && (!w.usesOut || w.slotOut + n ≤ 32)
  else if w.typ = tyColl && w.c 4 1 = 1 then
    let n := match ref with
      | some r => tileCount (w.c 5 3) r.nrows r.ncols 1
      | none => tileCount (w.c 5 3) (lenOf w os 0 1) (lenOf w os 1 1) (lenOf w os 3 1)
    w.c 13 6 = n && w.c 8 5 + n ≤ 32
  else true

/-- Step 10: nothing written is also read (R71); a VEC destination may be one of its sources bit for bit. -/
def overlapOk (w : WDesc) (os : List Operand) (extraDst extraSrc : List (Int × Int)) : Bool :=
  let srcs := os.filter fun o => !o.dst
  let dsts := os.filter fun o => o.dst
  dsts.all (fun d => srcs.all fun x =>
    (w.typ = tyVec && d.raw = x.raw) ||
    d.desc.spans.all fun a => x.desc.spans.all fun b => !rangesMeet a b) &&
  dsts.all (fun d => d.desc.spans.all fun a => extraSrc.all fun b => !rangesMeet a b) &&
  extraDst.all (fun a => (srcs.all fun x => x.desc.spans.all fun b => !rangesMeet a b) &&
    extraSrc.all fun b => !rangesMeet a b)

/-- Step 11: the scale bytes of a source (R31). A byte in an unmapped gap is met when its strip is used (R170). -/
def scalesFail (s : State) (p : Pitch) (t : TDesc) : Option Nat :=
  if !t.scaled then none
  else t.boxStrips.findSome? fun v =>
    match readByte s p (t.scaleAddr (t.stripOff v)) with
    | .error e => if e = stUncorrectable then some e else none
    | .ok b => if scaleOk b.toNat then none else some stBadDescriptor

/-- A parameter record of SAMPLE or LOGSOFTMAX (R120). -/
structure Params where
  temp : W32
  topP : W32
  topK : Nat
  stream : Nat
  position : Nat
  deriving DecidableEq, Repr

def parseParams (b : Bytes) : Params :=
  ⟨BitVec.ofNat 32 (u32 b 0), BitVec.ofNat 32 (u32 b 4), u32 b 8, u64 b 16, u64 b 24⟩

/-- A parameter record is acceptable (R120). -/
def paramsOk (lsm : Bool) (b : Bytes) : Bool :=
  let q := parseParams b
  zeroRange b 12 4 && f32Finite q.temp && (f32IsZero q.temp || !f32Neg q.temp) &&
  (if lsm then zeroRange b 4 28
   else !f32IsNan q.topP && f32Lt 0 q.topP && f32Le q.topP f32One)

/-- RAND parameters (R134). -/
def randParamsOk (w : WDesc) : Bool :=
  let a : W32 := BitVec.ofNat 32 w.param
  let b : W32 := BitVec.ofNat 32 (w.param >>> 32)
  f32Finite a && f32Finite b &&
  (if w.c 0 2 = 0 then !f32Lt b a else if w.c 0 2 = 1 then !f32Lt b 0 else f32Le 0 a && f32Le a f32One)

/-- What a validated item works on. -/
structure Checked where
  ops : List Operand
  ref : Option (Bytes × BlockRef) := none
  deriving DecidableEq, Repr

/-- The block reference of a delivering COLLECTIVE, with its own checks (R267). -/
def checkBlockRef (s : State) (p : Pitch) (w : WDesc) (os : List Operand) : Except VFail (Option (Bytes × BlockRef)) :=
  if w.typ = tyColl && w.c 2 2 = 2 then
    match fetchDram s p (w.addr 3) 64 with
    | .error e => .error ⟨e, 3, 1⟩
    | .ok b =>
      let r := parseBlockRef b
      if w.framed 3 || !r.reservedOk then .error ⟨stBadDescriptor, 3, 1⟩
      else if w.round != 0 || !blockRefOk p r ||
          !(os.all fun o => lensAgree (namedLens w 0 o.desc) [(0, r.nrows), (1, r.ncols), (3, 1)]) then
        .error ⟨stBadDescriptor, 3, 6⟩
      else .ok (some (b, r))
  else .ok none

/-- Validation under R72 after the checks of R148: every descriptor through steps 1 to 9, then the checks over several
operands, then steps 10 and 11. An UNCORRECTABLE read of a scale byte or of a parameter record is reported with step 11 and
its slot, 4 for a record, which the spec does not say (DESIGN CHOICE, notes/assumptions/60.md). -/
def validate (s : State) (p : Pitch) (w : WDesc) (offset : Nat) : Except VFail Checked :=
  match checkOperands s p w offset with
  | .error e => .error e
  | .ok os => match checkBlockRef s p w os with
    | .error e => .error e
    | .ok ref =>
      let rd := w.c 16 3
      let rows := if w.isSample || w.isLsm then (os.find? fun o => o.slot = 0).elim 0 fun o => rowCount o.desc rd else 0
      let outFail := if w.isSample then recordSpanFail s p (w.addr 3) (8 * rows) else none
      let parFail := if w.isSample || w.isLsm then recordSpanFail s p w.param (32 * rows) else none
      let outSpan : List (Int × Int) := if w.isSample then [((w.addr 3 : Int), (w.addr 3 : Int) + 8 * rows - 1)] else []
      let parSpan : List (Int × Int) :=
        if w.isSample || w.isLsm then [((w.param : Int), (w.param : Int) + 32 * rows - 1)] else []
      if outFail.isSome then .error ⟨outFail.getD 0, 3, 1⟩
      else if parFail.isSome then .error ⟨parFail.getD 0, 4, 1⟩
      else if !slotsOk w os (ref.map (·.2)) then .error ⟨stBadDescriptor, 0xFF, 6⟩
      else if !overlapOk w os outSpan parSpan then .error ⟨stBadDescriptor, 0xFF, 10⟩
      else match os.findSome? fun o =>
          if o.dst then none else (scalesFail s p o.desc).map fun e => (⟨e, o.slot, 11⟩ : VFail) with
        | some f => .error f
        | none =>
          let parBad := (List.range rows).findSome? fun r =>
            match readBytes s p (w.param + 32 * r) 32 with
            | .error e => some e
            | .ok b => if paramsOk w.isLsm b then none else some stBadDescriptor
          if parBad.isSome then .error ⟨parBad.getD 0, 4, 11⟩
          else if w.typ = tyRand && !randParamsOk w then .error ⟨stBadDescriptor, 4, 11⟩
          else .ok ⟨os, ref⟩

/-- The element count that the cursor advances by, where the destination gives one that passes R130 (R131). DESIGN CHOICES of
notes/assumptions/60.md: a destination that fails step 1 of R72 gives no count, while one that fails a later step does; a
MOVE whose source cannot be read, so that its path is not known, leaves the cursor. -/
def cursorCount (s : State) (p : Pitch) (w : WDesc) (cursor : Nat) : Option Nat :=
  if !(w.cursor && w.draws && w.present 3) then none
  else match fetchOperand s p w 3 with
    | .error _ => none
    | .ok o =>
      let t := o.desc
      let n := t.drawCount o.frame
      let path := if w.typ = tyMove then
          match fetchOperand s p w 0 with
          | .error _ => false
          | .ok a => drawsInto w (some a.desc) t
        else true
      if !path || t.stripDim = 0 || t.ndim < t.stripDim || t.dims.any (fun d => d.extent = 0) || n = 0 ||
        2 ^ 64 < n + cursor then none
      else some n

end Sys2Proof.Machine
end

