-- ==== Sys2Proof/Machine/Items.lean ====
section
/-! DEFINITION. What happens to a work item whatever its type: its engine, its flags and ranges, its failure (R96, R154,
R177), its abort (R155), its signal (R150) and its completion (R154). -/

namespace Sys2Proof.Machine

open Sys2Proof

/-- What a row about an item does where the item exists; otherwise nothing. -/
def State.onItem (s : State) (k : ItemKey) (f : Pitch → Item → State) : State :=
  match s.pitch? k.tag with
  | none => s
  | some p => match p.item? k with
    | none => s
    | some i => f p i

/-! ### An item's parts -/

def Item.w (i : Item) : WDesc := parseWork i.wd

/-- The validated operand of a slot (R72). -/
def Item.operand? (i : Item) (slot : Nat) : Option Operand :=
  (i.descs.getD slot none).map fun d =>
    let t := parseDesc d.1
    ⟨slot, t, d.1, d.2.map (parseFrame t.ndim), slot = 3⟩

/-- The block reference of a delivering COLLECTIVE (R267). -/
def Item.ref? (i : Item) : Option BlockRef :=
  if i.w.typ = tyColl && i.w.c 2 2 = 2 then (i.descs.getD 3 none).map fun d => parseBlockRef d.1 else none

/-- The destination tensor, where DESC3 names one. -/
def Item.dest? (i : Item) : Option Operand :=
  if i.w.isSample || i.ref?.isSome then none else i.operand? 3

/-- The physical cluster that executes the item (R161). -/
def Item.place? (s : State) (p : Pitch) (i : Item) : Option Place := Pitch.place? s p i.w.lcluster

/-- How an item's outputs are converted, with its draw offset. -/
def Item.outMode (i : Item) : OutMode := i.w.outMode i.offset

/-- A span as a listed range: start and exclusive end (R154). -/
def spanRange (r : Int × Int) : Nat × Nat := (r.1.toNat, r.2.toNat + 1)

/-- A range of addresses with one more strip or record in it. -/
def growRange (r : Nat × Nat) (a n : Nat) : Nat × Nat := if r.1 < r.2 then (min r.1 a, max r.2 (a + n)) else (a, a + n)

/-- The item has begun to write the strip at view index v of its destination: RANGE0 covers it (R154). -/
def Item.wrote (i : Item) (t : TDesc) (v : List Int) : Item :=
  if t.lanesIn v = [] then i
  else
    let k := t.stripOff v
    let rg := growRange i.result.range0 (t.stripAddr k) (stripBytes t.fmt - t.below k)
    { i with result := { i.result with range0 := rg } }

/-- SAMPLE has begun to write the output record of a row: RANGE1 covers it (R154). -/
def Item.wroteRow (i : Item) (row : Nat) (record : Bytes) : Item :=
  { i with result := { i.result with range1 := growRange i.result.range1 (i.w.addr 3 + 8 * row) 8 }, rows := i.rows ++ [record] }

/-- Slots begun to be written, added into or cleared (R96). -/
def Item.touchSlot (i : Item) (n : Nat) : Item :=
  { i with result := { i.result with slots := i.result.slots ||| (1#32 <<< n) } }

/-! ### Engines and meters (R153, R330) -/

/-- Which engine a type runs on (R147); a MOVE runs on either mover. -/
def engineFor (typ : Nat) (e : Engine) : Bool :=
  if typ = tyMma then e = .arrays
  else if typ = tyColl then e = .readout
  else if typ = tyMvp then e = .mvp
  else if typ = tyVec || typ = tyRand then e = .vector
  else if typ = tyMove then e = .mover0 || e = .mover1
  else false

def Cluster.onEngine (c : Cluster) : Engine → Option ItemKey
  | .arrays => c.onArrays | .mvp => c.onMvp | .vector => c.onVector | .mover0 => c.onMover0 | .mover1 => c.onMover1
  | .readout => c.onReadout

def Cluster.setEngine (c : Cluster) (e : Engine) (k : Option ItemKey) : Cluster :=
  match e with
  | .arrays => { c with onArrays := k } | .mvp => { c with onMvp := k } | .vector => { c with onVector := k }
  | .mover0 => { c with onMover0 := k } | .mover1 => { c with onMover1 := k }
  | .readout => { c with onReadout := k }

/-- The engine that runs an item. -/
def Cluster.engineOf? (c : Cluster) (k : ItemKey) : Option Engine :=
  [Engine.arrays, .mvp, .vector, .mover0, .mover1, .readout].find? fun e => c.onEngine e = some k

/-- Engine time of a queue in the last 1 ms: of runs that have ended, and of items that run now (R153). -/
def Queue.servedTime (p : Pitch) (q : Queue) (now : Nat) : Nat :=
  ((q.served.filter fun x => now < x.1 + 25000).map fun x => min x.2 (x.1 + 25000 - now)).foldl (· + ·) 0 +
  ((p.items.filter fun i => i.phase = .running && i.key.queue = q.id).map fun i => min 25000 (now - i.startedAt)).foldl
    (· + ·) 0

/-- The item leaves its engine: the engine time since it was given the engine counts for its queue (R153). -/
def State.leaveEngine (s : State) (pl : Place) (k : ItemKey) : State :=
  match (s.cluster pl).engineOf? k with
  | none => s
  | some e =>
    let t := s.now - ((s.item? k).elim s.now (·.startedAt))
    let s := s.updCluster pl fun c =>
      { c.setEngine e none with
        tile := if c.tile.elim false (fun x => x.key = k) then none else c.tile
        bank := if c.bank.elim false (fun x => x.key = k) then none else c.bank
        drain := if c.drain.elim false (fun x => x.key = k) then none else c.drain }
    s.updPitch k.tag fun p =>
      p.updQueue k.queue fun q =>
        { q with served := (q.served.filter fun x => s.now < x.1 + 25000) ++ [(s.now, t)] }

/-! ### Failure -/

/-- A word of an accumulator of the slots is uncorrectable: every read of it fails until it is written (R177). -/
def Cluster.spoilSlot (c : Cluster) (n : Nat) : Cluster :=
  { c with slots := insertKey c.slots n { lookupD c.slots n {} with bad := true } }

/-- The listed slots hold free values; an uncorrectable word stays so (R96, R177). -/
def freeSlots (k : Nat) (mask : BitVec 32) (slots : List (Nat × Acc)) : List (Nat × Acc) :=
  (List.range 32).foldl (fun sl n =>
    if mask.getLsbD n then
      (List.range 1024).foldl (fun sl j =>
        let r := Config.undefinedSlot k (n * 1024 + j)
        insertKey sl (n * 1024 + j) ⟨r.1, r.2.1, r.2.2, (lookupD sl (n * 1024 + j) {}).bad⟩) sl
    else sl) slots

/-- The listed slots of a cluster become undefined: free values (R96). -/
def State.undefineSlots (s : State) (pl : Place) (mask : BitVec 32) : State :=
  if mask = 0 then s else (s.updCluster pl fun c => { c with slots := freeSlots s.free mask c.slots }).draw

/-- Bytes of memory become undefined: free bytes of the pitch's own memory (R3). -/
def State.undefineBytes (s : State) (tag lo hi : Nat) : State :=
  if lo < hi then (s.tryWrite tag lo ((List.range (hi - lo)).map (s.ownByte tag))).draw else s

/-! ### Memory that pitch software must not write (R190, R272) -/

/-- Arrays of a rule: 0 MOMENTUM, 1 ADAMW, 2 KRON. -/
def ruleArrays (rule : Nat) : Nat := [2, 3].getD rule 8

/-- Bytes of a block's state. -/
def ruleBytes (rule : Nat) : Nat := 64 + 262144 * ruleArrays rule

/-- The queue that the Gulper of an instance owns (R189). -/
def gulperQueue (model : Nat) : Nat := 2 ^ 32 + model

/-- Rows of equal units in a pitch's memory: the KV blocks of the instances whose Gulper does not own a queue, and the blocks'
states of every layer. Base, bytes of a unit, and units. -/
def Pitch.guarded (p : Pitch) (queue : Option Nat) : List (Nat × Nat × Nat) :=
  ((p.models.filter fun m => queue != some (gulperQueue m.id)).flatMap fun m => m.dies.map fun d => (d.2, 64 * m.kvPosBytes, m.nblocks)) ++
  p.runs.flatMap fun r => r.layers.flatMap fun l => l.rule.elim [] fun u =>
    u.areas.map fun a => (a, ruleBytes u.rule, ceilDiv l.blockCount l.ownerCount)

/-- Every guarded unit that a write of [lo, hi) reaches becomes undefined (R3, R190, R272). -/
def State.spoilGuarded (s : State) (tag : Nat) (queue : Option Nat) (lo hi : Nat) : State :=
  ((s.pitch? tag).elim [] fun p => p.guarded queue).foldl (fun s g =>
    let a := max lo g.1 - g.1
    let b := min hi (g.1 + g.2.1 * g.2.2) - g.1
    if a < b then s.undefineBytes tag (g.1 + a / g.2.1 * g.2.1) (g.1 + ((b - 1) / g.2.1 + 1) * g.2.1) else s) s

/-- Every guarded unit that some written addresses reach becomes undefined (R3, R190, R272). -/
def State.spoilAddrs (s : State) (tag : Nat) (queue : Option Nat) (as : List Nat) : State :=
  ((s.pitch? tag).elim [] fun p => p.guarded queue).foldl (fun s g =>
    ((as.filterMap fun a => if g.1 ≤ a && a < g.1 + g.2.1 * g.2.2 then some ((a - g.1) / g.2.1) else none).eraseDups).foldl
      (fun s n => s.undefineBytes tag (g.1 + n * g.2.1) (g.1 + (n + 1) * g.2.1)) s) s

/-- The item's outcome is fixed: it waits for its completion record. -/
def Item.finish (i : Item) (status : Nat) : Item :=
  { i with phase := .finished, latched := false
           result := { i.result with status := status, failSlot := 0xFF, failStep := 0 } }

/-- A dispatched item stops with a status other than OK: what it had begun to write is undefined (R3, R96, R154). -/
def State.failItem (s : State) (k : ItemKey) (status : Nat) : State :=
  match s.pitch? k.tag with
  | none => s
  | some p => match p.item? k with
    | none => s
    | some i =>
      let s := match i.dest? with
        | some o =>
          if i.result.range0.1 < i.result.range0.2 then
            undefineTensor s k.tag o.desc i.result.range0.1 i.result.range0.2
          else s
        | none => if i.w.isSample then s.undefineBytes k.tag i.result.range1.1 i.result.range1.2 else s
      let s := match i.place? s p with
        | some pl => (s.undefineSlots pl i.result.slots).leaveEngine pl k
        | none => s
      s.updItem k fun i => i.finish status

/-- The operands of an item, sources and destination. -/
def Item.operands (i : Item) : List Operand :=
  (([0, 1, 2].filter i.w.present).filterMap i.operand?) ++ i.dest?.toList

/-- The pitch addresses of the stored bytes of a strip, its scale byte among them. -/
def TDesc.bytesAt (t : TDesc) (v : List Int) : List Nat :=
  let k := t.stripOff v
  (((List.range (stripBytes t.fmt)).drop (t.below k)).map (t.byteAddr k)) ++ (if t.scaled then [t.scaleAddr k] else [])

/-- The pitch addresses of a tensor's stored bytes, strips in order. -/
def TDesc.byteAddrs (t : TDesc) : List Nat := t.boxStrips.flatMap t.bytesAt

/-- The pitch addresses in a range. -/
def addrsIn (r : Nat × Nat) : List Nat := (List.range (r.2 - r.1)).map (r.1 + ·)

/-- The pitch addresses of the bytes that an item has written, or begun to: those of its destination's strips in RANGE0, the stream of
a COMPRESS move, or SAMPLE output records (R62, R154). -/
def Item.written (i : Item) : List Nat :=
  let r := i.result.range0
  match i.dest? with
  | some o =>
    if i.w.typ = tyMove && i.w.c 14 2 = 1 then addrsIn r
    else (o.desc.boxStrips.filter fun v =>
      o.desc.stripAddr (o.desc.stripOff v) < r.2 && r.1 < o.desc.byteAddr (o.desc.stripOff v) (stripBytes o.desc.fmt)).flatMap
        o.desc.bytesAt
  | none => if i.w.isSample then addrsIn i.result.range1 else []

/-- Guarded memory that an item has written becomes undefined. -/
def State.spoilItem (s : State) (k : ItemKey) (i : Item) : State := s.spoilAddrs k.tag (some k.queue) i.written

/-- The pitch addresses of the parameter records of a SAMPLE or LOGSOFTMAX item whose logits have this descriptor (R120). -/
def WDesc.recordAddrs (w : WDesc) (t : TDesc) : List Nat :=
  if w.isSample || w.isLsm then (List.range (32 * rowCount t (w.c 16 3))).map (w.param + ·) else []

/-- The first of some pitch addresses whose byte is uncorrectable. -/
def State.firstBad (s : State) (p : Pitch) (as : List Nat) : Option Nat :=
  as.find? fun a => (translate s p a).elim false s.locBad

/-- The pitch address that an UNCORRECTABLE event gives (R177): the first uncorrectable byte of the item's operands and
records; none where only its accumulator slots have an uncorrectable word. -/
def Item.firstBad (s : State) (p : Pitch) (i : Item) : Option Nat :=
  s.firstBad p ((i.operands.flatMap fun o => o.desc.byteAddrs) ++ (i.operand? 0).elim [] fun o => i.w.recordAddrs o.desc)

/-- The event of an uncorrectable read, with its pitch address where it has one (R177). -/
def State.logBadRead (s : State) (tag : Nat) : Option Nat → State
  | some a => s.logFact 3 "UNCORRECTABLE" none noDie tag a
  | none => s.logNote 3 "UNCORRECTABLE" none noDie tag 0

/-- A memory error of an item, with its event (R177). -/
def State.failMemory (s : State) (k : ItemKey) (status : Nat) : State :=
  let s := if status = stUncorrectable then
      s.logBadRead k.tag ((s.pitch? k.tag).bind fun p => (p.item? k).bind (Item.firstBad s p))
    else s
  s.failItem k status

/-! ### Transfers to and from other modules (R352, R358)

What this module reaches over the fabric stands in its own memory under a key of its own (Machine/Ops.lean); the frames that carry
it are transactions of the die that runs the item (notes/assumptions/66.md). -/

/-- DEST of the frame that reaches a key outside the module, and whether it is a pitch address: memory of another module's die, a
spoil region homed elsewhere, or host memory behind a bridge (R163, R179). -/
def fabricDest (p : Pitch) (k : Nat) : Option (Bool × Nat) :=
  if 2 ^ 48 ≤ k && k < 2 ^ 80 then some (false, k - 2 ^ 48)
  else if isSpoilKey k then (p.regions[(k % 2 ^ 48 - spoilBase) / 2 ^ 42]?).map fun r => (true, r.home * 2 ^ 48 + k % 2 ^ 48)
  else if 2 ^ 100 ≤ k then
    let m := (k - 2 ^ 100) / 2 ^ 65
    some (false, m * 2 ^ 48 + Config.bridgeDie m % 24 * 2 ^ 43 + 2 ^ 42 + k % 2 ^ 42)
  else none

/-- The key of the first byte that such a frame reaches. -/
def foreignKey (f : Frame) : Nat :=
  if f.pitchAddr then spoilKey f.tag (f.dest % 2 ^ 48)
  else if 2 ^ 42 ≤ f.dest % 2 ^ 43 then hostKey (f.dest / 2 ^ 48) (f.dest % 2 ^ 42)
  else f.dest + 2 ^ 48

/-- The pieces of a set of pitch addresses that frames carry: of every 64-byte sector the aligned 8-byte words that are reached, as
an address and a length. -/
def pieces (as : List Nat) : List (Nat × Nat) :=
  ((as.map (· / 64)).eraseDups).map fun n =>
    let ws := (as.filter fun a => a / 64 = n).map (· / 8)
    let lo := ws.foldl min (8 * n + 7)
    (8 * lo, 8 * (ws.foldl max (8 * n) + 1 - lo))

/-- A pitch that has memory outside this module. -/
def Pitch.foreign (s : State) (p : Pitch) : Bool := p.regions != [] || p.members.any fun m => m.1 != s.fab.moduleId

/-- The pieces of an item's addresses that lie outside the module, with their keys and the frame's address. -/
def Pitch.abroad (s : State) (p : Pitch) (as : List Nat) : List (Nat × Nat × Bool × Nat) :=
  if !p.foreign s then []
  else (pieces as).filterMap fun x => match translate s p x.1 with
    | some (.cell _ k) => (fabricDest p k).map fun d => (k, x.2, d.1, d.2)
    | _ => none

/-- One piece read or written over the fabric for an item. -/
def State.transfer (s : State) (die typ : Nat) (k : ItemKey) (x : Nat × Nat × Bool × Nat) : State :=
  s.originate die
    { typ := typ, pitchAddr := x.2.2.1, len := x.2.1, tag := k.tag, dest := x.2.2.2, srcModule := s.fab.moduleId, srcDie := die
      payload := if typ = 1 then (List.range x.2.1).map fun i => memGet s.mem (x.1 + i) else [] } (some k)

/-- The addresses that an item reads (R120, R152). -/
def Item.readAddrs (i : Item) : List Nat :=
  ((([0, 1, 2].filter i.w.present).filterMap i.operand?).flatMap fun o => o.desc.byteAddrs) ++
  (i.operand? 0).elim [] fun o => i.w.recordAddrs o.desc

/-- What an item reads outside the module is read over the fabric. -/
def State.fetchAbroad (s : State) (p : Pitch) (i : Item) : State :=
  (p.abroad s i.readAddrs).foldl (fun s x => s.transfer ((i.place? s p).elim 0 (·.die)) 2 i.key x) s

/-- What an item has written outside the module is written over the fabric. -/
def State.storeAbroad (s : State) (p : Pitch) (i : Item) : State :=
  (p.abroad s i.written).foldl (fun s x => s.transfer ((i.place? s p).elim 0 (·.die)) 1 i.key x) s

/-- A transaction of an item is open, or waits to begin. -/
def State.inTransit (s : State) (k : ItemKey) : Bool :=
  s.dies.any fun d => d.txns.any (fun t => t.owner = some k) || d.backlog.any fun x => x.2 = some k

/-! ### Signals (R150) -/

/-- The counter update of a completing item. A LOOSE item sets TAINT whatever its status (DESIGN CHOICE,
notes/assumptions/64.md). -/
def Counter.signal (c : Counter) (w : WDesc) (status : Nat) (loose : Bool) : Counter :=
  if w.typ = tySignal && w.c 0 2 = 1 && status = stOk then ⟨w.sigValue, false, false⟩
  else
    { value := min (c.value + w.sigValue) (2 ^ 64 - 1)
      fault := c.fault || !(status = stOk || status = stDegraded)
      taint := c.taint || loose }

def Pitch.counter (p : Pitch) (n : Nat) : Counter := lookupD p.counters n {}
def Pitch.setCounter (p : Pitch) (n : Nat) (c : Counter) : Pitch := { p with counters := insertKey p.counters n c }

/-- The item's signal applied. -/
def Pitch.signalItem (p : Pitch) (i : Item) : Pitch :=
  let w := i.w
  if Config.counters ≤ w.sigId then p
  else p.setCounter w.sigId ((p.counter w.sigId).signal w i.result.status i.loose)

/-- What an item's wait says now: `none` while it holds, true when it is satisfied, false when FAULT ends it (R150). -/
def waitState (p : Pitch) (w : WDesc) : Option Bool :=
  if w.waitId = 0xFFFF then some true
  else
    let c := p.counter w.waitId
    if c.fault then some false else if w.waitValue ≤ c.value then some true else none

/-- The item is LOOSE by its mark or through a tainted counter (R53, R150). -/
def looseNow (p : Pitch) (i : Item) : Bool :=
  i.loose || (i.w.waitId != 0xFFFF && (p.counter i.w.waitId).taint)

/-! ### Completion (R154) -/

/-- The 64-byte completion record. -/
def completionRecord (i : Item) : Bytes :=
  let r := i.result
  let bad := !(r.status = stOk || r.status = stDegraded)
  let rg := fun (x : Nat × Nat) => if bad then le 8 x.1 ++ le 8 x.2 else le 16 0
  le 8 i.key.seq ++ le 2 r.status ++ le 1 i.w.typ ++ le 1 (cflags r i.loose) ++ le 1 r.failSlot ++ le 1 r.failStep ++
  le 2 0 ++ le 4 r.nInvalid ++ le 4 r.nAccSat ++ le 4 r.nRdOvf ++ le 4 (if bad then r.slots.toNat else 0) ++
  rg r.range0 ++ rg r.range1

/-- Items in flight on a home die (R145): consumed from queues homed on it and not yet completed. -/
def Pitch.inFlight (p : Pitch) (home : Nat) : Nat :=
  (p.items.filter fun i => (p.queue? i.key.queue).elim false fun q => q.homeLdie = home).length

/-- DIE_LIMIT of the queues homed on a die follows its count (R145). -/
def Pitch.refreshLimit (p : Pitch) (home : Nat) : Pitch :=
  let full := Config.maxInFlight ≤ p.inFlight home
  { p with queues := p.queues.map fun q => if q.homeLdie = home then { q with dieLimit := full } else q }

/-- The notification of a completed item (R154): a post that cannot be written is lost, with an event. -/
def State.notify (s : State) (k : ItemKey) (addr : Nat) : State :=
  if addr = 0 then s
  else match pitchWriteAll s k.tag addr (le 8 k.seq) with
    | .ok s => s
    | .error _ => s.logFact 6 "NOTIFY_LOST" none noDie k.tag addr

/-- The slots of the region that a COLLECTIVE names (R157, R240). -/
def Item.region (i : Item) : BitVec 32 :=
  if i.w.typ = tyColl && i.w.c 4 1 = 1 then (BitVec.ofNat 32 (2 ^ i.w.c 13 6 - 1)) <<< i.w.c 8 5 else 0

/-- Slots of an item's logical cluster become undefined: in its cluster or, where its logical cluster is not loaded, beside it
(R161). -/
def State.loseSlots (s : State) (p : Pitch) (i : Item) (mask : BitVec 32) : State :=
  if mask = 0 then s
  else match i.place? s p with
    | none => s
    | some pl =>
      if (s.cluster pl).current = some i.w.lcluster then s.undefineSlots pl mask
      else (s.updPitch p.tag fun p =>
        { p with swapped := p.swapped.map fun x =>
            if x.lcluster = i.w.lcluster then { x with slots := freeSlots s.free mask x.slots } else x }).draw

/-- The item has completed, or is to complete, with OK or DEGRADED. -/
def Item.succeeded (i : Item) : Bool := i.result.status = stOk || i.result.status = stDegraded

/-- A COLLECTIVE that completes with a status other than OK or DEGRADED leaves its region's slots undefined (R241). One that
validation rejects has no effect (R3). -/
def State.endRegion (s : State) (p : Pitch) (i : Item) : State :=
  if i.succeeded || i.result.failStep != 0 then s else s.loseSlots p i i.region

/-- The fixed bytes of a collective: DESC3's descriptor and frame record, or its block reference record. -/
def Item.collDest (i : Item) : Bytes := ((i.descs.getD 3 none).elim [] fun d => d.1 ++ d.2.getD [])

/-- The root's D as the records of an aborted collective list it (R154): nothing for a delivery. -/
def collRange (control : Nat) (dest : Bytes) : Nat × Nat :=
  if bits control 2 2 = 2 || dest = [] then (0, 0) else spanRange (parseDesc dest).elemSpan

/-! ### Accesses without an order (R73, R92)

An order through signal counters lets an item be dispatched only after the item before it has completed. So two items that are
dispatched and not completed at the same time have none; what meets between them is noted as the later one is dispatched, and becomes
undefined as each of the two completes (notes/assumptions/53.md). -/

/-- The bit addresses and widths of the elements of the strip at view index v, and of its scale byte. -/
def TDesc.bitsAt (t : TDesc) (v : List Int) : List (Nat × Nat) :=
  let k := t.stripOff v
  let w := elemWidth t.fmt
  ((t.lanesIn v).map fun l => ((8 * ((t.base : Int) + k * stripBytes t.fmt) + (t.stored l * w : Nat)).toNat, w)) ++
  if t.scaled && t.lanesIn v != [] then [(8 * t.scaleAddr k, 8)] else []

/-- The elements that an item writes: those of D, or SAMPLE output records. -/
def Item.writes (i : Item) : List (Nat × Nat) :=
  match i.dest? with
  | some o => o.desc.boxStrips.flatMap o.desc.bitsAt
  | none => if i.w.isSample then
      (i.operand? 0).elim [] fun o => (List.range (rowCount o.desc (i.w.c 16 3))).map fun r => (8 * (i.w.addr 3 + 8 * r), 64)
    else []

/-- The elements and parameter records that it reads. -/
def Item.reads (i : Item) : List (Nat × Nat) :=
  ((([0, 1, 2].filter i.w.present).filterMap i.operand?).flatMap fun o => o.desc.boxStrips.flatMap o.desc.bitsAt) ++
  (i.operand? 0).elim [] fun o => (i.w.recordAddrs o.desc).map fun a => (8 * a, 8)

/-- Two ranges of bits meet. -/
def bitsMeet (a b : Nat × Nat) : Bool := a.1 < b.1 + b.2 && b.1 < a.1 + a.2

/-- How an item reaches a slot. -/
inductive SlotUse where
  | read
  | clear
  | write
  | add
  deriving DecidableEq, Repr

/-- The slots that an item reaches (R91, R157). -/
def Item.slotUses (i : Item) : List (Nat × SlotUse) :=
  let w := i.w
  if w.typ = tyMma && w.c 0 3 = 0 then
    let n := List.range (mmaTiles w i.operands)
    (if w.usesIn then n.map fun j => (w.slotIn + j, if w.accIn = 1 then .read else .clear) else []) ++
    (if w.usesOut then n.map fun j => (w.slotOut + j, if w.accOut = 1 then .write else .add) else [])
  else if i.region = 0 then [] else (maskBits i.region.toNat 32).map fun n => (n, .read)

/-- Two uses of one slot need an order (R92). -/
def slotsClash (a b : Nat × SlotUse) : Bool :=
  a.1 = b.1 && !(a.2 = .read && b.2 = .read) && !(a.2 = .add && b.2 = .add)

/-- Contributors of one collective, which share its D (R157). -/
def sameColl (i j : Item) : Bool := i.w.typ = tyColl && j.w.typ = tyColl && i.w.param = j.w.param

/-- What meets between an item and another one without an order to it, as the first one notes it. -/
def Item.against (i j : Item) : Item :=
  if sameColl i j then i
  else
    let us := if i.w.lcluster = j.w.lcluster then i.slotUses.filter fun a => j.slotUses.any (slotsClash a) else []
    { i with
      clash := i.clash ++ i.writes.filter fun e => j.writes.any (bitsMeet e)
      stale := i.stale || i.reads.any (fun e => j.writes.any (bitsMeet e)) || us.any fun a => a.2 = .read || a.2 = .clear
      clashSlots := us.foldl (fun m a => m ||| (1#32 <<< a.1)) i.clashSlots }

/-- An item is dispatched for the first time: it meets those that are dispatched already. -/
def Pitch.meetItems (p : Pitch) (k : ItemKey) : Pitch :=
  let others := p.items.filter fun j => j.key != k && j.dispatched
  { p with items := p.items.map fun j =>
      if j.key = k then others.foldl Item.against j else if j.dispatched then ((p.item? k).elim j fun i => j.against i) else j }

/-- The lanes of a strip that a list of elements meets; of a scaled strip all or none, since they share its scale byte. -/
def TDesc.lanesMet (t : TDesc) (l : List (Nat × Nat)) (v : List Int) : List Nat :=
  let w := elemWidth t.fmt
  let at_ := fun (n : Nat) => ((8 * ((t.base : Int) + t.stripOff v * stripBytes t.fmt) + (t.stored n * w : Nat)).toNat, w)
  if t.scaled then (if (t.bitsAt v).any fun e => l.any (bitsMeet e) then List.range 32 else [])
  else (t.lanesIn v).filter fun n => l.any (bitsMeet (at_ n))

/-- What an item's unordered accesses leave undefined as it completes: the elements that another item wrote too, all of its results
where it read what another wrote, and the slots (R73, R92). -/
def State.settleRaces (s : State) (p : Pitch) (i : Item) : State :=
  if !i.succeeded then s
  else
    let rg := if i.w.typ = tyColl then collRange i.w.control i.collDest else i.result.range0
    let s := match i.dest? with
      | some o =>
        let s := if i.clash = [] then s else undefineLanes s p.tag o.desc (o.desc.lanesMet i.clash)
        if i.stale then undefineTensor s p.tag o.desc rg.1 rg.2 else s
      | none =>
        let s := i.clash.foldl (fun (s : State) (e : Nat × Nat) => s.undefineBytes p.tag (e.1 / 8) ((e.1 + e.2) / 8)) s
        if i.stale then s.undefineBytes p.tag i.result.range1.1 i.result.range1.2 else s
    s.loseSlots p i (i.clashSlots ||| if i.stale then i.result.slots else 0)

/-- An item whose outcome is fixed completes: its record, then its signal, then its notification; it leaves the queue's
in-flight count, its staging allowance returns, and a WAIT item stops holding consumption (R150, R152, R154). The owner
of a queue of its own keeps the item's status in place of a record (notes/assumptions/12.md). -/
def State.completeItem (s : State) (k : ItemKey) : State :=
  match s.pitch? k.tag with
  | none => s
  | some p => match p.item? k, p.queue? k.queue with
    | some i, some q =>
      let s := ((s.endRegion p i).settleRaces p i).spoilItem k i
      let s := if q.own then s else s.tryWrite k.tag (q.compBase + 64 * (k.seq % q.ringSize)) (completionRecord i)
      let s := s.updPitch k.tag fun p =>
        let p := p.signalItem i
        let p := { p with items := p.items.filter fun x => x.key != k }
        let p := p.updQueue k.queue fun q =>
          { q with recorded := if q.own then q.recorded else insertNat q.recorded k.seq
                   ended := if q.own then q.ended ++ [(k.seq, i.result.status)] else q.ended
                   sampled := if q.own && i.rows != [] && !i.stale && i.clash = [] then q.sampled ++ [(k.seq, i.w.param, i.rows)] else q.sampled
                   atWait := if q.atWait = some k.seq then none else q.atWait }
        p.refreshLimit q.homeLdie
      if i.w.notify || !(i.result.status = stOk || i.result.status = stDegraded) then s.notify k q.notifyAddr else s
    | _, _ => s

/-- An item that completes at once with a status, without running and without ranges. -/
def State.completeWith (s : State) (k : ItemKey) (status : Nat) : State :=
  (s.updItem k fun i => { i.finish status with result := { status := status } }).completeItem k

/-! ### Collectives that end without a result (R155, R241, R279) -/

/-- SEED, STREAM and OFFSET of a drawing item. -/
def Item.collDraw (i : Item) : Bytes := slice i.wd 56 24 ++ le 8 i.offset

/-- The values of two control words that contributors must agree on (R157). -/
def collFixed (c : Nat) : List Nat :=
  [bits c 0 2, bits c 2 2, bits c 19 12] ++ (if bits c 2 2 = 1 then [bits c 43 2, bits c 45 1] else [])

/-- A later contributor agrees with the first, and repeats no CINDEX (R157). -/
def Coll.accepts (c : Coll) (i : Item) : Bool :=
  collFixed c.control = collFixed i.w.control && c.dest = i.collDest &&
  (!(bits c.control 2 2 = 1 && modeOf (bits c.control 43 2) = .sr) || c.draw = i.collDraw) &&
  c.contributors.all fun x => x.cindex != i.w.c 31 12

/-- The index of a COLLECTIVE among its contributors (R157). -/
def Item.cindex (i : Item) : Nat := i.w.c 31 12

/-- An aborted collective that awaits this contributor. -/
def Pitch.owed? (p : Pitch) (i : Item) : Option AbortedColl :=
  p.aborted.find? fun a => a.ident = i.w.param && a.missing.contains i.cindex

/-- The contributor has come: once none is awaited, the collective is forgotten. -/
def payAborted (ident cindex : Nat) : List AbortedColl → List AbortedColl
  | [] => []
  | a :: l =>
    if a.ident = ident && a.missing.contains cindex then
      if a.missing.erase cindex = [] then l else { a with missing := a.missing.erase cindex } :: l
    else a :: payAborted ident cindex l

def Pitch.pay (p : Pitch) (i : Item) : Pitch := { p with aborted := payAborted i.w.param i.cindex p.aborted }

/-- A delivering collective was aborted: the block's step, unless it has ended, is to end as Missed (R241, R279). -/
def Run.markAborted (x : Run) (r : BlockRef) : Run :=
  if x.id = r.run && !x.aborts.contains (r.layerTag, r.block, r.step) &&
      x.blocks.any (fun c => c.layer = r.layerTag && c.block = r.block && c.step ≤ r.step) then
    { x with aborts := x.aborts ++ [(r.layerTag, r.block, r.step)] }
  else x

/-- The root's side of an abort: D is undefined where the records list it, and a delivery's block ends its step as Missed. -/
def State.abortRoot (s : State) (tag control : Nat) (dest : Bytes) : State :=
  let rg := collRange control dest
  let s := if rg.1 < rg.2 then
      (undefineTensor s tag (parseDesc dest) rg.1 rg.2).spoilAddrs tag none (parseDesc dest).byteAddrs else s
  if bits control 2 2 = 2 then
    s.updPitch tag fun p => { p with runs := p.runs.map fun x => x.markAborted (parseBlockRef dest) }
  else s

/-- The item ends ABORTED with the root's D in RANGE1 (R154). -/
def Item.endAborted (rg : Nat × Nat) (i : Item) : Item :=
  { i with phase := .finished, latched := false, result := { i.result with status := stAborted, range1 := rg } }

/-- Contributors that are consumed and have not started, the first of each index that is still due. -/
def Pitch.siblings (p : Pitch) (ident : Nat) (due : List Nat) : List Item :=
  p.items.foldl (fun acc i =>
    if i.w.typ = tyColl && i.w.param = ident && due.contains i.cindex &&
        (i.phase = .waiting || (i.phase = .ready && !i.dispatched)) && acc.all (fun j => j.cindex != i.cindex)
    then acc ++ [i] else acc) []

/-- A collective ends without a result once contributors of the indices `ended` have ended: those that wait end too, and those
that have not come end when they do. -/
def State.abortRest (s : State) (tag ident control : Nat) (dest : Bytes) (ended : List Nat) : State :=
  match s.pitch? tag with
  | none => s
  | some p =>
    let rg := collRange control dest
    let due := (List.range (bits control 19 12 + 1)).filter fun n => !ended.contains n
    let sib := p.siblings ident due
    let missing := due.filter fun n => sib.all fun i => i.cindex != n
    let s := sib.foldl (fun s i => s.updItem i.key fun i => i.endAborted rg) (s.abortRoot tag control dest)
    s.updPitch tag fun p =>
      { p with aborted := if missing = [] then p.aborted else p.aborted ++ [⟨ident, missing, rg⟩] }

/-- The die of the root (R157): that of D's first byte, or the first die of the pitch for a delivery. -/
def State.rootDie (s : State) (tag : Nat) (c : Coll) : Nat :=
  (s.pitch? tag).elim 0 fun p => match translate s p (parseDesc c.dest).base with
    | some (.cell _ k) => k / 2 ^ 43 % 32
    | _ => p.dies.headD 0

/-- A COLL_DOWN frame to a contributor on another module (R343). -/
def State.sendDown (s : State) (die tag : Nat) (src : Nat × Nat × Nat) (d : Config.CollDown) : State :=
  if !s.fab.assigned then s
  else s.toRouter die
    ⟨{ typ := 8, len := (Config.collDownPayload d).length, tag := tag, dest := src.1 * 2 ^ 48 + src.2.1 * 2 ^ 43
       srcModule := s.fab.moduleId, srcDie := die, txn := src.2.2, payload := Config.collDownPayload d }, false, s.now, none, false⟩

/-- The same to every such contributor of a collective. -/
def State.tellDown (s : State) (tag : Nat) (c : Coll) (d : Config.CollDown) : State :=
  (c.contributors.filterMap (·.source)).foldl (fun s src => s.sendDown (s.rootDie tag c) tag src d) s

/-- The end of a collective as a COLL_DOWN tells it. -/
def endDown (ident : Nat) (o : Outcome) : Config.CollDown :=
  { ident := ident, anchors := [], ended := true, status := o.status, flags := [o.invalid, o.accSat, o.rdOvf, o.ancSat]
    counts := [o.nInvalid, o.nAccSat, o.nRdOvf] }

/-- The whole collective ends: every contributor is ABORTED with the root's D in RANGE1 (R155); `ended` are the indices of
those that ended before they registered. -/
def State.abortColl (s : State) (tag ident : Nat) (ended : List Nat) : State :=
  match s.pitch? tag with
  | none => s
  | some p => match p.colls.find? fun c => c.ident = ident with
    | none => s
    | some c =>
      let s := if c.root.isNone then s.tellDown tag c (endDown ident { status := stAborted }) else s
      let s := c.contributors.foldl (fun s x =>
        s.updItem x.key fun i => i.endAborted (collRange c.control c.dest)) s
      let s := s.updPitch tag fun p => { p with colls := p.colls.filter fun x => x.ident != ident }
      s.abortRest tag ident c.control c.dest (ended ++ c.contributors.map (·.cindex))

/-- A COLLECTIVE that ends ABORTED without contributing ends its whole collective (R155, R241), and where its own record is
still to be written it lists the root's D; of any other item nothing follows. -/
def State.abortWhole (s : State) (k : ItemKey) (i : Item) : State :=
  if i.w.typ != tyColl then s
  else match s.pitch? k.tag with
    | none => s
    | some p => match p.owed? i with
      | some a => (s.updPitch k.tag fun p => p.pay i).updItem k fun i => i.endAborted a.range
      | none => match p.colls.find? fun c => c.ident = i.w.param with
        | some c =>
          if c.accepts i then
            (s.abortColl k.tag i.w.param [i.cindex]).updItem k fun i => i.endAborted (collRange c.control c.dest)
          else s
        | none =>
          if i.collDest = [] then s
          else (s.abortRest k.tag i.w.param i.w.control i.collDest [i.cindex]).updItem k fun j =>
            j.endAborted (collRange i.w.control i.collDest)

/-- The abort of a contributor whose collective has its result, before its record is written: the contributors without a
record are ABORTED (R155). -/
def State.abortResult (s : State) (k : ItemKey) (i : Item) : State :=
  let rg := collRange i.w.control i.collDest
  (s.updPitch k.tag fun p =>
    { p with items := p.items.map fun x =>
        if x.w.typ = tyColl && x.w.param = i.w.param && x.phase = .finished && x.result.status = stOk then x.endAborted rg
        else x }).abortRoot k.tag i.w.control i.collDest

/-! ### Abort (R155) -/

/-- An item that is not dispatched completes ABORTED at once, by WORK_ABORT or by FAULT on its counter. A COLLECTIVE takes its
whole collective with it, and its record lists the root's D (R155, R241), also where FAULT ended it (DESIGN CHOICE,
notes/assumptions/59.md). -/
def State.abortNow (s : State) (k : ItemKey) : State :=
  match s.item? k with
  | none => s
  | some i =>
    if i.w.typ = tyColl then ((s.updItem k fun i => i.endAborted (0, 0)).abortWhole k i).completeItem k
    else s.completeWith k stAborted

/-- The abort of a consumed item: at once before dispatch, latched while it runs, and for the whole collective of a
contributor that is not yet complete. -/
def State.abortItem (s : State) (k : ItemKey) : State :=
  match s.item? k with
  | none => s
  | some i => match i.phase with
    | .waiting => s.abortNow k
    | .ready => if i.dispatched then s.updItem k fun i => { i with latched := true } else s.abortNow k
    | .running => s.updItem k fun i => { i with latched := true }
    | .anchoring => s.abortColl k.tag i.w.param []
    | .finished =>
      if i.w.typ = tyColl && i.result.status = stOk then s.abortResult k i else s.failItem k stAborted

/-- An item of the pitch's queue that the abort range covers. -/
def inRange (lo hi : Nat) (queue : Nat) (i : Item) : Bool := i.key.queue = queue && lo ≤ i.key.seq && i.key.seq ≤ hi

/-- Every consumed item of a queue in [lo, hi] aborted. -/
def State.abortConsumed (s : State) (tag queue lo hi : Nat) : State :=
  match s.pitch? tag with
  | none => s
  | some p => ((p.items.filter (inRange lo hi queue)).map (·.key)).foldl State.abortItem s

end Sys2Proof.Machine
end

