-- ==== Sys2Proof/Machine/Arrays.lean ====
section
/-! DEFINITION. The arrays (R79 to R98): the tiles of an MMA, their exact accumulation (R34 to R37, R85), the disposal of a
tile at its hand-off (R89 to R93), and element-wise items (R97, R98). -/

namespace Sys2Proof.Machine

open Sys2Proof

/-! ### Positions -/

/-- The position in a view of the element with index `i` of a named length: on the strip dimension the tail lanes are
passed over (R83). -/
def TDesc.posOf (t : TDesc) (d i : Nat) : Nat :=
  if d = t.stripDim && 32 * (t.dim d).padLo + t.chan ≤ i then i + (32 - t.tail) else i

/-- The position of an operand with dimensions 1 and 2 at the given positions and the batch index where it has one. -/
def TDesc.at3 (t : TDesc) (x1 x2 b : Nat) : List Nat := [x1, x2] ++ (if t.ndim = 3 then [b] else [])

/-- The element format of an operand that passed step 6. -/
def TDesc.fmtE (t : TDesc) : Fmt := (fmtOf t.fmt).getD .int8

/-- The strips that hold the elements [lo, lo + n) of the strip dimension, each with its lanes and the elements' indices
from `lo`. -/
def TDesc.stripsOf (t : TDesc) (lo n : Nat) : List (Nat × List (Nat × Nat)) :=
  (List.range n).foldl (fun acc j =>
    let x := t.posOf t.stripDim (lo + j)
    match acc.getLast? with
    | some (sp, ls) => if sp = x / 32 then acc.dropLast ++ [(sp, ls ++ [(x % 32, j)])] else acc ++ [(x / 32, [(x % 32, j)])]
    | none => [(x / 32, [(x % 32, j)])]) []

/-- A value by lane, with a default. -/
def byLane {α : Type} (d : α) (ls : List (Nat × α)) : List α := (List.range 32).map fun l => lookupD ls l d

/-! ### Accumulator slots (R91) -/

def Cluster.slot (c : Cluster) (n : Nat) : List Acc :=
  let part := c.slots.filter fun e => n * 1024 ≤ e.1 && e.1 < (n + 1) * 1024
  (List.range 1024).map fun j => lookupD part (n * 1024 + j) {}

/-- A slot overwritten; a zero accumulator is not listed. -/
def Cluster.setSlot (c : Cluster) (n : Nat) (accs : List Acc) : Cluster :=
  let lo := c.slots.filter fun e => e.1 < n * 1024
  let hi := c.slots.filter fun e => (n + 1) * 1024 ≤ e.1
  { c with slots := lo ++ ((accs.zipIdx.map fun x => (n * 1024 + x.2, x.1)).filter fun x => x.2 != {}) ++ hi }

/-! ### One exact sum (R32, R35 to R37) -/

/-- An operand element under its non-finite mode, and whether it is non-finite. -/
def readArray (s : State) (p : Pitch) (t : TDesc) (sat : Bool) (x : List Nat) : Except Nat (Num × Bool) :=
  match readElem s p t x with
  | .error e => .error e
  | .ok (c, sc) => .ok (arrayOperand t.fmtE sat sc (decode t.fmtE c sc))

/-- Products added into an accumulator: the accumulator, whether a non-finite operand contributed, and whether the addition
saturated it. `k` numbers its free values. -/
def Acc.mac (k : Nat) (sat : Bool) (a : Acc) (xs ys : List (Num × Bool)) : Acc × Bool × Bool :=
  let bad := (xs.any (·.2)) || (ys.any (·.2))
  let b := a.addAll k ((xs.zip ys).map fun p => product p.1.1 p.2.1)
  (if bad && !sat then { b with inv := true } else b, bad, b.sat && !a.sat)

/-! ### Tiles of an MMA (R85, R91) -/

/-- The lengths of an MMA: M, N, K and batch; an item of slots only has whole tiles. -/
structure MmaDims where
  m : Nat
  n : Nat
  k : Nat
  batch : Nat
  mt : Nat
  nt : Nat
  tiles : Nat
  deriving DecidableEq, Repr

def mmaDims (w : WDesc) (os : List Operand) : MmaDims :=
  let mt := shapeMt (w.c 3 3)
  let nt := shapeNt (w.c 3 3)
  if w.slotsOnly then ⟨mt, nt * w.ntiles, 0, 1, mt, nt, w.ntiles⟩
  else
    let m := lenOf w os 0 1
    let n := lenOf w os 1 1
    let b := lenOf w os 3 1
    ⟨m, n, lenOf w os 2 0, b, mt, nt, tileCount (w.c 3 3) m n b⟩

/-- The batch index and the first row and column of tile `t`: N tiles outermost, M tiles inner (R85). -/
def MmaDims.origin (d : MmaDims) (t : Nat) : Nat × Nat × Nat :=
  let nm := ceilDiv d.m d.mt
  let nn := ceilDiv d.n d.nt
  (t / (nm * nn), t % nm * d.mt, t / nm % nn * d.nt)

/-- The elements of one row of A or one column of B over the whole K range, with the pad positions of the last strip
(R75, R84). A and B meet lane by lane, whatever their channel tails and pad strips (DESIGN CHOICE, notes/assumptions/64.md).
Tiles of 32 along X are counted from the first view position, pads included: where PAD_LO of X is above 0 the
spec does not say where a tile begins (DESIGN CHOICE, notes/assumptions/60.md); no result depends on it but the number of
pad products at the end. -/
def kVector (s : State) (p : Pitch) (t : TDesc) (sat trans : Bool) (k i b : Nat) : Except Nat (List (Num × Bool)) :=
  mapE (fun j => readArray s p t sat (if trans then t.at3 (t.posOf 1 i) j b else t.at3 j i b)) (List.range (roundUp k 32))

/-- What a tile's accumulators start from (R91); a read of an uncorrectable slot fails (R177). -/
def tileStart (s : State) (p : Pitch) (w : WDesc) (os : List Operand) (pl : Place) (d : MmaDims) (t : Nat) :
    Except Nat (List Acc) :=
  if w.usesIn then
    let old := (s.cluster pl).slot (w.slotIn + t)
    if old.any (·.bad) then .error stUncorrectable else .ok old
  else if w.accIn = 3 then
    match os.find? fun o => o.slot = 2 with
    | none => .ok (List.replicate 1024 {})
    | some o =>
      let (b, m0, n0) := d.origin t
      mapE (fun j =>
        let m := m0 + j / d.nt
        let n := n0 + j % d.nt
        if m < d.m && n < d.n then readAcc s p o.desc (o.desc.at3 (o.desc.posOf 1 n) m b) else .ok {}) (List.range 1024)
  else .ok (List.replicate 1024 {})

/-- The working accumulators of tile `t` with all its products, and the flags that these raised (R90). The accumulators of
positions beyond M or N take no product: what goes into a slot there is what they start from, which the spec does not say
(DESIGN CHOICE, notes/assumptions/60.md). -/
def tileAccs (s : State) (p : Pitch) (w : WDesc) (os : List Operand) (pl : Place) (d : MmaDims) (t : Nat) :
    Except Nat (List Acc × Bool × Bool) :=
  match tileStart s p w os pl d t with
  | .error e => .error e
  | .ok start =>
    match os.find? fun o => o.slot = 0, os.find? fun o => o.slot = 1 with
    | some oa, some ob =>
      let (b, m0, n0) := d.origin t
      let rows := (List.range d.mt).filter fun r => m0 + r < d.m
      let cols := (List.range d.nt).filter fun c => n0 + c < d.n
      match mapE (fun r => kVector s p oa.desc w.saturate (w.c 6 1 = 1) d.k (m0 + r) b) rows,
          mapE (fun c => kVector s p ob.desc w.saturate (w.c 7 1 = 1) d.k (n0 + c) b) cols with
      | .error e, _ => .error e
      | _, .error e => .error e
      | .ok as, .ok bs =>
        let out := start.zipIdx.map fun x =>
          let r := x.2 / d.nt
          let c := x.2 % d.nt
          if m0 + r < d.m && n0 + c < d.n then
            x.1.mac (s.free * 1024 + x.2) w.saturate (as.getD r []) (bs.getD c [])
          else (x.1, false, false)
        .ok (out.map (·.1), out.any (·.2.1), out.any (·.2.2))
    | _, _ => .ok (start, false, false)

/-- The cluster runs the item on its arrays. -/
def runsArrays (s : State) (p : Pitch) (i : Item) : Option Place :=
  (i.place? s p).bind fun pl =>
    if (s.cluster pl).onArrays = some i.key && i.phase = .running && !i.latched then some pl else none

/-- MMA: the whole K range of the item's next tile passes through the cells (R85, R91). -/
def execMma (key : ItemKey) (s : State) : Host.Outcome State Fault Refusal :=
  .next (s.onItem key fun p i =>
    match runsArrays s p i with
    | none => s
    | some pl =>
      let w := i.w
      let d := mmaDims w i.operands
      if w.typ = tyMma && w.c 0 3 = 0 && (s.cluster pl).tile.isNone && i.tiles < d.tiles then
        match tileAccs s p w i.operands pl d i.tiles with
        | .error e => s.failMemory key e
        | .ok (accs, bad, sat) =>
          let s := s.updCluster pl fun c => { c with tile := some ⟨key, i.tiles, accs, bad, sat⟩ }
          let s := if w.accIn = 2 then
              (s.updCluster pl fun c => c.setSlot (w.slotIn + i.tiles) []).updItem key fun i =>
                i.touchSlot (w.slotIn + i.tiles)
            else s
          s.draw
      else s)

/-! ### The hand-off of a tile (R89 to R93) -/

/-- One strip of D from a tile's accumulators: read out, or written as an ACC record. -/
def tileStrip (key : ItemKey) (w : WDesc) (o : Operand) (m : OutMode) (v : List Int) (ls : List (Nat × Acc))
    (acc : State × Raised) : (State × Raised) × Option Nat :=
  let lanes := ls.map (·.1)
  let as := byLane {} ls
  let s := acc.1.updItem key fun i => i.wrote o.desc v
  if w.accOut = 3 then
    let k := kept s (writeAccRecord s key.tag o.desc v lanes as)
    ((k.1, acc.2), k.2)
  else
    let r := readoutStrip o.desc o.frame o.desc.fmtE m v lanes as
    let k := kept s (writeOut s key.tag o.desc v r)
    ((k.1, acc.2.or r.raised), k.2)

/-- The strips of D that a tile holds: view index and lanes with their accumulators. -/
def tileStrips (t : TDesc) (d : MmaDims) (tile : Nat) (accs : List Acc) : List (List Int × List (Nat × Acc)) :=
  let (b, m0, n0) := d.origin tile
  ((List.range d.mt).filter fun r => m0 + r < d.m).flatMap fun r =>
    (t.stripsOf n0 (min d.nt (d.n - n0))).map fun sp =>
      (t.viewIndex (t.at3 (32 * sp.1) (m0 + r) b), sp.2.map fun x => (x.1, accs.getD (r * d.nt + x.2) {}))

/-- A tile goes to its slot (R91): overwritten or added to; the flag is an addition that saturates the slot. -/
def State.tileToSlot (s : State) (pl : Place) (add : Bool) (n : Nat) (accs : List Acc) : State × Bool :=
  if add then
    let old := (s.cluster pl).slot n
    let new := (old.zip accs).map fun x => x.1.bufferAdd x.2
    (s.updCluster pl fun c => c.setSlot n new,
      ((old.zip accs).zip new).any fun x => x.2.sat && !x.1.1.sat && !x.1.2.sat)
  else (s.updCluster pl fun c => c.setSlot n accs, false)

/-- A tile is disposed of: its outcome joins the item's, and after the last one the item is finished. -/
def State.tileDone (s : State) (pl : Place) (key : ItemKey) (total : Nat) (r : Raised) : State :=
  let s := s.updCluster pl fun c => { c with tile := none }
  let s := s.updItem key fun i => { i with tiles := i.tiles + 1, result := i.result.addTile r }
  if ((s.item? key).elim 0 (·.tiles)) < total then s
  else (s.leaveEngine pl key).updItem key fun i => { i with phase := .finished, result := { i.result with status := stOk } }

/-- ARRAY_TILE_HANDOFF: the tile's accumulators go to D or to their slot, and the arrays are free for a switch (R95).
BUFFER_ADD reads its slot, which fails where a word of it is uncorrectable (R177). -/
def execArrayTileHandoff (key : ItemKey) (s : State) : Host.Outcome State Fault Refusal :=
  .next (s.onItem key fun p i =>
    match runsArrays s p i with
    | none => s
    | some pl => match (s.cluster pl).tile with
      | none => s
      | some x =>
        if x.key != key then s
        else
          let w := i.w
          let d := mmaDims w i.operands
          let own : Raised := ⟨x.invalid, x.accSat, false⟩
          if w.usesOut && w.accOut = 2 && ((s.cluster pl).slot (w.slotOut + x.tile)).any (·.bad) then
            s.failMemory key stUncorrectable
          else if w.usesOut then
            let r := s.tileToSlot pl (w.accOut = 2) (w.slotOut + x.tile) x.accs
            (r.1.updItem key fun i => i.touchSlot (w.slotOut + x.tile)).tileDone pl key d.tiles (own.or ⟨false, r.2, false⟩)
          else match i.dest? with
            | none => s
            | some o =>
              let r := foldKeep (fun acc sp => tileStrip key w o i.outMode sp.1 sp.2 acc) (s, own)
                (tileStrips o.desc d x.tile x.accs)
              match r.2 with
              | some e => r.1.1.failMemory key e
              | none => r.1.1.tileDone pl key d.tiles r.1.2)

/-! ### Element-wise items (R97, R98) -/

/-- The exact value of one element: a × b + c, a × b, a + b or a, as an accumulator. -/
def ewValue (op : Nat) (sat : Bool) (xs : List (Num × Bool)) : Acc × Bool :=
  let one : Num × Bool := (.fin false 1 0, false)
  let x := fun (i : Nat) => (xs.getD i (.fin false 0 0, false))
  let r := Acc.mac 0 sat {} ([x 0] ++ (if op = 2 then [x 2] else if op = 3 then [x 1] else []))
    ([if op = 1 || op = 2 then x 1 else one] ++ [one])
  (r.1, r.2.1)

/-- The lanes of a view strip that hold elements or pads, but no tail lanes (R83). -/
def TDesc.viewLanes (t : TDesc) (v : List Int) : List Nat := (List.range 32).filter fun l => !t.onTail v l

/-- The index in each dimension of a lane of the view strip at view index v, as named lengths count it (R83). -/
def TDesc.idxAt (t : TDesc) (v : List Int) (l : Nat) : List Nat :=
  v.zipIdx.map fun (x : Int × Nat) =>
    let y := (x.1 + ((t.dim (x.2 + 1)).padLo : Int)).toNat
    if x.2 + 1 = t.stripDim then
      (if 32 * (t.dim t.stripDim).padLo + t.chan ≤ 32 * y + l then 32 * y + l - (32 - t.tail) else 32 * y + l)
    else y

/-- The position of the element with these indices. -/
def TDesc.posIdx (t : TDesc) (idx : List Nat) : List Nat := idx.zipIdx.map fun x => t.posOf (x.2 + 1) x.1

/-- One output strip of an element-wise item. -/
def ewStrip (key : ItemKey) (p : Pitch) (w : WDesc) (srcs : List Operand) (o : Operand) (m : OutMode)
    (acc : State × Raised) (v : List Int) : (State × Raised) × Option Nat :=
  let s := acc.1
  match mapE (fun l =>
      match mapE (fun (x : Operand) => readArray s p x.desc w.saturate (x.desc.posIdx (o.desc.idxAt v l))) srcs with
      | .error e => .error e
      | .ok xs => .ok (l, ewValue (w.c 0 3) w.saturate xs)) (o.desc.viewLanes v) with
  | .error e => (acc, some e)
  | .ok ls =>
    let r := readoutStrip o.desc o.frame o.desc.fmtE m v (List.range 32) (byLane {} (ls.map fun x => (x.1, x.2.1)))
    let bad : Raised := ⟨ls.any (·.2.2), false, false⟩
    let s := s.updItem key fun i => i.wrote o.desc v
    let k := kept s (writeOut s key.tag o.desc v r)
    ((k.1, (acc.2.or bad).or r.raised), k.2)

/-- One unit of 1,024 elements, 32 view strips, with its flags counted as a tile's (R98). -/
def ewUnit (key : ItemKey) (p : Pitch) (w : WDesc) (srcs : List Operand) (o : Operand) (m : OutMode) (s : State)
    (vs : List (List Int)) : State × Option Nat :=
  let r := foldKeep (ewStrip key p w srcs o m) (s, {}) vs
  match r.2 with
  | some e => (r.1.1, some e)
  | none => (r.1.1.updItem key fun i => { i with tiles := i.tiles + 1, result := i.result.addTile r.1.2 }, none)

/-- A whole item that an engine has run: finished with OK, or failed with what it had begun. -/
def State.endRun (r : State × Option Nat) (pl : Place) (key : ItemKey) : State :=
  match r.2 with
  | some e => r.1.failMemory key e
  | none =>
    (r.1.leaveEngine pl key).updItem key fun i =>
      { i with phase := .finished, result := { i.result with status := stOk } }

/-- EW_OPERATION: the next unit of 1,024 elements of an element-wise item; between two units the arrays stand at a hand-off
(R98), and after the last the item is finished. -/
def execEwOperation (key : ItemKey) (s : State) : Host.Outcome State Fault Refusal :=
  .next (s.onItem key fun p i =>
    match runsArrays s p i, i.dest? with
    | some pl, some o =>
      let w := i.w
      let vs := o.desc.viewStrips
      if w.typ = tyMma && w.c 0 3 != 0 && 32 * i.tiles < vs.length then
        let r := ewUnit key p w (i.operands.filter fun o => !o.dst) o i.outMode s ((vs.drop (32 * i.tiles)).take 32)
        if 32 * (i.tiles + 1) < vs.length then
          match r.2 with
          | some e => r.1.failMemory key e
          | none => r.1
        else State.endRun r pl key
      else s
    | _, _ => s)

end Sys2Proof.Machine
end

