-- ==== Sys2Proof/Machine/Blocks.lean ====
section
/-! DEFINITION. Gulper's records: model instances and sessions by name, the KV pool and its blocks (R190, R191, R204), the
prefix index (R200 to R203), output-ring records (R196), and the ends of requests and sessions (R199, R211, R296). -/

namespace Sys2Proof.Machine

open Sys2Proof

/-! ### Names -/

def Pitch.model? (p : Pitch) (id : Nat) : Option Model := p.models.find? fun m => m.id = id
def Pitch.updModel (p : Pitch) (id : Nat) (f : Model → Model) : Pitch :=
  { p with models := p.models.map fun m => if m.id = id then f m else m }
def State.model? (s : State) (tag id : Nat) : Option Model := (s.pitch? tag).bind fun p => p.model? id
def State.updModel (s : State) (tag id : Nat) (f : Model → Model) : State := s.updPitch tag fun p => p.updModel id f
def Model.session? (m : Model) (id : Nat) : Option Session := m.sessions.find? fun x => x.id = id
def Model.updSession (m : Model) (id : Nat) (f : Session → Session) : Model :=
  { m with sessions := m.sessions.map fun x => if x.id = id then f x else x }
def State.session? (s : State) (tag model id : Nat) : Option Session := (s.model? tag model).bind fun m => m.session? id
def State.updSession (s : State) (tag model id : Nat) (f : Session → Session) : State :=
  s.updModel tag model fun m => m.updSession id f
def Model.block? (m : Model) (id : Nat) : Option Block := m.blocks.find? fun b => b.id = id
def Model.updBlock (m : Model) (id : Nat) (f : Block → Block) : Model :=
  { m with blocks := m.blocks.map fun b => if b.id = id then f b else b }

/-- The session of the pitch with this ID that is not closing, and its instance. -/
def Pitch.session? (p : Pitch) (id : Nat) : Option (Model × Session) :=
  p.models.findSome? fun m => (m.session? id).bind fun x => if x.closing.isSome then none else some (m, x)

/-- The ID stands in the expiry list of an instance (R230). -/
def Pitch.expired (p : Pitch) (id : Nat) : Bool := p.models.any fun m => m.expired.contains id

/-- [a, a + n) is mapped bonded DRAM. Its mapping is uniform within a 2 MiB page (R165, R173). -/
def dramSpan (s : State) (p : Pitch) (a n : Nat) : Bool :=
  n = 0 || (List.range ((a + n - 1) / Config.pageBytes + 1 - a / Config.pageBytes)).all fun i =>
    kindAt s p ((a / Config.pageBytes + i) * Config.pageBytes) = some .dram

/-- [a, a + n) lies in the DRAM window of one logical cluster of a logical die (R190, R244, R271). -/
def windowOk (s : State) (p : Pitch) (ldie a n : Nat) : Bool :=
  a / 2 ^ 36 = ldie && a / 2 ^ 32 = (a + n - 1) / 2 ^ 32 && dramSpan s p a n

/-- Bytes that the spec leaves open in a response: free values. -/
def State.openBytes (s : State) (n : Nat) : Bytes := (List.range n).map (Config.undefinedByte s.free)

def Session.committed (x : Session) : Nat := x.tokens.length

/-- An admitted request is in PREFILL or DECODE (R214). -/
def Session.active (x : Session) : Option ActiveReq := if x.st = .prefill || x.st = .decode then x.req else none

/-! ### Blocks (R190, R191, R204) -/

def bsOwned : Nat := 1
def bsPending : Nat := 2
def bsHashed : Nat := 3
def bsCached : Nat := 4

/-- Bytes of a block on each die (R190). -/
def Model.blockBytes (m : Model) : Nat := 64 * m.kvPosBytes

/-- The pool address of a block on a die of the instance. -/
def Model.blockAddr (m : Model) (pool b : Nat) : Nat := pool + b * m.blockBytes

def Model.cached (m : Model) : Nat := (m.blocks.filter fun b => b.state = bsCached).length
def Model.freeBlocks (m : Model) : Nat := m.nblocks - m.blocks.length

/-- OUTSTANDING: blocks promised to admitted requests and not yet taken, those of shadows in this pool among them (R215). -/
def Pitch.outstanding (p : Pitch) (m : Model) : Nat :=
  (m.sessions.map fun x => x.active.elim 0 (·.reserved)).foldl (· + ·) 0 +
  ((p.models.filter fun t => t.spec && t.draftModel = m.id).flatMap fun t =>
    t.sessions.map fun x => x.active.elim 0 (·.shadowReserved)).foldl (· + ·) 0

/-- The CACHED block released least recently among those that pass a test. -/
def Model.oldestCached (m : Model) (ok : Block → Bool) : Option Block :=
  (sortBy (fun a b => a.released ≤ b.released) (m.blocks.filter fun b => b.state = bsCached && ok b)).head?

/-- The block that Gulper takes next (R204). -/
def Model.nextBlock (m : Model) : Option Nat :=
  let id := firstMissing (m.blocks.map (·.id)) m.blocks.length 0
  if id < m.nblocks then some id
  else match m.oldestCached fun b => !m.staleReuse && b.epochHi < m.epoch with
    | some b => some b.id
    | none => (m.oldestCached fun _ => true).map (·.id)

/-- A block taken: its descriptor is new and its owner a session. -/
def Model.takeBlock (m : Model) (owner : Nat) : Model × Option Nat :=
  match m.nextBlock with
  | none => (m, none)
  | some id =>
    ({ m with blocks := (m.blocks.filter fun b => b.id != id) ++ [{ id := id, refcount := 1, state := bsOwned, owner := owner
                                                                    epochLo := m.epoch, epochHi := m.epoch }] },
     some id)

/-- One block released: at REFCOUNT 0 a HASHED block is CACHED, any other becomes FREE (R204). -/
def Model.releaseBlock (m : Model) (id : Nat) : Model :=
  match m.block? id with
  | none => m
  | some b =>
    if 1 < b.refcount then m.updBlock id fun b => { b with refcount := b.refcount - 1 }
    else if b.state = bsHashed then
      { (m.updBlock id fun b => { b with refcount := 0, state := bsCached, released := m.releases }) with
        releases := m.releases + 1 }
    else { m with blocks := m.blocks.filter fun b => b.id != id }

def Model.releaseBlocks (m : Model) (ids : List Nat) : Model := ids.foldl Model.releaseBlock m

/-- Blocks of a shadow released in the draft instance. -/
def Pitch.releaseShadow (p : Pitch) (m : Model) (ids : List Nat) : Pitch :=
  if m.spec then p.updModel m.draftModel fun d => d.releaseBlocks ids else p

/-! ### The prefix index (R200 to R203) -/

/-- A block stands in the index. -/
def Block.indexed (b : Block) : Bool := b.state = bsPending || b.state = bsHashed || b.state = bsCached

/-- HASH_j (R200). -/
def blockHash (key parent : Bytes) (model epoch : Nat) (tokens : List Nat) : Bytes :=
  (hmac384 key (padTo parent 16 ++ le 4 model ++ le 4 epoch ++ tokens.flatMap (le 4))).take 16

/-- PREFIX_KEY of this module for a pitch (R200). -/
def Pitch.prefixKey (p : Pitch) : Bytes := p.hashKey.elim [] fun k => Config.entropy 48 k

/-- The 64 tokens of block j. -/
def blockTokens (tokens : List Nat) (j : Nat) : List Nat := (tokens.drop (64 * j)).take 64

/-- The block of the index that a look-up finds: every field equal, not only the hash (R202). -/
def Model.lookup (m : Model) (hash parent : Bytes) (tokens : List Nat) (epoch : Nat) : Option Block :=
  m.blocks.find? fun b => b.indexed && b.hash = hash && b.parent = parent && b.tokens = tokens &&
    (m.staleReuse || (b.epochLo = epoch && b.epochHi = epoch))

/-- HASH of the block before block j of a session, 16 zero bytes for j = 0; `none` where the chain is broken. `pend` also
takes a PENDING block. -/
def Model.parentOf (m : Model) (x : Session) (pend : Bool) (j : Nat) : Option Bytes :=
  if j = 0 then some (List.replicate 16 0)
  else ((x.table[j - 1]?).bind m.block?).bind fun b =>
    if b.state = bsHashed || (pend && b.state = bsPending) then some b.hash else none

/-- E of R200 for a block's epoch. -/
def Model.hashEpoch (m : Model) (epoch : Nat) : Nat := if m.staleReuse then 0 else epoch

/-- HASH of the block before block j of a session, 16 zero bytes for j = 0, as R200 computes it: a HASHED block has its own; of
one that stays private the hash is that of its tokens and its epoch, and of one that spans epochs there is none (R202). -/
def Model.chainHash (p : Pitch) (m : Model) (x : Session) : Nat → Option Bytes
  | 0 => some (List.replicate 16 0)
  | j + 1 => match (x.table[j]?).bind m.block? with
    | none => none
    | some b =>
      if b.state = bsHashed then some b.hash
      else if !(m.staleReuse || b.epochLo = b.epochHi) then none
      else (Model.chainHash p m x j).map fun h => blockHash p.prefixKey h m.id (m.hashEpoch b.epochLo) (blockTokens x.tokens j)

/-- A session's block-table entry (R191): the block ID, SHARED, HASHED and PROVISIONAL. -/
def Model.tableEntry (m : Model) (x : Session) (j id : Nat) : Nat :=
  id + (m.block? id).elim 0 (fun b => (if 1 < b.refcount then 2 ^ 24 else 0) + if b.state = bsHashed then 2 ^ 25 else 0) +
  if x.kvValid ≤ 64 * j then 2 ^ 26 else 0

/-- Block j of a session enters the index in a state, if nothing there has its hash and the rules of R201 hold. -/
def Model.enter (m : Model) (p : Pitch) (x : Session) (state epoch j : Nat) : Model :=
  match (x.table[j]?).bind m.block?, m.parentOf x (state = bsPending) j with
  | some b, some parent =>
    let h := blockHash p.prefixKey parent m.id (m.hashEpoch epoch) (blockTokens x.tokens j)
    if !m.reuse || x.noPrefix || b.indexed || m.blocks.any fun c => c.indexed && c.hash = h then m
    else m.updBlock b.id fun b => { b with state := state, hash := h, parent := parent, tokens := blockTokens x.tokens j }
  | _, _ => m

/-- Blocks that a commit inserts (R201): PENDING ones become HASHED, and complete blocks not yet in the index enter it. -/
def Model.insertBlocks (m : Model) (p : Pitch) (sid : Nat) (js : List Nat) : Model :=
  js.foldl (fun m j =>
    match m.session? sid with
    | none => m
    | some x => match (x.table[j]?).bind m.block? with
      | none => m
      | some b =>
        if x.kvValid ≤ 64 * j + 63 || !(m.staleReuse || b.epochLo = b.epochHi) then m
        else if b.state = bsPending then m.updBlock b.id fun b => { b with state := bsHashed }
        else m.enter p x bsHashed b.epochLo j) m

/-- PENDING entries of a session leave the index (R203). -/
def Model.dropPending (m : Model) (sid : Nat) : Model :=
  { m with blocks := m.blocks.map fun b =>
      if b.state = bsPending && b.owner = sid then { b with state := bsOwned, hash := [], parent := [], tokens := [] } else b }

/-! ### Output records (R196) -/

/-- FLAGS of an output record. -/
def recordFlags (accepted bonus mixed fin : Bool) (reason status : Nat) : Nat :=
  (if accepted then 1 else 0) + (if bonus then 2 else 0) + (if mixed then 4 else 0) + (if fin then 8 else 0) +
  reason * 16 + status * 65536

/-- A 32-byte output record. -/
def outRecord (position token : Nat) (logprob : Nat) (epoch flags tag : Nat) : Bytes :=
  le 8 position ++ le 4 token ++ le 4 logprob ++ le 4 epoch ++ le 4 flags ++ le 8 tag

/-- END reasons (R196). -/
def endStop : Nat := 1
def endMaxNew : Nat := 2
def endMaxLen : Nat := 3
def endClosed : Nat := 4
def endFailed : Nat := 5
def endInvalidRow : Nat := 6

/-- Records of the session that have no room yet, and those that have: CONSUMED above PRODUCED is read as PRODUCED. -/
def ringRoom (s : State) (p : Pitch) (x : Session) : Nat :=
  match readBytes s p (x.outBase + 8) 8 with
  | .error _ => 0
  | .ok b => x.outSlots - (x.produced - min (number b) x.produced)

/-- The session is HELD: its ring is full, or records wait for room (R192, R196). -/
def Session.held (s : State) (p : Pitch) (x : Session) : Bool := x.waiting != [] || ringRoom s p x = 0

/-- Waiting records written while the ring has room; PRODUCED advances after them (R196). -/
def State.flushRecords (s : State) (tag model sid : Nat) : State :=
  match s.pitch? tag, s.session? tag model sid with
  | some p, some x =>
    let n := min (ringRoom s p x) x.waiting.length
    if n = 0 then s
    else
      let s := (x.waiting.take n).zipIdx.foldl (fun s r =>
        s.tryWrite tag (x.outBase + 64 + 32 * ((x.produced + r.2) % x.outSlots)) r.1) s
      (s.tryWrite tag x.outBase (le 8 (x.produced + n))).updSession tag model sid fun x =>
        { x with produced := x.produced + n, waiting := x.waiting.drop n }
  | _, _ => s

/-- Records of a session, written as the ring has room. -/
def State.pushRecords (s : State) (tag model sid : Nat) (rs : List Bytes) : State :=
  if rs = [] then s
  else (s.updSession tag model sid fun x => { x with waiting := x.waiting ++ rs, lastRecord := s.now }).flushRecords tag model sid

/-- A record that carries no token, with END and its reason. -/
def State.pushEnd (s : State) (tag model sid reqTag reason status : Nat) : State :=
  let k := s.free
  s.draw.pushRecords tag model sid
    [outRecord (Config.noTokenPosition k).toNat 0xFFFFFFFF (Config.noTokenLogprob k).toNat (Config.noTokenEpoch k).toNat
      (recordFlags false false false true reason status) reqTag]

/-! ### Ends of requests -/

def Pitch.updPlan (p : Pitch) (run : Nat) (f : Plan → Plan) : Pitch :=
  { p with plans := p.plans.map fun x => if x.run = run then f x else x }
def Pitch.plan? (p : Pitch) (run : Nat) : Option Plan := p.plans.find? fun x => x.run = run
def Pitch.planOf? (p : Pitch) (model : Nat) : Option Plan := p.plans.find? fun x => x.model = model
def State.updPlan (s : State) (tag run : Nat) (f : Plan → Plan) : State := s.updPitch tag fun p => p.updPlan run f
def Plan.updRollout (x : Plan) (no : Nat) (f : Rollout → Rollout) : Plan :=
  { x with rollouts := x.rollouts.map fun r => if r.admitSeq = no then f r else r }

/-! ### Phases of a plan (R291, R293) -/

/-- A running ROLLOUT or LEARN phase has reached its end (R291). A rollout that a learning step consumed is rewarded, and holds its
phase until its request has ended. -/
def Plan.phaseDone (x : Plan) (f : RunPhase) : Bool :=
  match x.phases[f.index]? with
  | none => true
  | some e =>
    if e.kind = 0 then
      let own := fun (a : Nat) => f.mark ≤ a && a < f.mark + e.count
      e.count ≤ f.done && (x.rollouts.all fun r => !own r.admitSeq || (r.ended && r.rewarded)) && !x.unended.any own
    else e.kind = 1 && e.count ≤ f.done

/-- Phases that have ended leave; a plan with no phase left is IDLE, or STOPPED where it was STOPPING. -/
def Plan.settle (x : Plan) : Plan :=
  let run := x.running.filter fun f => !x.phaseDone f
  { x with
    running := run
    state := if run != [] then x.state else if x.state = 2 then 3 else if x.state = 1 && x.nextPhase.isNone then 0 else x.state }

/-- The rollout of an ended request waits for its entry to be completed (R296); one that is consumed already has no entry any more. -/
def Pitch.closeRollout (p : Pitch) (model : Nat) (req : ActiveReq) (toks : List Nat) (reason status : Nat) : Pitch :=
  match req.rollout, p.planOf? model with
  | some a, some x =>
    p.updPlan x.run fun x =>
      if x.unended.contains a then Plan.settle { x with unended := x.unended.filter (· != a) }
      else x.updRollout a fun r =>
        { r with closing := true, endReason := reason, status := status, toks := toks.take (r.firstPos + r.nGen) }
  | _, _ => p

/-- A request ends: its session is IDLE and its reservation returns to the pool (R199, R215). -/
def State.endRequest (s : State) (tag model sid reason status : Nat) : State :=
  match (s.session? tag model sid).bind fun x => x.req.map fun r => (x, r) with
  | none => s
  | some (x, req) =>
    (s.updPitch tag fun p => p.closeRollout model req x.tokens reason status).updSession tag model sid fun x =>
      { x with req := none, st := .idle }

/-- A request that is still generating ends with a no-token record (R209, R211, R301). -/
def State.failRequest (s : State) (tag model sid reason status : Nat) : State :=
  match (s.session? tag model sid).bind (·.req) with
  | none => s
  | some req => (s.pushEnd tag model sid req.reqTag reason status).endRequest tag model sid reason status

/-! ### Ends of sessions -/

/-- An expired session's ID enters the expiry list of 65,536 entries (R230). -/
def Model.expire (m : Model) (sid : Nat) : Model :=
  let l := m.expired ++ [sid]
  { m with expired := l.drop (l.length - 65536) }

/-- A session is gone: its blocks and its shadow's are released (R204, R211). -/
def State.removeSession (s : State) (tag model sid : Nat) : State :=
  match s.session? tag model sid with
  | none => s
  | some x => s.updPitch tag fun p =>
    let p := p.updModel model fun m =>
      let m := (m.dropPending sid).releaseBlocks x.table
      { m with sessions := m.sessions.filter fun y => y.id != sid }
    (p.model? model).elim p fun m => p.releaseShadow m x.shadowTable

/-- A close goes on once no step of the session is in flight: the CLOSED record if a request was still generating, the
blocks, and, once the last record is visible, the response (R211). -/
def State.finishClosing (s : State) (tag model sid : Nat) : State :=
  match s.session? tag model sid with
  | none => s
  | some x => match x.closing with
    | none => s
    | some req =>
      if x.inStep.isSome then s
      else
        let gen := x.req.elim false (·.generate)
        let s := if gen then s.failRequest tag model sid endClosed 0 else s.endRequest tag model sid endClosed 0
        let s := s.flushRecords tag model sid
        match s.session? tag model sid with
        | none => s
        | some x =>
          if x.waiting != [] then s
          else
            let s := s.removeSession tag model sid
            req.elim s fun seq => s.respond seq stOk (le 4 x.committed)

/-- A session closes (R211). -/
def State.startClosing (s : State) (tag model sid : Nat) (req : Option Nat) : State :=
  (s.updSession tag model sid fun x => { x with closing := some req }).finishClosing tag model sid

/-- A paused session is closed and its record freed; its request, if any, ends with it. -/
def State.closePaused (s : State) (tag model sid reason status : Nat) : State :=
  (s.endRequest tag model sid reason status).removeSession tag model sid

end Sys2Proof.Machine
end

