-- ==== Sys2Proof/Machine/Booth.lean ====
section
/-! DEFINITION. The Ticket booth: evaluation of a request (R213 to R219), its modes (R220 to R223), SVC_BOOTH_CONFIG (R224,
R225), and paused conversations (R226 to R231). Times are exact: a comparison with s or K is one of rational numbers, and
a whole number of nanoseconds or microseconds is rounded down (notes/assumptions/23.md). -/

namespace Sys2Proof.Machine

open Sys2Proof

/-! ### Time (R216, R217) -/

/-- A finite non-negative binary32 value as numerator and denominator. -/
def f32Ratio (x : W32) : Nat × Nat :=
  match f32Num x with
  | .fin _ man exp => if 0 ≤ exp then (man * 2 ^ exp.toNat, 1) else (man, 2 ^ (-exp).toNat)
  | _ => (0, 1)

/-- t(P) with K = 1, in picoseconds. -/
def Booth.basePs (b : Booth) (positions : Nat) : Nat := b.baseNs * 1000 + b.perPosPs * positions

/-- t(P) in nanoseconds (R216). -/
def Booth.stepNs (b : Booth) (positions : Nat) : Nat :=
  let k := f32Ratio b.k
  k.1 * b.basePs positions / (k.2 * 1000)

/-- A value held between two bounds. -/
def f32Clamp (x lo hi : W32) : W32 := if f32Lt x lo then lo else if f32Lt hi x then hi else x

/-- 16 in FP32. -/
def f32Sixteen : W32 := 0x41800000

/-- An update by one sixteenth of the difference (R216, R217). -/
def ewma (x y : W32) : W32 := fadd x (fdiv (fsub y x) f32Sixteen)

/-- K after a committed step: measured latency in ns and positions (R216). -/
def Booth.updK (b : Booth) (latencyNs positions : Nat) : Booth :=
  { b with k := f32Clamp (ewma b.k (fdiv (f32OfNat latencyNs) (f32OfNat (b.basePs positions / 1000)))) 0x3F000000 0x41000000 }

/-- ACC_EWMA after a step with verify steps: tokens committed and sessions (R217). -/
def Booth.updAcc (b : Booth) (draftLen tokens sessions : Nat) : Booth :=
  { b with accEwma := f32Clamp (ewma b.accEwma (fdiv (f32OfNat tokens) (f32OfNat sessions))) f32One (f32OfNat (draftLen + 1)) }

/-- s of R218. -/
def Model.accepted (m : Model) : W32 := if m.spec then m.booth.accEwma else f32One

/-- Positions of a session in a decode step (R197). -/
def Model.share (m : Model) : Nat := if m.spec then m.draftLen + 1 else 1

/-! ### Evaluation (R214, R215, R218) -/

/-- A candidate: what it asks for. -/
structure Candidate where
  cls : Nat
  ttft : Nat
  tpot : Nat
  generate : Bool
  /-- Positions to prefill. -/
  n : Nat
  remaining : Nat
  need : Nat
  shadowNeed : Nat
  deriving DecidableEq, Repr

/-- Active sessions with their requests (R214). -/
def Model.activeReqs (m : Model) : List (Session × ActiveReq) :=
  m.sessions.filterMap fun x => x.active.map fun r => (x, r)

/-- Positions that a session in PREFILL still has to process. -/
def Session.prefillLeft (x : Session) : Nat := x.committed - x.kvValid

/-- Decode positions of the active requests. -/
def Model.decodeLoad (m : Model) : Nat :=
  ((m.activeReqs.filter fun a => a.1.st = .decode).map fun _ => m.share).foldl (· + ·) 0

/-- Prefill positions of the active requests of a class or above. -/
def Model.prefillLoad (m : Model) (cls : Nat) : Nat :=
  ((m.activeReqs.filter fun a => a.1.st = .prefill && cls ≤ a.2.prio).map fun a => a.1.prefillLeft).foldl (· + ·) 0

/-- The predicted step latency over a decode and a prefill load (R218). -/
def Model.predict (m : Model) (pd pp : Nat) : Nat := m.booth.stepNs (min m.maxStepTokens (pd + pp))

/-- A request with this step latency misses a TPOT_TARGET (R218): ts / s > TPOT_TARGET × 1,000. -/
def Model.missesTpot (m : Model) (ts tpot : Nat) : Bool :=
  let s := f32Ratio m.accepted
  tpot != 0 && decide (tpot * 1000 * s.1 < ts * s.2)

/-- ⌈P_end / 64⌉ for a final length (R215). -/
def Model.blocksFor (m : Model) (maxLen fin : Nat) : Nat :=
  ceilDiv (if m.spec then min (fin + m.draftLen - 1) maxLen else fin) 64

/-- Blocks of the pool that a class may still claim (R218). -/
def Pitch.claimable (p : Pitch) (m : Model) (cls : Nat) : Int :=
  ((m.freeBlocks + m.cached : Nat) : Int) - (p.outstanding m : Nat) - (m.booth.reserve.getD cls 0 : Nat)

/-- Why the booth refuses. -/
inductive Refuse where
  /-- Short of this many blocks, in the draft instance's pool or in its own. -/
  | blocks (short : Nat) (draft : Bool)
  | time
  deriving DecidableEq, Repr

/-- The step latency that an evaluation uses, the candidate included. -/
def Model.candidateNs (m : Model) (c : Candidate) : Nat :=
  m.predict (m.decodeLoad + if c.generate then m.share else 0) (m.prefillLoad 0 + c.n)

/-- An evaluation (R218): `none` admits. -/
def evaluate (p : Pitch) (m : Model) (c : Candidate) : Option Refuse :=
  let room := p.claimable m c.cls
  let shadowRoom := if m.spec then (p.model? m.draftModel).elim (0 : Int) fun d => p.claimable d c.cls else c.shadowNeed
  let pd := m.decodeLoad + if c.generate then m.share else 0
  let ts := m.candidateNs c
  let cap := m.maxStepTokens - pd
  let steps := max (ceilDiv (m.prefillLoad c.cls + c.n) cap) (ceilDiv c.n m.prefillChunk * m.depth)
  if room < c.need then some (.blocks (c.need - room).toNat false)
  else if shadowRoom < c.shadowNeed then some (.blocks (c.shadowNeed - shadowRoom).toNat true)
  else if m.maxStepTokens < pd then some .time
  else if m.activeReqs.any (fun a => m.missesTpot ts a.2.tpot) || m.missesTpot ts c.tpot then some .time
  else if c.n != 0 && c.ttft != 0 && (cap = 0 || c.ttft * 1000 * m.depth < steps * ts) then some .time
  else none

/-- When an active request is predicted to end, in µs (R219): remaining tokens × ts / s. -/
def Model.endUs (m : Model) (ts remaining : Nat) : Nat :=
  let s := f32Ratio m.accepted
  remaining * ts * s.2 / (s.1 * 1000)

/-- Blocks of a table with REFCOUNT 1. -/
def Model.ownBlocks (m : Model) (table : List Nat) : Nat :=
  (table.filter fun b => (m.block? b).elim false fun d => d.refcount = 1).length

/-- Blocks that a finishing session frees in its own pool or in the draft instance's: those with REFCOUNT 1, and its unused
reservation (R219). -/
def Model.frees (p : Pitch) (m : Model) (draft : Bool) (x : Session) (r : ActiveReq) : Nat :=
  if draft then (p.model? m.draftModel).elim 0 (fun d => d.ownBlocks x.shadowTable) + r.shadowReserved
  else m.ownBlocks x.table + r.reserved

/-- The first end at which the freed blocks cover a shortfall; the last end where none does. -/
def coverAt : Nat → List (Nat × Nat) → Nat → Nat
  | last, [], _ => last
  | _, (t, n) :: l, short => if short ≤ n then t else coverAt t l (short - n)

/-- The retry hint of a refusal, in µs (R219). -/
def Model.hint (p : Pitch) (m : Model) (ts : Nat) (why : Refuse) : Nat :=
  let draft := match why with | .blocks _ d => d | .time => false
  let ends := sortBy (fun a b => a.1 ≤ b.1) (m.activeReqs.map fun a => (m.endUs ts a.2.remaining, Model.frees p m draft a.1 a.2))
  match ends, why with
  | [], _ => m.booth.hintMinUs
  | e :: _, .time => min (max e.1 m.booth.hintMinUs) 60000000
  | es, .blocks short _ => min (max (coverAt 0 es short) m.booth.hintMinUs) 60000000

/-- The outcome of an evaluation: admitted, or refused with a hint. -/
def boothHint (p : Pitch) (m : Model) (c : Candidate) : Option Nat :=
  (evaluate p m c).map (Model.hint p m (m.candidateNs c))

/-! ### Pause records (R226 to R228) -/

def pauseUnit : Nat := 0x200000

/-- A field's known bytes, and open ones in place of those that the spec does not give. -/
def openPad (b : Bytes) (n : Nat) (fill : Bytes) : Bytes := (b ++ fill.drop b.length).take n

/-- A block descriptor of 304 bytes (R191), REFCOUNT written as 0 (R228). HASH is open while the block is not HASHED, and so are
the IDs of positions that have no token yet (notes/assumptions/24.md). -/
def blockDesc (fill : Bytes) (b : Block) : Bytes :=
  openPad b.hash 16 fill ++ openPad b.parent 16 (fill.drop 16) ++ openPad ((b.tokens.take 64).flatMap (le 4)) 256 (fill.drop 32) ++
  le 4 b.epochLo ++ le 4 b.epochHi ++ le 4 0 ++ le 1 b.state ++ le 3 0

/-- Block j of a session as its descriptor stands in a pause record: the token IDs of its positions, and PARENT. -/
def Model.described (p : Pitch) (m : Model) (x : Session) (j : Nat) (b : Block) : Block :=
  if b.state = bsHashed then b
  else { b with hash := [], parent := (Model.chainHash p m x j).getD [], tokens := blockTokens x.tokens j }

/-- The dies of an instance in ascending order (R228). -/
def Model.diesUp (m : Model) : List (Nat × Nat) := sortBy (fun a b => a.1 ≤ b.1) m.dies

/-- Where the KV of a record begins, and its bytes. -/
def recordKv (nblk : Nat) : Nat := roundUp (256 + 304 * nblk) 64
def recordBytes (m : Model) (nblk : Nat) : Nat := recordKv nblk + nblk * m.blockBytes * m.dies.length

/-- The records of a session: its own and its shadow's. -/
def pauseBytes (p : Pitch) (m : Model) (x : Session) : Nat :=
  recordBytes m x.table.length +
  if m.spec then (p.model? m.draftModel).elim 0 fun d => recordBytes d x.shadowTable.length else 0

/-- The units of a pause area that records take. -/
def Model.pauseUsed (m : Model) : List (Nat × Nat) :=
  m.sessions.filterMap fun x => x.pause.map fun q => (q.addr, roundUp q.nbytes pauseUnit)

/-- The first place of the pause area with room for a record. -/
def Model.pauseSpace (m : Model) (n : Nat) : Option Nat :=
  let used := m.pauseUsed
  let fits := fun (a : Nat) => decide (a + n ≤ m.booth.pauseBase + m.booth.pauseBytes) &&
    used.all fun u => decide (u.1 + u.2 ≤ a) || decide (a + n ≤ u.1)
  (sortBy (fun a b => a ≤ b) (m.booth.pauseBase :: used.map fun u => u.1 + u.2)).find? fits

/-- A turnover of the instance has opened and its SWAP has not begun (R301). -/
def Pitch.opened (p : Pitch) (model : Nat) : Bool := (p.planOf? model).elim false fun pl => pl.stage = 1 || pl.stage = 2

/-- A pinned session that drains for a turnover (R226, R300): it has an active request. -/
def draining (p : Pitch) (m : Model) (x : Session) : Bool := x.pinned && x.active.isSome && p.opened m.id

/-- A paused session whose DEADLINE has passed by a value of the local counter (R230). -/
def Session.pastDue (x : Session) (v : Nat) : Bool := x.pause.elim false fun q => q.written && q.deadline ≤ v

/-- A session whose deadline has passed is closed, and its ID enters the expiry list (R230). -/
def State.expireSession (s : State) (tag model sid : Nat) : State :=
  (s.closePaused tag model sid endFailed stExpired).updModel tag model fun m => m.expire sid

/-- An accepted request that names a session of an instance, or the expired record of one. -/
def Request.names (p : Pitch) (model : Nat) (r : Request) : Bool :=
  r.tag = p.tag && (p.session? (u32 r.body 0)).elim false fun x => x.1.id = model

/-- The evaluation of a request has its turn: no SVC_SUBMIT or SVC_SESSION_RESUME of the same instance that was accepted before
it waits (R213, R295). -/
def State.mayEvaluate (s : State) (p : Pitch) (model : Nat) (q : Request) : Bool :=
  !(s.ring.journal.any fun r => r.seq < q.seq && (r.command = 0x0303 || r.command = 0x0305) && r.names p model)

/-- A pause begins (R227, step 1): the session leaves step formation and its record's place is taken. -/
def State.startPause (s : State) (p : Pitch) (m : Model) (x : Session) (byBooth : Bool) (ttl : Nat) (addr : Nat)
    (req : Option Nat) : State :=
  let q : Pause :=
    { byBooth := byBooth, prior := x.st, at_ := s.now, deadline := s.now + ttl * 25000, addr := addr
      nbytes := pauseBytes p m x, digest := [], blocks := [], shadow := [], request := req, written := false }
  s.updSession p.tag m.id x.id fun x => { x with pause := some q }

/-- SVC_SESSION_PAUSE 0x0304 (R226). The response follows when the record is written (PAUSE_RECORD_WRITTEN). -/
def execSvcSessionPause (seq : Nat) (s : State) : Host.Outcome State Fault Refusal :=
  .next (s.onRequest seq 0x0304 fun r p =>
    let b := r.body
    let sid := u32 b 0
    let ttl := u32 b 4
    if !restZero b 8 then s.respond seq stBadCommand []
    else if p.expired sid then s.respond seq stExpired []
    else match p.session? sid with
      | none => s.respond seq stNotFound []
      | some (m, x) =>
        if x.pastDue r.acceptedAt then (s.expireSession p.tag m.id sid).respond seq stExpired []
        else if (x.pause.elim false fun q => q.request = some seq) then s
        else if x.pause.isSome || draining p m x then s.respond seq stBusy []
        else if ttl < 1000 || 604800000 < ttl then s.respond seq stOutOfRange []
        else match m.pauseSpace (roundUp (pauseBytes p m x) pauseUnit) with
          | none => s.respond seq stNoCapacity []
          | some a => s.startPause p m x false ttl a (some seq))

/-- The KV bytes of a block on a die: positions at or above `kv` read as zero (R227). Position i of a block occupies
bytes i × KV_POS_BYTES (notes/assumptions/24.md). -/
def blockKv (s : State) (p : Pitch) (m : Model) (pool b j kv : Nat) : Except Nat Bytes :=
  let valid := min (kv - 64 * j) 64 * m.kvPosBytes
  (readBytes s p (m.blockAddr pool b) valid).map fun x => padTo x m.blockBytes

/-- One pause record (R228). -/
def pauseRecord (s : State) (p : Pitch) (m : Model) (x : Session) (q : Pause) (openBytes : Bytes) (table : List Nat) :
    Except Nat Bytes :=
  let nblk := table.length
  let prior := match q.prior with | .prefill => 1 | .decode => 2 | _ => 0
  let sub := x.req.elim (List.replicate 40 0) fun r => r.bytes.take 28 ++ le 4 r.remaining ++ slice r.bytes 32 8
  let head := le 4 0x47505301 ++ le 4 m.id ++ le 4 x.id ++ le 1 prior ++ le 1 (if q.byBooth then 1 else 0) ++ le 2 0 ++
    le 4 x.committed ++ le 4 x.kvValid ++ le 4 nblk ++ le 4 0 ++ le 8 q.at_ ++ le 8 q.deadline ++ padTo openBytes 80 ++
    sub ++ le 8 x.produced ++ List.replicate 80 0
  let descs := table.zipIdx.flatMap fun b => (m.block? b.1).elim (List.replicate 304 0) fun d =>
    blockDesc ((s.openBytes (288 * (b.2 + 1))).drop (288 * b.2)) (m.described p x b.2 d)
  (mapE (fun d => (mapE (fun e => blockKv s p m d.2 e.1 e.2 x.kvValid) table.zipIdx).map List.flatten) m.diesUp).map
    fun kv => padTo (head ++ descs) (recordKv nblk) ++ kv.flatten

/-- A session as its shadow stands in the draft instance: its blocks there, and its KV_VALID over committed tokens (R206). -/
def Session.asShadow (x : Session) : Session := { x with table := x.shadowTable, kvValid := min x.shadowKv x.committed }

/-- The record of the shadow session, in the same form: the draft instance's ID and the shadow's STREAM (R206). -/
def shadowRecord (s : State) (p : Pitch) (m : Model) (x : Session) (q : Pause) : Except Nat Bytes :=
  if m.spec then
    match p.model? m.draftModel with
    | none => .ok []
    | some d =>
      let o := x.openBytes
      pauseRecord s p d x.asShadow q (le 4 d.id ++ slice o 4 4 ++ le 8 (u64 o 8 ^^^ 0x8000000000000000) ++ slice o 16 64) x.shadowTable
  else .ok []

/-- PAUSE_RECORD_WRITTEN (R227): the record is in the spoil tier, the blocks and the reservation are released, the session is
PAUSED, and a pitch-software pause responds. A step in flight for the session commits first. -/
def execPauseRecordWritten (tag model session : Nat) (s : State) : Host.Outcome State Fault Refusal :=
  .next (match s.pitch? tag, s.model? tag model, s.session? tag model session with
    | some p, some m, some x => match x.pause with
      | none => s
      | some q =>
        if q.written || x.inStep.isSome then s
        else
          let q := { q with prior := x.st, nbytes := pauseBytes p m x }
          match pauseRecord s p m x q x.openBytes x.table, shadowRecord s p m x q with
          | .ok a, .ok c =>
            let s := (s.tryWrite tag q.addr (a ++ c)).draw
            let blocks := x.table.filterMap m.block?
            let shadow := x.shadowTable.filterMap fun b => (p.model? m.draftModel).bind fun d => d.block? b
            let q := { q with digest := sha384 (a ++ c), blocks := blocks, shadow := shadow, written := true }
            let s := s.updPitch tag fun p =>
              let p := p.updModel model fun m =>
                ((m.dropPending session).releaseBlocks x.table).updSession session fun x =>
                  { x with st := .paused, table := [], shadowTable := [], pause := some q
                           shadowKv := min x.shadowKv x.committed, drafts := []
                           req := x.req.map fun r => { r with reserved := 0, shadowReserved := 0 } }
              p.releaseShadow m x.shadowTable
            q.request.elim s fun seq => s.respond seq stOk (le 8 q.nbytes ++ le 8 q.deadline)
          | .error e, _ | _, .error e =>
            let s := s.updSession tag model session fun x => { x with pause := none }
            q.request.elim s fun seq => s.respond seq e []
    | _, _, _ => s)

/-! ### Resume (R229) -/

/-- The candidate of a paused session. -/
def resumeCandidate (p : Pitch) (m : Model) (x : Session) (q : Pause) : Candidate :=
  match x.req with
  | none => ⟨0, 0, 0, false, 0, 0, q.blocks.length, q.shadow.length⟩
  | some r =>
    let need := m.blocksFor x.maxLen (min (x.committed + r.remaining) x.maxLen)
    ⟨r.prio, r.ttft, r.tpot, r.generate, x.committed - x.kvValid, r.remaining, need,
     if m.spec && (p.model? m.draftModel).isSome then need else 0⟩

/-- The HASHED blocks of a record that still match the index are attached, under the current epoch (R202, R229): for each block of
the record the block of the instance that it is now, if any. A PENDING entry is no match (R203). -/
def Model.attachAll (m : Model) : List Block → Model × List (Option Nat)
  | [] => (m, [])
  | b :: l =>
    match (if b.state = bsHashed then m.lookup b.hash b.parent b.tokens m.epoch else none).filter fun f => f.state != bsPending with
    | some f =>
      let r := (m.updBlock f.id fun c => { c with refcount := c.refcount + 1, state := bsHashed }).attachAll l
      (r.1, some f.id :: r.2)
    | none =>
      let r := m.attachAll l
      (r.1, none :: r.2)

/-- Block j of a record enters the session's table: the block it was attached to, or a fresh block with its copy, which is inserted
under R201. -/
def restoreBlock (s : State) (tag model sid j : Nat) (b : Block) (found : Option Nat) (kv : List Bytes) : State :=
  match found, s.model? tag model with
  | some id, _ => s.updSession tag model sid fun x => { x with table := x.table ++ [id] }
  | none, none => s
  | none, some m =>
    match m.takeBlock sid with
    | (_, none) => s
    | (m', some id) =>
      let m' := (m'.updBlock id fun c => { c with epochLo := b.epochLo, epochHi := b.epochHi }).updSession sid fun x =>
        { x with table := x.table ++ [id] }
      let s := s.updModel tag model fun _ => m'
      let s := (m.diesUp.zip kv).foldl (fun s d => s.tryWrite tag (m.blockAddr d.1.2 id) d.2) s
      s.updPitch tag fun p => p.updModel model fun m => m.insertBlocks p sid [j]

/-- The KV bytes of block j of a record, die by die. -/
def recordBlockKv (m : Model) (rec : Bytes) (nblk j : Nat) : List Bytes :=
  (List.range m.dies.length).map fun d => slice rec (recordKv nblk + (d * nblk + j) * m.blockBytes) m.blockBytes

/-- The shadow's blocks copied into the draft instance. -/
def restoreShadow (s : State) (tag draft model sid : Nat) (bs : List Block) (rec : Bytes) : State :=
  bs.zipIdx.foldl (fun s b =>
    match s.model? tag draft with
    | none => s
    | some d => match d.takeBlock sid with
      | (_, none) => s
      | (d', some id) =>
        let s := s.updModel tag draft fun _ =>
          d'.updBlock id fun c => { c with epochLo := b.1.epochLo, epochHi := b.1.epochHi }
        let s := s.updSession tag model sid fun x => { x with shadowTable := x.shadowTable ++ [id] }
        (d.diesUp.zip (recordBlockKv d rec bs.length b.2)).foldl
          (fun s e => s.tryWrite tag (d.blockAddr e.1.2 id) e.2) s) s

/-- The session returns to its prior state with its blocks: those of the record that still match are attached, then the others are
copied; its record's area is free. Its request, admitted
anew, joins only from SWAP on while a turnover is open (R301). -/
def State.resumeSession (s : State) (p : Pitch) (m : Model) (x : Session) (q : Pause) (rec : Bytes) : State :=
  let c := resumeCandidate p m x q
  let own := recordBytes m q.blocks.length
  let s := s.updSession p.tag m.id x.id fun x =>
    { x with st := q.prior, pause := none, table := []
             req := x.req.map fun r =>
               { r with reserved := c.need - q.blocks.length, shadowReserved := c.shadowNeed - q.shadow.length
                        afterSwap := r.afterSwap || p.opened m.id } }
  let found := m.attachAll q.blocks
  let s := s.updModel p.tag m.id fun m => { m with blocks := found.1.blocks }
  let s := (q.blocks.zip found.2).zipIdx.foldl
    (fun s b => restoreBlock s p.tag m.id x.id b.2 b.1.1 b.1.2 (recordBlockKv m rec q.blocks.length b.2)) s
  restoreShadow s p.tag m.draftModel m.id x.id q.shadow (rec.drop own)

/-- What a resume at a value of the local counter meets, in the order of R229: a status, with a hint where it is NO_CAPACITY, or
the record's bytes where it proceeds. -/
def resumeCheck (s : State) (p : Pitch) (m : Model) (x : Session) (q : Pause) (v : Nat) : (Nat × Nat) ⊕ Bytes :=
  if q.deadline ≤ v then .inl (stExpired, 0)
  else if x.pinned && q.blocks.any (fun b => b.epochHi != m.epoch) then .inl (stExpired, 1)
  else match boothHint p m (resumeCandidate p m x q) with
    | some h => .inl (stNoCapacity, h)
    | none => match readBytes s p q.addr q.nbytes with
      | .error e => .inl (e, 0)
      | .ok rec => if sha384 rec = q.digest then .inr rec else .inl (stVerifyFailed, 0)

/-- A resume that fails for good closes the session; past its deadline it expires. -/
def State.dropPaused (s : State) (p : Pitch) (m : Model) (x : Session) (status detail : Nat) : State :=
  if status = stExpired && detail = 0 then s.expireSession p.tag m.id x.id
  else s.closePaused p.tag m.id x.id endFailed status

/-- The state that a session goes back to, as SVC_SESSION_RESUME answers it: 0 IDLE, 1 PREFILL, 2 DECODE. -/
def priorCode : SessSt → Nat
  | .prefill => 1
  | .decode => 2
  | .idle => 0
  | .paused => 0

/-- SVC_SESSION_RESUME 0x0305. -/
def execSvcSessionResume (seq : Nat) (s : State) : Host.Outcome State Fault Refusal :=
  .next (s.onRequest seq 0x0305 fun r p =>
    let sid := u32 r.body 0
    if !restZero r.body 4 then s.respond seq stBadCommand []
    else if p.expired sid then s.respond seq stExpired []
    else match p.session? sid with
      | none => s.respond seq stNotFound []
      | some (m, x) => match x.pause with
        | none => s.respond seq stBusy []
        | some q =>
          let head := le 4 x.committed ++ le 1 (priorCode q.prior) ++ le 3 0
          if !q.written || !s.mayEvaluate p m.id r then s
          else if x.pastDue r.acceptedAt then (s.expireSession p.tag m.id sid).respond seq stExpired []
          else if q.byBooth then
            s.respond seq stBusy (head ++ le 4 ((boothHint p m (resumeCandidate p m x q)).getD m.booth.hintMinUs))
          else match resumeCheck s p m x q r.acceptedAt with
            | .inl (st, h) =>
              if st = stNoCapacity then s.respond seq st (head ++ le 4 h)
              else (s.dropPaused p m x st h).respond seq st []
            | .inr rec => (s.resumeSession p m x q rec).respond seq stOk (head ++ le 4 0))

/-- A command on a paused session that was accepted before its deadline still waits: the record stays for it (R230). -/
def State.wanted (s : State) (p : Pitch) (x : Session) : Bool :=
  s.ring.journal.any fun r => r.tag = p.tag && 0x0303 ≤ r.command && r.command ≤ 0x0306 && u32 r.body 0 = x.id &&
    !x.pastDue r.acceptedAt

/-- SESSION_EXPIRE (R230): a paused session whose deadline has passed; while its pitch is suspended it stays (R231). -/
def execSessionExpire (tag model session : Nat) (s : State) : Host.Outcome State Fault Refusal :=
  .next (match s.pitch? tag, s.session? tag model session with
    | some p, some x =>
      if p.st = .active && x.pastDue s.now && !s.wanted p x then s.expireSession tag model session else s
    | _, _ => s)

/-- Records whose deadline passed while the pitch was suspended expire as it resumes (R231). -/
def State.expirePast (s : State) (tag : Nat) : State :=
  match s.pitch? tag with
  | none => s
  | some p => (p.models.flatMap fun m => (m.sessions.filter fun x => x.pastDue s.now && !s.wanted p x).map fun x => (m.id, x.id)).foldl
      (fun s x => s.expireSession tag x.1 x.2) s

/-- The booth-paused sessions in the order of R223: higher class first, then earliest pause. -/
def Model.boothPaused (m : Model) : List (Session × Pause) :=
  sortBy (fun a b =>
      let ca := a.1.req.elim 0 (·.prio)
      let cb := b.1.req.elim 0 (·.prio)
      decide (cb < ca) || (ca = cb && decide (a.2.at_ ≤ b.2.at_)))
    (m.sessions.filterMap fun x => (x.pause.filter fun q => q.byBooth && q.written).map fun q => (x, q))

/-- One resume of the booth's pass; the flag says that the pass has stopped. A record past its deadline stays while a command that
was accepted before it waits (R230). -/
def boothResumeOne (tag model : Nat) (acc : State × Bool) (sid : Nat) : State × Bool :=
  let s := acc.1
  if acc.2 then acc
  else match s.pitch? tag, s.model? tag model, s.session? tag model sid with
    | some p, some m, some x => match x.pause with
      | none => acc
      | some q => if x.pastDue s.now && s.wanted p x then acc else match resumeCheck s p m x q s.now with
        | .inl (st, h) => if st = stNoCapacity then (s, true) else (s.dropPaused p m x st h, false)
        | .inr rec => (s.resumeSession p m x q rec, false)
    | _, _, _ => acc

/-- BOOTH_RESUME_PASS (R223): in NORMAL and STARTUP, the booth resumes its own paused sessions until a refusal. -/
def execBoothResumePass (tag model : Nat) (s : State) : Host.Outcome State Fault Refusal :=
  .next (match s.pitch? tag, s.model? tag model with
    | some p, some m =>
      if p.st = .active && m.booth.mode != 2 then
        ((m.boothPaused.map fun a => a.1.id).foldl (boothResumeOne tag model) (s, false)).1
      else s
    | _, _ => s)

/-! ### Modes (R221, R222) -/

/-- The lasting causes of RESTRICTED: a die of the instance on this module is not in service, or the pitch runs on fewer
physical than logical clusters. -/
def lastingCause (s : State) (p : Pitch) (m : Model) : Bool :=
  (m.dies.any fun d => (List.range 16).any fun c => (p.lmap[16 * d.1 + c]?).elim false fun e =>
    e.module = s.fab.moduleId && (s.die e.die).st != .inService) ||
  p.lmap.eraseDups.length < p.lmap.length

/-- Committed steps counted since the mode began or the last cause ended (R221). -/
def Booth.countStep (b : Booth) (cause : Bool) : Booth := { b with commits := if cause then 0 else b.commits + 1 }

/-- The mode after a look at its causes (R221). -/
def Booth.changeMode (b : Booth) (lasting : Bool) : Booth :=
  if lasting || b.causes != [] then { b with mode := 2, commits := 0, causes := [] }
  else if b.mode != 1 && 64 ≤ b.commits then { b with mode := 1, commits := 0 }
  else b

/-- BOOTH_MODE_CHANGE (R221). -/
def execBoothModeChange (tag model : Nat) (s : State) : Host.Outcome State Fault Refusal :=
  .next (match s.pitch? tag, s.model? tag model with
    | some p, some m =>
      let b := m.booth.changeMode (lastingCause s p m)
      s.updModel tag model fun m => { m with booth := b }
    | _, _ => s)

/-- The session that the booth pauses (R222): below PROTECT_CLASS, lowest class, most recently admitted. -/
def Model.victim (m : Model) (p : Pitch) : Option Session :=
  (sortBy (fun (a b : Session × ActiveReq) => decide (a.2.prio < b.2.prio) || (a.2.prio = b.2.prio && decide (b.2.order ≤ a.2.order)))
    (m.activeReqs.filter fun a =>
      a.2.prio < m.booth.protectClass && a.1.pause.isNone && a.1.closing.isNone && !draining p m a.1)).head?.map (·.1)

/-- After a committed step in STARTUP or RESTRICTED, the booth pauses one session while a protected request misses its
target (R222). -/
def State.boothPause (s : State) (tag model : Nat) : State :=
  match s.pitch? tag, s.model? tag model with
  | some p, some m =>
    let ts := m.predict m.decodeLoad (m.prefillLoad 0)
    if m.booth.mode = 1 || !(m.activeReqs.any fun a => m.booth.protectClass ≤ a.2.prio && m.missesTpot ts a.2.tpot) then s
    else match m.victim p with
      | none => s
      | some x => match m.pauseSpace (roundUp (pauseBytes p m x) pauseUnit) with
        | none => s
        | some a => s.startPause p m x true m.booth.autoTtlMs a none
  | _, _ => s

/-! ### SVC_BOOTH_CONFIG (R224, R225) -/

/-- The response of SVC_BOOTH_CONFIG. -/
def boothStatus (p : Pitch) (m : Model) : Bytes :=
  let b := m.booth
  let perClass := fun (l : List Nat) => (List.range 4).flatMap fun c => le 4 (l.filter (· = c)).length
  let paused := m.sessions.filterMap fun x => (x.pause.filter (·.written)).map fun q => (x, q)
  le 1 b.mode ++ le 3 0 ++ le 4 b.k.toNat ++ le 4 m.freeBlocks ++ le 4 m.cached ++ le 4 (p.outstanding m) ++
  le 4 (b.stepNs m.maxStepTokens / 1000) ++ perClass (m.activeReqs.map fun a => a.2.prio) ++
  perClass ((paused.filter fun a => a.2.byBooth).map fun a => a.1.req.elim 0 (·.prio)) ++
  le 4 (paused.filter fun a => !a.2.byBooth).length ++ le 4 0 ++ le 8 ((m.pauseUsed.map (·.2)).foldl (· + ·) 0)

/-- A field that keeps its value where the request holds zero. -/
def keepZero (v old : Nat) : Nat := if v = 0 then old else v

/-- The booth with the fields of a request written. -/
def Booth.configured (o : Booth) (b : Bytes) : Booth :=
  let flags := u32 b 4
  let o := { o with
    baseNs := keepZero (u32 b 8) o.baseNs
    perPosPs := keepZero (u32 b 12) o.perPosPs
    reserve := (List.range 4).map fun i => if bit flags 1 then u32 b (16 + 4 * i) else keepZero (u32 b (16 + 4 * i)) (o.reserve.getD i 0)
    protectClass := keepZero (u8 b 32) o.protectClass
    autoTtlMs := keepZero (u32 b 36) o.autoTtlMs
    hintMinUs := keepZero (u32 b 56) o.hintMinUs }
  if bit flags 2 then { o with pauseRegion := u8 b 33, pauseBase := u64 b 40, pauseBytes := u64 b 48 } else o

/-- The fields of a request are acceptable. -/
def boothFieldsOk (o : Booth) (b : Bytes) : Bool :=
  let flags := u32 b 4
  let n := o.configured b
  flags < 8 && zeroRange b 34 2 && zeroRange b 60 4 && restZero b 64 && u8 b 32 ≤ 3 &&
  (u32 b 36 = 0 || (1000 ≤ u32 b 36 && u32 b 36 ≤ 604800000)) &&
  (List.range 3).all (fun i => n.reserve.getD (i + 1) 0 ≤ n.reserve.getD i 0) &&
  (if bit flags 2 then
    u64 b 48 % pauseUnit = 0 && u64 b 40 % pauseUnit = 0 && u8 b 33 < 32 &&
    (u64 b 48 != 0 || (u8 b 33 = 0 && u64 b 40 = 0))
   else u8 b 33 = 0 && u64 b 40 = 0 && u64 b 48 = 0)

/-- The pause area lies in its spoil region's designated length (R165). -/
def pauseAreaOk (p : Pitch) (region base n : Nat) : Bool :=
  n = 0 || (p.regions[region]?).elim false fun r =>
    decide (spoilBase + region * 2 ^ 42 ≤ base) && decide (base + n ≤ spoilBase + region * 2 ^ 42 + r.length)

/-- SVC_BOOTH_CONFIG 0x0307. -/
def execSvcBoothConfig (seq : Nat) (s : State) : Host.Outcome State Fault Refusal :=
  .next (s.onRequest seq 0x0307 fun r p =>
    let b := r.body
    match p.model? (u32 b 0) with
    | none => s.respond seq stNotFound []
    | some m =>
      if !boothFieldsOk m.booth b then s.respond seq stBadCommand []
      else if bit (u32 b 4) 0 then s.respond seq stOk (boothStatus p m)
      else
        let n := m.booth.configured b
        if !pauseAreaOk p n.pauseRegion n.pauseBase n.pauseBytes then s.respond seq stOutOfRange []
        else if m.pauseUsed != [] && (n.pauseRegion != m.booth.pauseRegion || n.pauseBase != m.booth.pauseBase ||
            n.pauseBytes != m.booth.pauseBytes) then s.respond seq stBusy []
        else
          let m' := { m with booth := n }
          (s.updModel p.tag m.id fun _ => m').respond seq stOk (boothStatus (p.updModel m.id fun _ => m') m'))

end Sys2Proof.Machine
end

