-- ==== Sys2Proof/Machine/Tick.lean ====
section
/-! DEFINITION. The passing of one local count of 40 ns (R8), which the table has no row for: the local elapsed counter
advances, and with it the idle time of the clusters (R399, notes/assumptions/1.md). -/

namespace Sys2Proof.Machine

open Sys2Proof

/-- Cluster cycles of the local count of 40 ns that begins at `now`, at a step of R398; in a dip every eighth one, counted
through all counts, so that none is lost to rounding (R407). -/
def cyclesPerCount (d : Die) (now : Nat) : Nat :=
  let n := 30 + 10 * d.step
  if d.divided then n * (now + 1) / 8 - n * now / 8 else n

/-- No engine of the cluster holds a dispatched item (R399). -/
def Cluster.idle (c : Cluster) : Bool :=
  c.onArrays.isNone && c.onMvp.isNone && c.onVector.isNone && c.onMover0.isNone && c.onMover1.isNone &&
  c.onReadout.isNone

/-- The engines of a cluster that R330 meters, each with its counter and the item it runs; the readout unit has none. -/
def Cluster.metered (c : Cluster) : List (Nat × ItemKey) :=
  [(2, c.onArrays), (3, c.onMvp), (4, c.onVector), (5, c.onMover0), (5, c.onMover1)].filterMap fun x => x.2.map fun k => (x.1, k)

/-- Engine cycles of one local count on a pitch's dies of this module: each at its die's clock of that moment (R330, R407). -/
def Pitch.meterEngines (dies : List Die) (now : Nat) (p : Pitch) : Pitch :=
  (maskBits p.localDies 24).foldl (fun p d =>
    let x := dies.getD d {}
    (x.clusters.flatMap Cluster.metered).foldl (fun p e =>
      if e.2.tag = p.tag then p.meter e.1 (cyclesPerCount x now) else p) p) p

/-- One local count of a die's clusters. -/
def tickDie (now : Nat) (d : Die) : Die :=
  { d with clusters := d.clusters.map fun c =>
      if c.idle then { c with idleCycles := c.idleCycles + cyclesPerCount d now, idleCounts := c.idleCounts + 1 }
      else { c with idleCycles := 0, idleCounts := 0 } }

/-- Die-µs of a pitch, counted at each microsecond of local time (R330): DIE_US_ACTIVE in ACTIVE, SUSPENDING and RESUMING,
DIE_US_SUSPENDED in SUSPENDED. -/
def tickPitch (now : Nat) (p : Pitch) : Pitch :=
  if now % 25 != 0 then p
  else
    let n := (maskBits p.localDies 24).length
    match p.st with
    | .active | .suspending | .resuming => p.meter 0 n
    | .suspended => p.meter 1 n
    | .releasing | .failed => p

/-- The keepers measure the power of each die and the coolant, every 10 µs (R404, R413): values that come from outside the
module, so free ones. -/
def State.sample (s : State) : State :=
  (s.setDies (s.dies.mapIdx fun i d => { d with diePower := if d.railsUp then (Config.diePower i s.now).toNat else 0 })).setPower
    { s.power with coolantIn := (Config.coolantIn s.now).toInt, coolantOut := (Config.coolantOut s.now).toInt }

/-- One local count passes. -/
def tick (s : State) : State :=
  let n := s.kpr.now
  let s := (s.setLog { s.log with fresh := 0 }).setPorts (s.ports.map fun p => { p with counted := [] })
  let s := ((s.setDies (s.dies.map (tickDie n))).setPitches
    (s.pitches.map fun p => tickPitch (n + 1) (p.meterEngines s.dies n))).setKpr { s.kpr with now := n + 1 }
  if (n + 1) % 250 = 0 then s.sample else s

end Sys2Proof.Machine
end

