-- ==== Sys2Proof/Machine/Carousel.lean ====
section
/-! DEFINITION. The Carousel (R95, R152, R153), the waking and resting of clusters (R397, R399), and the switch of logical
clusters on an oversubscribed cluster (R161). -/

namespace Sys2Proof.Machine

open Sys2Proof

/-! ### Candidates (R145, R152, R153) -/

/-- An address whose bytes leave the die: another die or module, or the spoil tier (R145). -/
def leavesDie (s : State) (p : Pitch) (die a : Nat) : Bool :=
  match translate s p a with
  | some (.cell w k) => w = .spoil || k / 2 ^ 43 != die
  | _ => false

/-- The sectors of 64 bytes that [a, a + n) meets. -/
def sectorsOf (a n : Nat) : List Nat := (List.range ((a + n + 63) / 64 - a / 64)).map fun i => 64 * (a / 64 + i)

/-- Pitch addresses of the sectors that the item reads and writes: strips and records of its operands, their scale bytes, and
the parameter and output records of SAMPLE and LOGSOFTMAX (R120). -/
def Item.sectors (i : Item) : List Nat :=
  let rows := if i.w.isSample || i.w.isLsm then (i.operand? 0).elim 0 fun o => rowCount o.desc (i.w.c 16 3) else 0
  (i.operands.flatMap fun o => o.desc.boxStrips.flatMap fun v =>
    let k := o.desc.stripOff v
    sectorsOf (o.desc.stripAddr k) (stripBytes o.desc.fmt - o.desc.below k) ++
      (if o.desc.scaled then sectorsOf (o.desc.scaleAddr k) 1 else [])) ++
  sectorsOf i.w.param (32 * rows) ++ (if i.w.isSample then sectorsOf (i.w.addr 3) (8 * rows) else [])

/-- Transfers of the item that leave its die (R145, R156, R157); a delivery leaves it. -/
def Item.remoteCount (s : State) (p : Pitch) (die : Nat) (i : Item) : Nat :=
  (i.sectors.filter (leavesDie s p die)).length + i.ref?.isSome.toNat

/-- The item reads or writes outside its die. -/
def Item.needsRemote (s : State) (p : Pitch) (die : Nat) (i : Item) : Bool :=
  i.sectors.any (leavesDie s p die) || i.ref?.isSome

/-- Remote transfers outstanding of a logical cluster (R145): those that a running item owns, and of the others that its running
items make an open number, since the spec does not say when each is made. -/
def remoteOutstanding (s : State) (p : Pitch) (die l : Nat) : Nat :=
  ((s.die die).txns.filter fun t => t.owner.elim false fun k => (s.item? k).elim false fun i => i.w.lcluster = l).length +
  min (Config.transfersOpen s.free s.now)
    (((p.items.filter fun i => i.phase = .running && i.w.lcluster = l).map (Item.remoteCount s p die)).foldl (· + ·) 0)

/-- Units of the staging pool that dispatched items of a logical cluster hold (R152). -/
def Pitch.poolUsed (p : Pitch) (l : Nat) : Nat :=
  ((p.items.filter fun i => i.dispatched && i.w.lcluster = l).map (·.w.units)).foldl (· + ·) 0

/-- The item's staging allowance fits, or is already held (R152). -/
def Pitch.poolFits (p : Pitch) (i : Item) : Bool :=
  i.dispatched || p.poolUsed i.w.lcluster + i.w.units ≤ p.stagingMib * 16

/-- A drain or return holds the logical cluster at its item boundary (R167). -/
def Pitch.moving (p : Pitch) (l : Nat) : Bool := p.move.elim false fun m => m.stopped.contains l

/-- Items for an engine that are ready, and among them the staged ones if there are any (R153). The item that the arrays leave
at a hand-off is one of them, and staged. An item that has been dispatched goes on although its queue is frozen (R158). -/
def candidates (s : State) (p : Pitch) (pl : Place) (l : Nat) (e : Engine) : List Item :=
  if p.moving l then [] else
  let runs := fun (i : Item) => i.phase = .running && (s.cluster pl).onEngine e = some i.key
  let ready := p.items.filter fun i =>
    (i.phase = .ready || runs i) && engineFor i.w.typ e && i.w.lcluster = l &&
      (i.dispatched || !(p.queue? i.key.queue).elim true (·.frozen))
  let staged := ready.filter fun i => i.staged.isSome || runs i
  let cands := if staged = [] then ready else staged
  cands.filter fun i => runs i ||
    (!s.inTransit i.key && (i.staged.isSome || p.abroad s i.readAddrs = []) && p.poolFits i && !(i.needsRemote s p pl.die && Config.maxRemote ≤ remoteOutstanding s p pl.die l))

/-! ### The order of R153 -/

/-- Rule 1: staged for longer than the queue's AGE_LIMIT. -/
def Item.aged (p : Pitch) (now : Nat) (i : Item) : Bool :=
  i.staged.elim false fun t => (p.queue? i.key.queue).elim false fun q => q.ageLimit < now - t

/-- Rule 3: the class that comes first under CLASS_ORDER. -/
def Item.classFirst (p : Pitch) (i : Item) : Bool :=
  if p.classOrder = 2 then i.w.backward else if p.classOrder = 3 then !i.w.backward else false

/-- Rule 4: engine time of the last 1 ms against WEIGHT, as a fraction. -/
def Item.share (p : Pitch) (now : Nat) (i : Item) : Nat × Nat :=
  (p.queue? i.key.queue).elim (0, 1) fun q => (q.servedTime p now, q.weight)

/-- `a` comes before `b` under the five rules. -/
def Item.before (p : Pitch) (now : Nat) (a b : Item) : Bool :=
  if a.aged p now != b.aged p now then a.aged p now
  else if a.w.prio != b.w.prio then b.w.prio < a.w.prio
  else if a.classFirst p != b.classFirst p then a.classFirst p
  else
    let x := a.share p now
    let y := b.share p now
    if x.1 * y.2 != y.1 * x.2 then x.1 * y.2 < y.1 * x.2
    else if a.key.queue != b.key.queue then a.key.queue < b.key.queue
    else a.key.seq < b.key.seq

/-- The first item of a list under the order. -/
def pickFirst (p : Pitch) (now : Nat) : List Item → Option Item
  | [] => none
  | i :: l => match pickFirst p now l with
    | none => some i
    | some j => some (if j.before p now i then j else i)

/-! ### Dispatch -/

/-- The engine may take an item: it is idle, or the arrays stand at a hand-off (R95, R153). -/
def State.atHandoff (s : State) (pl : Place) (e : Engine) : Bool :=
  match (s.cluster pl).onEngine e with
  | none => true
  | some k => e = .arrays && (s.cluster pl).tile.isNone &&
      (s.item? k).elim false fun i => i.phase = .running && 0 < i.tiles && !i.latched

/-- The pitch and the logical cluster that a physical cluster runs now (R161). -/
def State.runsOn (s : State) (pl : Place) : Option (Pitch × Nat) :=
  (s.dieTag? pl.die).bind fun tag => (s.pitch? tag).bind fun p => (s.cluster pl).current.map fun l => (p, l)

/-- A die that runs items: in service, or still being drained (R414). -/
def Die.runs (d : Die) : Bool := d.st = .inService || d.st = .draining

/-- The item is given to the engine; an item that the arrays leave at a hand-off is ready again (R95). At its first dispatch it meets the
items that are in flight with it (R73, R92). -/
def State.giveEngine (s : State) (pl : Place) (e : Engine) (k : ItemKey) : State :=
  let s := match (s.cluster pl).onEngine e with
    | none => s
    | some old => (s.leaveEngine pl old).updItem old fun i => { i with phase := .ready }
  let s := if (s.item? k).elim true (·.dispatched) then s else s.updPitch k.tag fun p => p.meetItems k
  (s.updCluster pl fun c => { c.setEngine e (some k) with st := .working, idleCycles := 0, idleCounts := 0 }).updItem k
    fun i => { i with phase := .running, dispatched := true, startedAt := s.now }

/-- CAROUSEL_DISPATCH (R153): at a hand-off the arrays stay with their item where it comes first (R95). -/
def execCarouselDispatch (place : Place) (engine : Engine) (s : State) : Host.Outcome State Fault Refusal :=
  .next (match s.runsOn place with
    | none => s
    | some (p, l) =>
      if (s.cluster place).st = .working && (s.die place.die).runs && s.atHandoff place engine &&
          (p.st = .active || p.st = .suspending) then
        match pickFirst p s.now (candidates s p place l engine) with
        | none => s
        | some i => if i.phase = .running then s else s.giveEngine place engine i.key
      else s)

/-! ### Cluster power (R397, R399) -/

/-- Logical clusters placed on a physical cluster. -/
def placedOn (s : State) (p : Pitch) (pl : Place) : List Nat :=
  (List.range p.lclusters).filter fun l => p.place? s l = some pl

/-- An item is ready for a logical cluster. -/
def Pitch.readyFor (p : Pitch) (l : Nat) : Bool :=
  p.items.any fun i => i.phase = .ready && !(i.w.typ = tySignal || i.w.typ = tyWait) && i.w.lcluster = l

/-- CLUSTER_WAKE: a DOZING or RESTING cluster with a ready item is WORKING; the die's cluster PLLs run (R152, R399). -/
def execClusterWake (place : Place) (s : State) : Host.Outcome State Fault Refusal :=
  .next (match (s.dieTag? place.die).bind s.pitch? with
    | none => s
    | some p =>
      let c := s.cluster place
      if (c.st = .dozing || c.st = .resting) && (s.die place.die).runs && (placedOn s p place).any p.readyFor then
        (s.updDie place.die fun d => { d with cpllOn := true }).updCluster place fun c =>
          { c with st := .working, idleCycles := 0, idleCounts := 0 }
      else s)

/-- CLUSTER_DOZE: DOZE_CYCLES idle cycles have passed (R399). -/
def execClusterDoze (place : Place) (s : State) : Host.Outcome State Fault Refusal :=
  .next (
    let c := s.cluster place
    if c.st = .working && c.idle && (s.die place.die).dozeCycles ≤ c.idleCycles then
      s.updCluster place fun c => { c with st := .dozing }
    else s)

/-- CLUSTER_REST: REST_US of idle time has passed (R399); 1 µs is 25 local counts. -/
def execClusterRest (place : Place) (s : State) : Host.Outcome State Fault Refusal :=
  .next (
    let c := s.cluster place
    if (c.st = .working || c.st = .dozing) && c.idle && 25 * (s.die place.die).restUs ≤ c.idleCounts then
      (s.updCluster place fun c => { c with st := .resting }).updDie place.die Die.stopPlls
    else s)

/-- DRAM_PLL_STOP: 10 ms after the last need of a die outside every pitch and lending set (R397). -/
def execDramPllStop (die : Nat) (s : State) : Host.Outcome State Fault Refusal :=
  .next (
    let d := s.die die
    if d.dpllOn && (s.dieTag? die).isNone && (s.dieLend? die).isNone &&
        d.dpllIdle.elim false (fun t => due t 250000 s.now) then
      s.updDie die fun d => { d with dpllOn := false, dpllIdle := none }
    else s)

/-! ### Logical clusters that take turns (R161) -/

/-- Memory with the bytes of two ranges of `n` keys moved: `a` to `b`, and then `c` to `a`. -/
def memTurn (m : List Host.Cell) (a b c n : Nat) : List Host.Cell :=
  let out := (memCells m a n).map fun x => (b + x.1, x.2)
  let inn := (memCells m c n).map fun x => (a + x.1, x.2)
  memWrite (memWrite (memClear (memClear (memClear m a n) b n) c n) out) inn

/-- The same of the uncorrectable units. -/
def badTurn (l : List Nat) (a b c n : Nat) : List Nat :=
  l.filterMap fun u =>
    if a ≤ u && u < a + n then some (b + (u - a))
    else if b ≤ u && u < b + n then none
    else if c ≤ u && u < c + n then some (a + (u - c))
    else some u

/-- SRAM and slots of the physical cluster swapped from logical cluster `old` to `new`. -/
def State.swapLogical (s : State) (p : Pitch) (pl : Place) (old new : Nat) : State :=
  let a := localKey pl.die (sramOff pl.cluster 0)
  let b := imageKey p.tag old 0
  let c := imageKey p.tag new 0
  let slots := (s.cluster pl).slots
  let inn := (p.swapped.find? fun x => x.lcluster = new).elim [] (·.slots)
  let s := (s.setMem (memTurn s.mem a b c Config.sramBytes)).setBad (badTurn s.bad a b c Config.sramBytes)
  let s := s.updCluster pl fun x => { x with slots := inn, current := some new, lastSwitch := some s.now }
  s.updPitch p.tag fun p =>
    { p with swapped := (p.swapped.filter fun x => x.lcluster != new && x.lcluster != old) ++ [⟨old, slots⟩] }

/-- LOGICAL_CLUSTER_SWITCH: at an item boundary, to a logical cluster with ready items, and at most once per millisecond while
more than one of the cluster's has ready items. -/
def execLogicalClusterSwitch (place : Place) (lcluster : Nat) (s : State) : Host.Outcome State Fault Refusal :=
  .next (match s.runsOn place with
    | none => s
    | some (p, old) =>
      if old != lcluster && !p.moving lcluster && !p.moving old && p.place? s lcluster = some place && p.readyFor lcluster &&
          p.items.all (fun i => !(i.w.lcluster = old && i.dispatched && (i.phase = .running || i.phase = .ready || i.phase = .anchoring))) &&
          (((placedOn s p place).filter p.readyFor).length ≤ 1 ||
            (s.cluster place).lastSwitch.elim true (fun t => t + 25000 ≤ s.now)) then
        s.swapLogical p place old lcluster
      else s)

end Sys2Proof.Machine
end

