-- ==== Sys2Proof/Machine/Collective.lean ====
section
/-! DEFINITION. Anchored reductions (R44 to R48, R157, R239, R241, R248): the exact values of a contributor, its
registration at the root, the two passes, and the result written to D. -/

namespace Sys2Proof.Machine

open Sys2Proof

/-! ### Exact contributions (R46) -/

/-- A finite element, an infinity or a NaN as an exact contribution. -/
def Exact.ofNum : Num → Exact
  | .fin neg man exp => ⟨signedMan neg man, exp, false⟩
  | _ => ⟨0, 0, true⟩

/-- An accumulator as an exact contribution: INV enters as non-finite, a saturated one as ±2^143. -/
def Exact.ofAcc (a : Acc) : Exact :=
  if a.inv then ⟨0, 0, true⟩
  else if a.sat then ⟨if a.val.toInt < 0 then -1 else 1, 143, false⟩
  else ⟨a.val.toInt, -112, false⟩

/-- F of R44. -/
def fracBits (a32 : Bool) : Nat := if a32 then 21 else 49

/-- The strip exponent of a contributor (R46, pass 1). -/
def stripLoc (vs : List Exact) : Int :=
  vs.foldl (fun l v =>
    if v.bad || v.man = 0 then l else max l (max (-127) (min 127 (floorLog2 v.man.natAbs v.exp)))) (-128)

/-- A value rounded to an anchor, and whether it clamps (R46, pass 2). -/
def anchorRound (a32 : Bool) (a : Int) (v : Exact) : Int × Bool :=
  if v.bad || v.man = 0 then (0, false)
  else
    let q := rneInt (decide (v.man < 0)) v.man.natAbs (v.exp - (a - fracBits a32))
    let lim : Int := 2 ^ (fracBits a32 + 1)
    if q.natAbs > lim.natAbs then (if v.man < 0 then -lim else lim, true) else (q, false)

/-- The value of an anchored sum (R44, R48): non-finite where its invalid bit is set. -/
def anchoredNum (a32 : Bool) (a sum : Int) (bad : Bool) : Num :=
  if bad then .nan else .fin (decide (sum < 0)) sum.natAbs (a - fracBits a32)

/-! ### The strips of a collective -/

/-- The block reference's region as a view of M × N: NROWS × NCOLS, dimension 1 in strips (R267). -/
def regionDesc (r : BlockRef) : TDesc :=
  { base := 0, fmt := fcFp32, ndim := 2, stripDim := 1, chanTail := r.ncols % 32, scaled := false, scaleBase := 0
    padValue := 0, laneRev := false, dims := [⟨1, ceilDiv r.ncols 32, 0, 0⟩, ⟨ceilDiv r.ncols 32, r.nrows, 0, 0⟩]
    reservedOk := true }

/-- The view that a collective reduces: D's, or the region of the block (R157, R267). -/
def Item.collView (i : Item) : TDesc :=
  match i.ref? with
  | some r => regionDesc r
  | none => (i.dest?.map (·.desc)).getD (regionDesc (parseBlockRef []))

/-- The same of the fixed fields at the root. -/
def Coll.view (c : Coll) : TDesc := if bits c.control 2 2 = 2 then regionDesc (parseBlockRef c.dest) else parseDesc c.dest

/-- Accumulator of the slots at row m, column n, batch b, in the visiting order of R85 (R157). -/
def slotElem (s : State) (pl : Place) (w : WDesc) (d : MmaDims) (m n b : Nat) : Acc :=
  let nm := ceilDiv d.m d.mt
  let nn := ceilDiv d.n d.nt
  let t := b * (nm * nn) + n / d.nt * nm + m / d.mt
  lookupD (s.cluster pl).slots ((w.c 8 5 + t) * 1024 + m % d.mt * d.nt + n % d.nt) {}

/-- The lengths that a collective's slots cover. -/
def collDims (w : WDesc) (t : TDesc) : MmaDims :=
  let b := if t.ndim = 3 then t.len 3 else 1
  ⟨t.len 2, t.len 1, 0, b, shapeMt (w.c 5 3), shapeNt (w.c 5 3), w.c 13 6⟩

/-- A contributor's exact values of one strip, by lane, and whether a saturated accumulator is among them; lanes outside
the valid box count as zeros. -/
def contribStrip (s : State) (p : Pitch) (i : Item) (pl : Place) (t : TDesc) (v : List Int) :
    Except Nat (List Exact × Bool) :=
  let ls := t.lanesIn v
  if i.w.c 4 1 = 1 then
    let accs := ls.map fun l =>
      let x := t.idxAt v l
      (l, slotElem s pl i.w (collDims i.w t) (x.getD 1 0) (x.getD 0 0) (x.getD 2 0))
    if accs.any fun x => x.2.bad then .error stUncorrectable
    else .ok (byLane {} (accs.map fun x => (x.1, Exact.ofAcc x.2)), accs.any fun x => x.2.sat)
  else match i.operand? 0 with
    | none => .error stBadDescriptor
    | some o =>
      (mapE (fun l => (readElem s p o.desc (o.desc.posIdx (t.idxAt v l))).map fun (c : Nat × Int) =>
        (l, Exact.ofNum (decode o.desc.fmtE c.1 c.2))) ls).map fun xs => (byLane {} xs, false)

/-! ### Registration at the root (R157, R248) -/

/-- The cluster runs the item on its array readout unit. -/
def runsReadout (s : State) (p : Pitch) (i : Item) : Option Place :=
  (i.place? s p).bind fun pl =>
    if (s.cluster pl).onReadout = some i.key && i.phase = .running && !i.latched then some pl else none

/-- A delivering collective agrees with its layer's NGROUPS and FORM (R248). -/
def deliverOk (p : Pitch) (i : Item) : Bool :=
  i.ref?.elim true fun r =>
    ((p.runs.find? fun x => x.id = r.run).bind fun x => x.layers.find? fun l => l.tag = r.layerTag).elim false fun l =>
      i.w.c 19 12 + 1 = l.ngroups && (i.w.c 0 2 = 1) = l.a32

/-- A contributor that completes with BAD_DESCRIPTOR and contributes nothing (R157, R248). -/
def State.refuseContributor (s : State) (pl : Place) (key : ItemKey) : State :=
  (s.leaveEngine pl key).updItem key fun i => i.finish stBadDescriptor

/-- A collective as its first contributor fixes it. -/
def freshColl (ident control : Nat) (dest draw : Bytes) (root : Option (Nat × Nat)) : Coll :=
  { ident := ident, control := control, dest := dest, draw := draw, contributors := [], anchors := none
    sums := [], masks := [], ancSat := false, satStrips := [], delivered := false, root := root }

/-- A contributor joins its collective, which it begins where none stands. -/
def Pitch.joinColl (p : Pitch) (fresh : Coll) (c : Contributor) (sat : List Nat) : Pitch :=
  let cs := if p.colls.any (fun x => x.ident = fresh.ident) then p.colls else p.colls ++ [fresh]
  { p with colls := cs.map fun x =>
      if x.ident = fresh.ident then
        { x with contributors := x.contributors ++ [c], satStrips := sat.foldl insertNat x.satStrips }
      else x }

/-- The root of an item's collective where D, or the block's owning die, is on another module: that module and die (R157, R245). -/
def Item.rootAway (s : State) (p : Pitch) (i : Item) : Option (Nat × Nat) :=
  match i.ref? with
  | some r =>
    (((p.runs.find? fun x => x.id = r.run).bind fun x => x.layers.find? fun l => l.tag = r.layerTag).bind fun l =>
      p.ldie (l.owner r.block)).bind fun e => if e.module = s.fab.moduleId then none else some (e.module, e.die)
  | none => match translate s p (parseDesc i.collDest).base with
    | some (.cell _ k) => if 2 ^ 48 ≤ k && k < 2 ^ 80 then some (k / 2 ^ 48 - 1, k / 2 ^ 43 % 32) else none
    | _ => none

/-- A COLL_UP frame toward a root on another module: a transaction of the contributor's die (R343, R352). -/
def State.sendUp (s : State) (die : Nat) (k : ItemKey) (root : Nat × Nat) (u : Config.CollUp) : State :=
  s.originate die
    { typ := 5, len := (Config.collUpPayload u).length, tag := k.tag, dest := root.1 * 2 ^ 48 + root.2 * 2 ^ 43
      srcModule := s.fab.moduleId, srcDie := die, payload := Config.collUpPayload u } (some k)

/-- Pass 1 of a contributor whose root is away: its strip exponents go there (R46, R343). -/
def State.firstUp (s : State) (i : Item) (die : Nat) (root : Option (Nat × Nat)) (vals : List (List Exact × Bool)) : State :=
  root.elim s fun r => s.sendUp die i.key r
    { ident := i.w.param, control := i.w.control, dest := i.collDest, draw := i.collDraw, locs := vals.map fun v => stripLoc v.1
      satStrips := (vals.zipIdx.filter fun x => x.1.2).map (·.2), second := false, sums := [], masks := [], clamped := false }

/-- The contributor is registered: its exact values are fixed, and it holds no engine (R239). -/
def State.register (s : State) (p : Pitch) (pl : Place) (i : Item) (vals : List (List Exact × Bool)) : State :=
  let c : Contributor :=
    { key := i.key, cindex := i.w.c 31 12, values := vals.map (·.1), accSat := vals.any (·.2), rounded := false }
  let root := i.rootAway s p
  let s := s.updPitch i.key.tag fun p =>
    p.joinColl (freshColl i.w.param i.w.control i.collDest i.collDraw root) c ((vals.zipIdx.filter fun x => x.1.2).map (·.2))
  ((s.leaveEngine pl i.key).updItem i.key fun i => { i with phase := .anchoring }).firstUp i pl.die root vals

/-- COLLECTIVE: the item gives its values as one logical contributor (R157); one of an aborted collective ends ABORTED (R155). -/
def execCollective (key : ItemKey) (s : State) : Host.Outcome State Fault Refusal :=
  .next (s.onItem key fun p i =>
    match runsReadout s p i with
    | none => s
    | some pl =>
      if i.w.typ != tyColl then s
      else if (p.owed? i).isSome then (s.leaveEngine pl key).abortWhole key i
      else if !deliverOk p i || !(p.colls.find? fun c => c.ident = i.w.param).elim true fun c => c.accepts i then
        s.refuseContributor pl key
      else
        match mapE (contribStrip s p i pl i.collView) i.collView.boxStrips with
        | .error e => s.failMemory key e
        | .ok vals => s.register p pl i vals)

/-! ### The two passes (R46) -/

def Coll.a32 (c : Coll) : Bool := bits c.control 0 2 = 1

/-- Every declared contributor has reached the root, which is here. -/
def Coll.full (c : Coll) : Bool := c.root.isNone && c.contributors.length = bits c.control 19 12 + 1

/-- A change of one collective. -/
def State.updColl (s : State) (tag ident : Nat) (f : Coll → Coll) : State :=
  s.updPitch tag fun p => { p with colls := p.colls.map fun c => if c.ident = ident then f c else c }

def State.coll? (s : State) (tag ident : Nat) : Option Coll :=
  (s.pitch? tag).bind fun p => p.colls.find? fun c => c.ident = ident

/-- A contributor's exponent of strip j: of its values, or as its COLL_UP gave it. -/
def Contributor.loc (x : Contributor) (j : Nat) : Int :=
  if x.source.isSome then x.locs.getD j (-128) else stripLoc (x.values.getD j [])

/-- The anchors: per strip the greatest strip exponent over all contributors. -/
def Coll.withAnchors (c : Coll) : Coll :=
  let n := c.view.boxStrips.length
  { c with
    anchors := some ((List.range n).map fun j => c.contributors.foldl (fun a x => max a (x.loc j)) (-128))
    sums := List.replicate n (List.replicate 32 0)
    masks := List.replicate n (List.replicate 32 false) }

/-- COLLECTIVE_PASS1_AT_ROOT: once every contributor has reached the root, the anchors are formed. -/
def execCollectivePass1AtRoot (tag ident : Nat) (s : State) : Host.Outcome State Fault Refusal :=
  .next (match s.coll? tag ident with
    | none => s
    | some c =>
      if c.full && c.anchors.isNone then
        (s.updColl tag ident Coll.withAnchors).tellDown tag c
          { ident := ident, anchors := c.withAnchors.anchors.getD [], ended := false, status := stOk, flags := [], counts := [] }
      else s)

/-- A contributor's values rounded to the anchors, each with whether it clamps. -/
def Coll.rounded (c : Coll) (values : List (List Exact)) : List (List (Int × Bool)) :=
  values.zipIdx.map fun v => v.1.map (anchorRound c.a32 ((c.anchors.getD []).getD v.2 0))

/-- A contributor's integers joined to the sums. -/
def Coll.join (c : Coll) (key : ItemKey) (sums : List (List Int)) (masks : List (List Bool)) (clamped : Bool) : Coll :=
  { c with
    sums := (c.sums.zip sums).map fun y => (y.1.zip y.2).map fun z => z.1 + z.2
    masks := (c.masks.zip masks).map fun y => (y.1.zip y.2).map fun z => z.1 || z.2
    ancSat := c.ancSat || clamped
    contributors := c.contributors.map fun y => if y.key = key then { y with rounded := true } else y }

/-- A contributor's rounded values joined to the sums. -/
def Coll.addContributor (c : Coll) (x : Contributor) : Coll :=
  let rs := c.rounded x.values
  c.join x.key (rs.map fun r => r.map (·.1)) (x.values.map fun v => v.map (·.bad)) (rs.any fun r => r.any (·.2))

/-- Pass 2 of a contributor whose root is away: its integers go there (R46, R343). -/
def State.secondUp (s : State) (tag : Nat) (c : Coll) (x : Contributor) (die : Nat) (root : Nat × Nat) : State :=
  let rs := c.rounded x.values
  (s.updColl tag c.ident fun c =>
      { c with contributors := c.contributors.map fun y => if y.key = x.key then { y with rounded := true } else y }).sendUp die x.key
    root { ident := c.ident, control := c.control + 2 ^ 31 * (x.cindex - bits c.control 31 12), dest := c.dest, draw := c.draw
           locs := [], satStrips := [], second := true, sums := rs.map fun r => r.map (·.1)
           masks := x.values.map fun v => v.map (·.bad), clamped := rs.any fun r => r.any (·.2) }

/-- What pass 2 rounds: an anchored readout reads the slots again (R239); values from memory are those of pass 1. -/
def secondRead (s : State) (p : Pitch) (i : Item) (x : Contributor) : Except Nat Contributor :=
  if i.w.c 4 1 = 1 then
    match i.place? s p with
    | none => .ok x
    | some pl => (mapE (contribStrip s p i pl i.collView) i.collView.boxStrips).map fun vals =>
        { x with values := vals.map (·.1) }
  else .ok x

/-- COLLECTIVE_ANCHOR_RECEIVED: the contributor rounds its values to the anchors (R46). A slot word found uncorrectable in
pass 2 fails the item (R177). -/
def execCollectiveAnchorReceived (key : ItemKey) (s : State) : Host.Outcome State Fault Refusal :=
  .next (s.onItem key fun p i =>
    match s.coll? key.tag i.w.param with
    | none => s
    | some c => match c.contributors.find? fun x => x.key = key with
      | none => s
      | some x =>
        if c.anchors.isSome && !x.rounded && i.phase = .anchoring then
          match secondRead s p i x with
          | .error e => s.failMemory key e
          | .ok y => match c.root with
            | none => s.updColl key.tag c.ident fun c => c.addContributor y
            | some r => s.secondUp key.tag c y ((i.place? s p).elim 0 (·.die)) r
        else s)

/-! ### The result (R48, R157) -/

/-- Every contributor completes alike. -/
def State.endColl (s : State) (tag : Nat) (c : Coll) (o : Outcome) : State :=
  let s := s.tellDown tag c (endDown c.ident o)
  let s := c.contributors.foldl (fun s x => s.updItem x.key fun i => { i with phase := .finished, latched := false, result := o }) s
  s.updPitch tag fun p => { p with colls := p.colls.filter fun x => x.ident != c.ident }

/-- The outcome that all contributors carry: flags and counts over the anchored strips of D. -/
def Coll.outcome (c : Coll) (ovf : Nat) : Outcome :=
  let bad := (c.masks.filter fun m => m.any id).length
  { status := stOk, invalid := 0 < bad, accSat := c.satStrips != [], rdOvf := 0 < ovf, ancSat := c.ancSat
    nInvalid := bad, nAccSat := c.satStrips.length, nRdOvf := ovf }

/-- How RESULT 1 reads out. -/
def Coll.mode (c : Coll) : OutMode :=
  { mode := modeOf (bits c.control 43 2), sat := bit c.control 45, auto := false, eOut := 0
    draw := ⟨BitVec.ofNat 128 (field c.draw 0 16), u64 c.draw 16, u64 c.draw 24⟩ }

/-- One strip of D written: an anchored record, or its readout; the count is of strips that raised RD_OVF. -/
def Coll.writeStrip (c : Coll) (tag : Nat) (acc : State × Nat) (x : List Int × Nat) : Except Nat (State × Nat) :=
  let t := parseDesc c.dest
  let a := (c.anchors.getD []).getD x.2 0
  let q := c.sums.getD x.2 []
  let m := c.masks.getD x.2 []
  if bits c.control 2 2 = 0 then
    (writeAnchored acc.1 tag t x.1 q a m).map fun s => (s, acc.2)
  else
    let fr := if 128 ≤ c.dest.length then some (parseFrame t.ndim (c.dest.drop 64)) else none
    let r := convertStrip t fr t.fmtE c.mode x.1 ((q.zip m).map fun y => anchoredNum c.a32 a y.1 y.2)
    (writeOut acc.1 tag t x.1 r).map fun s => (s, acc.2 + r.raised.rdOvf.toNat)

/-- A queue whose items contribute: what it owns, the result may be written to (R190). -/
def Coll.queue? (c : Coll) : Option Nat := c.contributors.head?.map (·.key.queue)

/-- COLLECTIVE_RESULT_WRITTEN: the root writes D from the combined sums, and every contributor completes; a write that fails
ends them all, with D undefined. -/
def execCollectiveResultWritten (tag ident : Nat) (s : State) : Host.Outcome State Fault Refusal :=
  .next (match s.coll? tag ident with
    | none => s
    | some c =>
      if c.full && c.contributors.all (·.rounded) && bits c.control 2 2 != 2 then
        match foldE (c.writeStrip tag) (s, 0) (parseDesc c.dest).boxStrips.zipIdx with
        | .ok r => (r.1.spoilAddrs tag c.queue? (parseDesc c.dest).byteAddrs).endColl tag c (c.outcome r.2)
        | .error e =>
          let rg := spanRange (parseDesc c.dest).elemSpan
          ((undefineTensor s tag (parseDesc c.dest) rg.1 rg.2).spoilAddrs tag c.queue? (parseDesc c.dest).byteAddrs).endColl tag c
            { c.outcome 0 with status := e, range1 := rg }
      else s)

/-! ### Frames of contributors and roots on other modules (R343) -/

/-- A contributor on another module, by its index: it names no item of this one. -/
def awayKey (tag cindex : Nat) : ItemKey := ⟨tag, 2 ^ 33, cindex⟩

/-- Pass 1 of such a contributor: it joins, or differs from the first and ends with BAD_DESCRIPTOR (R157). -/
def State.joinAway (s : State) (die : Nat) (f : Frame) (p : Pitch) (u : Config.CollUp) : State :=
  let src := (f.srcModule, f.srcDie, f.txn)
  let n := bits u.control 31 12
  let ok := (p.colls.find? fun c => c.ident = u.ident).elim true fun c =>
    c.root.isNone && collFixed c.control = collFixed u.control && c.dest = u.dest &&
    (!(bits c.control 2 2 = 1 && modeOf (bits c.control 43 2) = .sr) || c.draw = u.draw) &&
    c.contributors.all fun x => x.cindex != n
  if ok then
    s.updPitch p.tag fun p => p.joinColl (freshColl u.ident u.control u.dest u.draw none)
      { key := awayKey p.tag n, cindex := n, values := [], locs := u.locs, source := some src, accSat := u.satStrips != []
        rounded := false } u.satStrips
  else s.sendDown die p.tag src (endDown u.ident { status := stBadDescriptor })

/-- A COLL_UP frame takes effect at the root, once (R343, R353). -/
def State.collUp (s : State) (die : Nat) (f : Frame) : State :=
  match Config.collUpOf f.payload, s.pitch? f.tag with
  | some u, some p =>
    if u.second then
      s.updColl f.tag u.ident fun c =>
        let k := awayKey f.tag (bits u.control 31 12)
        if c.root.isNone && c.anchors.isSome && c.contributors.any (fun x => x.key = k && !x.rounded) then
          c.join k u.sums u.masks u.clamped
        else c
    else s.joinAway die f p u
  | _, _ => s

/-- The outcome that a COLL_DOWN gives. -/
def downOutcome (d : Config.CollDown) : Outcome :=
  let b := fun i => d.flags.getD i false
  let n := fun i => d.counts.getD i 0
  { status := d.status, invalid := b 0, accSat := b 1, rdOvf := b 2, ancSat := b 3, nInvalid := n 0, nAccSat := n 1, nRdOvf := n 2 }

/-- A COLL_DOWN frame at a contributor's module: the anchors, or the end, of a collective whose root is away (R343). -/
def State.collDown (s : State) (f : Frame) : State :=
  match Config.collDownOf f.payload with
  | none => s
  | some d => match s.coll? f.tag d.ident with
    | none => s
    | some c =>
      if c.root.isNone then s
      else if d.ended then s.endColl f.tag c (downOutcome d)
      else s.updColl f.tag d.ident fun c => if c.anchors.isNone then { c with anchors := some d.anchors } else c

end Sys2Proof.Machine
end

