-- ==== Sys2Proof/Machine/Queues.lean ====
section
/-! DEFINITION. Work queues: doorbells and acknowledgements (R142, R143), consumption (R140, R144, R148), readiness
(R150, R152), SIGNAL and WAIT items, completion (R154), the ways in which a running item stops (R74, R155, R170, R177), and
WORK_QUEUE_OPEN, WORK_QUEUE_CLOSE and WORK_ABORT (R155, R162). -/

namespace Sys2Proof.Machine

open Sys2Proof

/-! ### Control pages -/

/-- DOORBELL: a write of a new TAIL (R142). -/
def execDoorbell (tag queue value : Nat) (s : State) : Host.Outcome State Fault Refusal :=
  .next (s.updQueue tag queue fun q => q.doorbell (value % 2 ^ 64))

/-- ACK_WR: a write that releases completion slots (R143). -/
def execAckWr (tag queue value : Nat) (s : State) : Host.Outcome State Fault Refusal :=
  .next (s.updQueue tag queue fun q => q.ackWrite (value % 2 ^ 64))

/-- CONTROL_PAGE_WRITE_INVALID: a write to an open queue's page (R141). -/
def execControlPageWriteInvalid (tag queue offset : Nat) (data : Bytes) (s : State) : Host.Outcome State Fault Refusal :=
  .next (if ((s.pitch? tag).bind fun p => p.queue? queue).isSome then s.writePage tag queue offset data else s)

/-! ### Consumption -/

/-- What stands for a descriptor that cannot be read: no type, no wait, no signal (R177). -/
def unreadWork (seq : Nat) : Bytes := le 8 seq ++ le 8 0 ++ le 2 0xFFFF ++ le 2 0xFFFF ++ le 108 0

/-- A latched abort range covers a sequence number that is not yet consumed (R155). -/
def Queue.abortLatched (q : Queue) (n : Nat) : Bool := q.aborts.any fun r => r.1 ≤ n && n ≤ r.2

/-- The descriptors and frame records of a validated item, by slot (R72). -/
def keptDescs (s : State) (p : Pitch) (w : WDesc) (c : Checked) : List (Option (Bytes × Option Bytes)) :=
  (List.range 4).map fun i =>
    match c.ops.find? fun o => o.slot = i with
    | some o => some (o.raw, if w.framed i then some (rawBytes s p (w.addr i + 64) 64) else none)
    | none => if i = 3 then c.ref.map fun r => (r.1, none) else none

/-- The item reads no operand from memory (R152). -/
def WDesc.readsNone (w : WDesc) : Bool := !(w.present 0 || w.present 1 || w.present 2)

/-- An item that has just become ready (R150, R152). -/
def Item.makeReady (i : Item) (now : Nat) (loose : Bool) : Item :=
  { i with phase := .ready, loose := loose, staged := if i.w.readsNone then some now else none }

/-- SIGNAL and WAIT items run on the queue engine (R147). -/
def WDesc.onQueue (w : WDesc) : Bool := w.typ = tySignal || w.typ = tyWait

/-- The descriptor at HEAD: from the ring (R140), or as the queue's owner has filled it, with the next SEQ (R189, R298). -/
def headWork (s : State) (p : Pitch) (q : Queue) : Except Nat Bytes :=
  if q.own then
    match q.held with
    | h :: _ => .ok (le 8 q.head ++ h.1.drop 8)
    | [] => .error stBadDescriptor
  else readBytes s p (q.ringBase + 128 * (q.head % q.ringSize)) 128

/-- What validation reads: an owner's filled tensor descriptors stand in place of those in memory (R189). -/
def headView (s : State) (p : Pitch) (q : Queue) : State :=
  ((q.held.head?).elim [] (·.2)).foldl (fun s d => s.tryWrite p.tag d.1 d.2) s

/-- The item at HEAD as the home die consumes it, and the cursor after it (R131, R140, R144, R148, R155). A COLLECTIVE whose abort
is latched keeps what names its collective; a LOOSE mark stands however the item ends (R53). DESIGN CHOICES of
notes/assumptions/60.md: the cursor is taken modulo 2^64, and an item that fails SEQ or R148 leaves it. -/
def consumed (s : State) (p : Pitch) (q : Queue) : Item × Nat :=
  let ended := fun wd offset st slot step =>
    ({ key := ⟨p.tag, q.id, q.head⟩, wd := wd, offset := offset, phase := .finished, loose := (parseWork wd).looseMark
       result := { status := st, failSlot := slot, failStep := step } } : Item)
  let v := headView s p q
  match headWork s p q with
  | .error e => (ended (unreadWork q.head) 0 (if q.abortLatched q.head then stAborted else e) 0xFF 0, q.cursor)
  | .ok wd =>
    let w := parseWork wd
    if w.seq != q.head || !workOk p w then
      if q.abortLatched q.head then (ended wd 0 stAborted 0xFF 0, q.cursor)
      else (ended wd 0 stBadDescriptor 0xFF 1, q.cursor)
    else
      let offset := if w.cursor then q.cursor else w.offset
      let cur := (cursorCount v p w q.cursor).elim q.cursor fun n => (q.cursor + n) % 2 ^ 64
      if q.abortLatched q.head then
        let i := ended wd offset stAborted 0xFF 0
        (if w.typ = tyColl then
          match validate v p w offset with
          | .error _ => i
          | .ok c => { i with descs := keptDescs v p w c }
        else i, cur)
      else match validate v p w offset with
        | .error f => (ended wd offset f.status f.slot f.step, cur)
        | .ok c =>
          let i : Item :=
            { key := ⟨p.tag, q.id, q.head⟩, wd := wd, offset := offset, descs := keptDescs v p w c
              loose := w.looseMark }
          (if w.waitId = 0xFFFF && !w.onQueue then i.makeReady s.now w.looseMark else i, cur)

/-- The pitch addresses that consumption reads: the ring's descriptor, the tensor descriptors and frame records, the scale
bytes of sources, and parameter records (R72, R140). -/
def consumeReads (s : State) (p : Pitch) (q : Queue) (w : WDesc) : List Nat :=
  ((List.range 128).map fun i => q.ringBase + 128 * (q.head % q.ringSize) + i) ++
  ([0, 1, 2, 3].filter fun i => w.present i && !(i = 3 && w.isSample)).flatMap fun i =>
    let t := parseDesc (rawBytes s p (w.addr i) 64)
    ((List.range (if w.framed i then 128 else 64)).map (w.addr i + ·)) ++
    (if i < 3 && t.scaled then t.boxStrips.map fun v => t.scaleAddr (t.stripOff v) else []) ++
    (if i = 0 then w.recordAddrs t else [])

/-- The home die may consume at HEAD (R140, R145, R150, R158). -/
def Queue.consumable (p : Pitch) (q : Queue) : Bool :=
  q.head < q.tail && !q.frozen && q.atWait.isNone && p.inFlight q.homeLdie < Config.maxInFlight

/-- The queue after its descriptor at HEAD is consumed. -/
def Queue.consumeHead (q : Queue) (i : Item) (cursor : Nat) : Queue :=
  { q with
    head := q.head + 1, cursor := cursor, held := q.held.drop 1
    atWait := if i.w.typ = tyWait && i.phase = .waiting then some q.head else q.atWait
    aborts := q.aborts.filter fun r => q.head < r.2 }

/-- DESCRIPTOR_CONSUME (R140, R144): the descriptor at HEAD is copied, checked and forwarded; an item whose abort is
latched completes at once. -/
def execDescriptorConsume (tag queue : Nat) (s : State) : Host.Outcome State Fault Refusal :=
  .next (match s.pitch? tag with
    | none => s
    | some p => match p.queue? queue with
      | none => s
      | some q =>
        if q.consumable p then
          let r := consumed s p q
          let bad := if r.1.result.status = stUncorrectable then some (s.firstBad p (consumeReads s p q r.1.w)) else none
          let s := s.updPitch tag fun p =>
            (({ p with items := p.items ++ [r.1] }).updQueue queue fun q => q.consumeHead r.1 r.2).refreshLimit q.homeLdie
          let s := bad.elim s (s.logBadRead tag)
          if r.1.result.status = stAborted then (s.completeItem r.1.key).abortWhole r.1.key r.1 else s
        else s.updPitch tag fun p => p.refreshLimit q.homeLdie)

/-! ### Readiness -/

/-- ITEM_READY: the counter that a waiting item waits on reaches its value with FAULT clear, or FAULT ends the item
(R150). -/
def execItemReady (key : ItemKey) (s : State) : Host.Outcome State Fault Refusal :=
  .next (s.onItem key fun p i =>
    if i.phase = .waiting then
      match waitState p i.w with
      | none => s
      | some false => s.abortNow key
      | some true => if i.w.onQueue then s else s.updItem key fun i => i.makeReady s.now (looseNow p i)
    else s)

/-- ITEM_STAGED: the first operand sectors of a ready item are in its staging allowance (R152); those outside the module are read
over the fabric. -/
def execItemStaged (key : ItemKey) (s : State) : Host.Outcome State Fault Refusal :=
  .next (s.onItem key fun p i =>
    if i.phase = .ready && i.staged.isNone then (s.updItem key fun i => { i with staged := some s.now }).fetchAbroad p i else s)

/-- The queue of an item is frozen: its pending items stand still (R158). -/
def frozenQueue (p : Pitch) (k : ItemKey) : Bool := (p.queue? k.queue).elim false (·.frozen)

/-- A queue-engine item completes with OK, LOOSE through a tainted counter (R150). -/
def State.completeQueueItem (s : State) (p : Pitch) (k : ItemKey) : State :=
  (s.updItem k fun i => { i.finish stOk with loose := looseNow p i }).completeItem k

/-- SIGNAL: once its own wait is satisfied and every earlier item of its queue has completed (R150). -/
def execSignal (key : ItemKey) (s : State) : Host.Outcome State Fault Refusal :=
  .next (s.onItem key fun p i =>
    if i.w.typ = tySignal && i.phase = .waiting && !frozenQueue p key &&
        p.items.all (fun x => x.key.queue != key.queue || key.seq ≤ x.key.seq) then
      match waitState p i.w with
      | none => s
      | some false => s.abortNow key
      | some true => s.completeQueueItem p key
    else s)

/-- WAIT: its condition holds, or FAULT ends it; consumption of its queue goes on (R150). -/
def execWait (key : ItemKey) (s : State) : Host.Outcome State Fault Refusal :=
  .next (s.onItem key fun p i =>
    if i.w.typ = tyWait && i.phase = .waiting && !frozenQueue p key then
      match waitState p i.w with
      | none => s
      | some false => s.abortNow key
      | some true => s.completeQueueItem p key
    else s)

/-! ### Ends of items -/

/-- ITEM_COMPLETE: the record, the signal and the notification of an item whose outcome is fixed (R154). What a good item has written
outside the module goes over the fabric first, and is acknowledged (R151, R352, R353). -/
def execItemComplete (key : ItemKey) (s : State) : Host.Outcome State Fault Refusal :=
  .next (s.onItem key fun p i =>
    if i.phase != .finished || (i.stored && s.inTransit key) then s
    else if !i.stored && i.result.status = stOk && p.abroad s i.written != [] then
      (s.updItem key fun i => { i with stored := true }).storeAbroad p i
    else s.completeItem key)

/-- RUNNING_ITEM_ABORT_STOP: a latched running item stops with what it has begun (R155); a COLLECTIVE takes its whole
collective with it. -/
def execRunningItemAbortStop (key : ItemKey) (s : State) : Host.Outcome State Fault Refusal :=
  .next (s.onItem key fun _ i =>
    if i.latched && (i.phase = .running || i.dispatched) then (s.failItem key stAborted).abortWhole key i else s)

/-- Some strip of the operand lies in an unmapped gap (R170): the bytes of its valid lanes, or its scale byte. -/
def gapIn (s : State) (p : Pitch) (t : TDesc) : Bool :=
  t.boxStrips.any fun v =>
    let k := t.stripOff v
    let b := t.laneBytes (t.lanesIn v).length
    !(allKind s p (t.byteAddr k b.1) (b.2 + 1 - b.1) fun _ => true) ||
    (t.scaled && (translate s p (t.scaleAddr k)).isNone)

/-- STRIDED_GAP_FAULT: a strip of a running item falls in an unmapped gap (R170). -/
def execStridedGapFault (key : ItemKey) (s : State) : Host.Outcome State Fault Refusal :=
  .next (s.onItem key fun p i =>
    if i.phase = .running && i.operands.any (fun o => gapIn s p o.desc) then s.failItem key stOutOfRange else s)

/-- SCALE_RECHECK_FAIL: a scale byte found out of range at use (R74). -/
def execScaleRecheckFail (key : ItemKey) (s : State) : Host.Outcome State Fault Refusal :=
  .next (s.onItem key fun p i =>
    if i.phase = .running &&
        i.operands.any (fun o => !o.dst && scalesFail s p o.desc = some stBadDescriptor) then
      s.failItem key stBadDescriptor
    else s)

/-- UNCORRECTABLE_READ: a read of a running item meets an uncorrectable unit (R177): every later read of the unit fails
too. The event gives the pitch address; an accumulator slot has none, and its event's data is open. A word of the staging pool
is read once: memory has no bad unit then. -/
def execUncorrectableRead (key : ItemKey) (at_ : BadRead) (s : State) : Host.Outcome State Fault Refusal :=
  .next (s.onItem key fun p i =>
    if i.phase != .running then s
    else match at_ with
      | .addr a => match translate s p a with
        | some (.cell _ k) =>
          ((s.setBad (insertNat s.bad (unitOf k).1)).logFact 3 "UNCORRECTABLE" none noDie key.tag a).failItem key
            stUncorrectable
        | _ => s
      | .slot n => match i.place? s p with
        | some pl =>
          ((s.updCluster pl fun c => c.spoilSlot n).logNote 3 "UNCORRECTABLE" none noDie key.tag n).failItem key
            stUncorrectable
        | none => s
      | .staged a =>
        if (translate s p a).isSome then
          (s.logFact 3 "UNCORRECTABLE" none noDie key.tag a).failItem key stUncorrectable
        else s)

/-! ### Cusis commands of queues (R162) -/

/-- A ring is mapped bonded DRAM: its pages of 4 KiB are, since a ring is 4 KiB aligned. -/
def ringMapped (s : State) (p : Pitch) (a n : Nat) : Bool :=
  (List.range (ceilDiv n 4096)).all fun i => kindAt s p (a + 4096 * i) = some .dram

/-- The fields of a WORK_QUEUE_OPEN body are acceptable. -/
def queueFieldsOk (p : Pitch) (b : Bytes) : Bool :=
  [16, 32, 64, 128, 256, 512, 1024].contains (u16 b 24) && u64 b 0 % 4096 = 0 && u64 b 8 % 4096 = 0 &&
  u8 b 26 < p.dieCount && 1 ≤ u8 b 27 && u8 b 28 ≤ 3 && zeroRange b 29 3 && restZero b 36

/-- The lowest queue number that is not open. -/
def Pitch.freeQueue (p : Pitch) : Option Nat := (List.range Config.maxQueues).find? fun i => (p.queue? i).isNone

/-- A queue as opened (R139 to R141). -/
def openedQueue (id : Nat) (b : Bytes) : Queue :=
  { id := id, ringBase := u64 b 0, compBase := u64 b 8, notifyAddr := u64 b 16, ringSize := u16 b 24
    homeLdie := u8 b 26, weight := u8 b 27, ageLimit := if u32 b 32 = 0 then 25000 else u32 b 32 }

/-- WORK_QUEUE_OPEN 0x0201. -/
def execWorkQueueOpen (seq : Nat) (s : State) : Host.Outcome State Fault Refusal :=
  .next (s.onRequest seq 0x0201 fun r p =>
    let b := r.body
    if !queueFieldsOk p b then s.respond seq stBadCommand []
    else if !(ringMapped s p (u64 b 0) (128 * u16 b 24) && ringMapped s p (u64 b 8) (64 * u16 b 24) &&
        (u64 b 16 = 0 || allKind s p (u64 b 16) 8 (· = .dram))) then s.respond seq stOutOfRange []
    else match p.freeQueue with
      | none => s.respond seq stNoCapacity []
      | some id =>
        (s.updPitch p.tag fun p =>
          { p with queues := p.queues ++ [openedQueue id b]
                   classOrder := if u8 b 28 = 0 then p.classOrder else u8 b 28 }).respond seq stOk
          (le 1 id ++ le 7 0 ++ le 8 (controlBase + 4096 * id)))

/-- A close answers once every completion up to its TAIL is written; the queue is then gone. -/
def State.finishClose (s : State) (seq tag id t : Nat) : State :=
  match (s.pitch? tag).bind fun p => (p.queue? id).map fun q => (p, q) with
  | none => s
  | some (p, q) =>
    if q.head = t && p.items.all (fun i => i.key.queue != id) then
      (s.updPitch tag fun p => { p with queues := p.queues.filter fun q => q.id != id }).respond seq stOk (le 8 t)
    else s

/-- A close is accepted: the TAIL in force is fixed, a frozen queue consumes again, and MODE 1 latches an abort of
everything up to it, also where 16 abort ranges are open (DESIGN CHOICE, notes/assumptions/64.md). -/
def Queue.startClose (q : Queue) (seq : Nat) (abort : Bool) : Queue :=
  { q with closing := some (seq, q.tail, abort), frozen := false, freezer := none
           aborts := if abort && q.head < q.tail then q.aborts ++ [(q.head, q.tail - 1)] else q.aborts }

/-- WORK_QUEUE_CLOSE 0x0202. Given again for its own request, it answers once the queue is drained. -/
def execWorkQueueClose (seq : Nat) (s : State) : Host.Outcome State Fault Refusal :=
  .next (s.onRequest seq 0x0202 fun r p =>
    let b := r.body
    if 2 ≤ u8 b 1 || !restZero b 2 then s.respond seq stBadCommand []
    else match p.queue? (u8 b 0) with
      | none => s.respond seq stNotFound []
      | some q => match q.closing with
        | some c => if c.1 = seq then s.finishClose seq p.tag q.id c.2.1 else s.respond seq stBusy []
        | none =>
          let s := s.updQueue p.tag q.id fun q => q.startClose seq (u8 b 1 = 1)
          let s := if u8 b 1 = 1 then s.abortConsumed p.tag q.id 0 q.tail else s
          s.finishClose seq p.tag q.id q.tail)

/-- Abort ranges whose items are not all consumed yet, of the queue engine of a home die (R155). -/
def Pitch.openAborts (p : Pitch) (home : Nat) : Nat :=
  ((p.queues.filter fun q => q.homeLdie = home).map (·.aborts.length)).foldl (· + ·) 0

/-- WORK_ABORT 0x0203 (R155). -/
def execWorkAbort (seq : Nat) (s : State) : Host.Outcome State Fault Refusal :=
  .next (s.onRequest seq 0x0203 fun r p =>
    let b := r.body
    let lo := u64 b 8
    let hi := u64 b 16
    if !zeroRange b 1 7 || !restZero b 24 || hi < lo then s.respond seq stBadCommand []
    else match p.queue? (u8 b 0) with
      | none => s.respond seq stNotFound []
      | some q =>
        if lo < q.ack || q.tail ≤ hi then s.respond seq stOutOfRange []
        else if q.head ≤ hi && 16 ≤ p.openAborts q.homeLdie then s.respond seq stBusy []
        else
          let late := (q.recorded.filter fun n => lo ≤ n && n ≤ hi).length
          let s := s.updQueue p.tag q.id fun q =>
            { q with aborts := if q.head ≤ hi then q.aborts ++ [(lo, hi)] else q.aborts }
          (s.abortConsumed p.tag q.id lo hi).respond seq (if late = 0 then stOk else stAbortLate)
            (le 4 (hi + 1 - lo - late) ++ le 4 late))

end Sys2Proof.Machine
end

