-- ==== Sys2Proof/Machine/Context.lean ====
section
/-! DEFINITION. Context save and restore (R158 to R161, R172, R173): the image, its sections, and the placement of logical
clusters. The 128-byte queue record of R160 has no layout in the spec; the one here is the model's (notes/assumptions/22.md). -/

namespace Sys2Proof.Machine

open Sys2Proof

/-! ### Freezing (R158) -/

/-- Every queue stops consuming, one that a close drains too. -/
def Pitch.freeze (p : Pitch) (seq : Nat) : Pitch :=
  { p with queues := p.queues.map fun q => if q.frozen then q else { q with frozen := true, freezer := some seq } }

/-- The queues that a request froze consume again. -/
def Pitch.unfreeze (p : Pitch) (seq : Nat) : Pitch :=
  { p with queues := p.queues.map fun q => if q.freezer = some seq then { q with frozen := false, freezer := none } else q }

/-- Every queue consumes again (CONTINUE = 1). -/
def Pitch.thaw (p : Pitch) : Pitch := { p with queues := p.queues.map fun q => { q with frozen := false, freezer := none } }

/-- The queues of pitch software stay frozen after their save has ended, until a restore or a close; one whose close is in
progress goes on with its drain (R158, R162). -/
def Pitch.keepFrozen (p : Pitch) (seq : Nat) : Pitch :=
  { p with queues := p.queues.map fun q =>
      if q.freezer = some seq then { q with freezer := none, frozen := !q.own && q.closing.isNone } else q }

/-- Running items have finished and their completions are written. -/
def Pitch.quiet (p : Pitch) : Bool := p.items.all fun i => !i.dispatched && (i.phase = .waiting || i.phase = .ready)

/-! ### The image (R160) -/

/-- Items of a queue in sequence order. -/
def Pitch.pendingOf (p : Pitch) (q : Nat) : List Item :=
  sortBy (fun a b => a.key.seq ≤ b.key.seq) (p.items.filter fun i => i.key.queue = q)

/-- A pending item's descriptor: its assigned draw offset in OFFSET, CURSOR cleared. -/
def Item.pendingWork (i : Item) : Bytes :=
  slice i.wd 0 9 ++ le 1 (i.w.flags / 2 * 2) ++ slice i.wd 10 70 ++ le 8 i.offset ++ slice i.wd 88 40

/-- The record of an open queue, 128 bytes. -/
def queueRecord (p : Pitch) (q : Queue) : Bytes :=
  padTo (le 2 q.id ++ le 2 q.ringSize ++ le 1 q.homeLdie ++ le 1 q.weight ++ le 1 (q.refused.toNat + 2 * q.ackClamped.toNat) ++
    le 1 p.classOrder ++ le 8 q.ringBase ++ le 8 q.compBase ++ le 8 q.notifyAddr ++ le 8 q.head ++ le 8 q.tail ++ le 8 q.ack ++
    le 8 q.cursor ++ le 4 q.ageLimit ++ le 4 q.refusals ++ le 4 (p.pendingOf q.id).length) 128

/-- A counter's 16 bytes. -/
def counterRecord (c : Counter) : Bytes := le 8 c.value ++ le 8 (c.fault.toNat + 2 * c.taint.toNat)

/-- 32 accumulators as an ACC record (R38). -/
def accRecordBytes (as : List Acc) : Bytes :=
  as.flatMap (fun a => le 32 a.val.toNat) ++ le 4 (maskOf ((List.range 32).filter fun l => (as.getD l {}).sat)) ++
  le 4 (maskOf ((List.range 32).filter fun l => (as.getD l {}).inv))

/-- The slots of a logical cluster, as its physical cluster or its saved image holds them; those of another module are free
values here. -/
def State.slotsOf (s : State) (p : Pitch) (l : Nat) : List (Nat × Acc) :=
  match p.place? s l with
  | some pl =>
    if (s.cluster pl).current = some l then (s.cluster pl).slots
    else (p.swapped.find? fun x => x.lcluster = l).elim [] (·.slots)
  | none => (List.range 32768).map fun j =>
      let r := Config.undefinedSlot (s.free + l) j
      (j, ⟨r.1, r.2.1, r.2.2, false⟩)

/-- A logical cluster's part of the CLUSTERS section: its SRAM with the staging pool as zeros, then its 32 slots. -/
def clusterImage (s : State) (p : Pitch) (l : Nat) : Except Nat Bytes :=
  match p.lmap[l]? with
  | none => .ok (List.replicate (Config.sramBytes + 1056768) 0)
  | some e =>
    let slots := s.slotsOf p l
    if slots.any (·.2.bad) then .error stUncorrectable
    else (mapE (fun o =>
      let k := sramKey s p l e o
      if s.bad.contains (unitOf k).1 then (.error stUncorrectable : Except Nat Byte) else .ok (memGet s.mem k))
      (List.range (sramMapped p))).map fun b =>
        padTo b Config.sramBytes ++ (List.range 1024).flatMap fun r =>
          accRecordBytes ((List.range 32).map fun j => lookupD slots (32 * r + j) {})

/-- The MEMORY section: the touched pages (R172). -/
def memoryImage (s : State) (p : Pitch) : Except Nat Bytes :=
  (mapE (fun pg => readBytes s p (pg * Config.pageBytes) Config.pageBytes) p.touched).map fun pages =>
    let head := le 8 p.touched.length ++ le 8 0 ++ p.touched.flatMap fun pg => le 8 (pg * Config.pageBytes)
    padTo head (roundUp head.length 4096) ++ pages.flatten

/-- The identity of one life of a pitch: ORIGIN_MODULE, ORIGIN_RESETS and CREATE_SEQ (R160). -/
def originOf (s : State) (p : Pitch) : Nat × Nat × Nat :=
  let m := (p.ldie 0).elim s.fab.moduleId (·.module)
  if m = s.fab.moduleId then (m, s.eeprom.resetCount, p.createSeq)
  else (m, Config.remoteOrigin m p.tag)

/-- The whole image with its digest (R160). Queue records and pending items stand in the order in which the pitch's queues
were opened (DESIGN CHOICE, notes/assumptions/64.md). -/
def contextImage (s : State) (p : Pitch) (memory : Bool) : Except Nat Bytes :=
  match mapE (clusterImage s p) (List.range p.lclusters), (if memory then memoryImage s p else .ok []) with
  | .error e, _ => .error e
  | _, .error e => .error e
  | .ok cls, .ok mem =>
    let own := p.queues.filter fun q => !q.own
    let qs := own.flatMap (queueRecord p)
    let cs := (List.range Config.counters).flatMap fun n => counterRecord (p.counter n)
    let ps := own.flatMap fun q => (p.pendingOf q.id).flatMap Item.pendingWork
    let body := cls.flatten
    let o := originOf s p
    let a := 128
    let b := a + qs.length
    let c := b + cs.length
    let d := c + ps.length
    let e := d + body.length
    let total := e + mem.length
    let head := fun digest =>
      le 4 0x43545801 ++ le 2 (p.lclusters / 16) ++ le 2 p.lclusters ++ le 8 total ++ digest ++ le 8 a ++ le 8 b ++ le 8 c ++
      le 8 d ++ le 8 (if memory then e else 0) ++ le 2 p.tag ++ le 2 o.1 ++ le 4 o.2.1 ++ le 8 o.2.2 ++ le 8 0
    let rest := qs ++ cs ++ ps ++ body ++ mem
    .ok (head (sha384 (head (List.replicate 48 0) ++ rest)) ++ rest)

/-- A save that ends without its image: the queues that it froze resume (R162). -/
def State.dropSave (s : State) (seq tag status : Nat) : State := (s.updPitch tag fun p => p.unfreeze seq).respond seq status []

/-- The queues after a save, by CONTINUE (R158). -/
def Pitch.afterSave (p : Pitch) (seq : Nat) (go : Bool) : Pitch := if go then p.thaw else p.keepFrozen seq

/-- The image is written, once running items have finished (R158, R177). -/
def State.finishSave (s : State) (seq : Nat) (p : Pitch) (b : Bytes) : State :=
  let go := bit (u8 b 16) 1
  match contextImage s p (bit (u8 b 16) 0) with
  | .error e => (s.updPitch p.tag fun p => p.afterSave seq go).respond seq e []
  | .ok img =>
    if u64 b 8 < img.length then s.dropSave seq p.tag stNoCapacity
    else if !allKind s p (u64 b 0) img.length (fun k => k = .dram || k = .spoil) then s.dropSave seq p.tag stOutOfRange
    else match pitchWriteAll s p.tag (u64 b 0) img with
      | .error e => (s.updPitch p.tag fun p => p.afterSave seq go).respond seq e []
      | .ok s => (s.updPitch p.tag fun p => p.afterSave seq go).respond seq stOk (le 8 img.length)

/-- WORK_CONTEXT_SAVE 0x0204. Given again while running items finish, it writes the image once they have. -/
def execWorkContextSave (seq : Nat) (s : State) : Host.Outcome State Fault Refusal :=
  .next (s.onRequest seq 0x0204 fun r p =>
    if 4 ≤ u8 r.body 16 || !restZero r.body 17 then s.respond seq stBadCommand []
    else
      let s := s.updPitch p.tag fun p => p.freeze seq
      if p.quiet then s.finishSave seq (p.freeze seq) r.body else s)

/-! ### Restore (R159, R161, R173) -/

/-- The logical-cluster table of a pitch as it is created: dies of the member table in order (R161, R308). -/
def freshMap (members : List (Nat × Nat)) : List LEntry :=
  members.flatMap fun m => (maskBits m.2 24).flatMap fun d => (List.range 16).map fun c => ⟨m.1, d, c⟩

/-- One round of R173: each logical cluster takes its lowest window page without backing. -/
def dealRound (ls : List Nat) (t : List (Nat × Nat × Nat)) : List (Nat × Nat × Nat) :=
  ls.foldl (fun t l =>
    let n := (t.filter fun x => ls.contains x.1).length
    if Config.partitionPages ≤ n then t
    else match (List.range Config.partitionPages).find? fun pg => !(t.any fun x => x.1 = l && x.2.1 = pg) with
      | none => t
      | some pg => t ++ [(l, pg, n)]) t

/-- The page entries of the logical clusters on one physical cluster; `none` where the saved pages do not fit. -/
def packPages (saved : List (Nat × Nat)) (ls : List Nat) : Option (List (Nat × Nat × Nat)) :=
  let mine := saved.filter fun x => ls.contains x.1
  if Config.partitionPages < mine.length then none
  else some ((List.range Config.partitionPages).foldl (fun t _ => dealRound ls t)
    (mine.zipIdx.map fun x => (x.1.1, x.1.2, x.2)))

/-- The page table of a restore: needed only where physical clusters are shared (R173). -/
def restorePages (saved : List (Nat × Nat)) (n pc : Nat) : Option (Option (List (Nat × Nat × Nat))) :=
  if n ≤ pc then some none
  else
    let parts := (List.range pc).map fun i => packPages saved ((List.range n).filter fun l => l % pc = i)
    if parts.all Option.isSome then some (some (parts.flatMap fun t => t.getD [])) else none

/-- A queue of an image. -/
def parseQueue (b : Bytes) : Queue × Nat × Nat :=
  ({ id := u16 b 0, ringBase := u64 b 8, compBase := u64 b 16, notifyAddr := u64 b 24, ringSize := u16 b 2
     homeLdie := u8 b 4, weight := u8 b 5, ageLimit := u32 b 64, head := u64 b 32, tail := u64 b 40, ack := u64 b 48
     cursor := u64 b 56, refused := bit (u8 b 6) 0, ackClamped := bit (u8 b 6) 1, refusals := u32 b 68 },
   u8 b 7, u32 b 72)

/-- Records of `n` bytes of a section. -/
def records (b : Bytes) (off n count : Nat) : List Bytes := (List.range count).map fun i => slice b (off + n * i) n

/-- The queues of an image, each with its class order and its pending descriptors. -/
def imageQueues (b : Bytes) : List (Queue × Nat × List Bytes) :=
  let qs := (records b (u64 b 64) 128 ((u64 b 72 - u64 b 64) / 128)).map parseQueue
  (qs.foldl (fun (acc : List (Queue × Nat × List Bytes) × Nat) q =>
    (acc.1 ++ [(q.1, q.2.1, records b (u64 b 80 + 128 * acc.2) 128 q.2.2)], acc.2 + q.2.2)) ([], 0)).1

/-- A pending item returned to its cluster: its descriptors are fetched and checked again. One that was ready through its
counter waits on that counter again (DESIGN CHOICE, notes/assumptions/64.md). -/
def returnedItem (s : State) (p : Pitch) (queue : Nat) (wd : Bytes) : Item :=
  let w := parseWork wd
  let base : Item := { key := ⟨p.tag, queue, w.seq⟩, wd := wd, offset := w.offset, loose := w.looseMark }
  match validate s p w w.offset with
  | .error f =>
    { base with phase := .finished, result := { status := f.status, failSlot := f.slot, failStep := f.step } }
  | .ok c =>
    let i := { base with descs := keptDescs s p w c }
    if w.waitId = 0xFFFF && !w.onQueue then i.makeReady s.now w.looseMark else i

/-- A recreated queue: completion records below HEAD are written but for the pending items'; a pending WAIT holds it. -/
def restoredQueue (q : Queue) (pending : List Bytes) : Queue :=
  let seqs := pending.map fun w => u64 w 0
  { q with
    recorded := ((List.range (q.head - q.ack)).map (q.ack + ·)).filter fun n => !seqs.contains n
    atWait := (pending.find? fun w => u8 w 8 = tyWait).map fun w => u64 w 0 }

/-- A cluster image reloaded: into the physical cluster where the logical cluster is the lowest placed there, else beside
it (R161). -/
def State.loadCluster (s : State) (p : Pitch) (l : Nat) (img : Bytes) : State :=
  match p.place? s l with
  | none => s
  | some pl =>
    let first := (placedHere p l)
    let lo := if first then localKey pl.die (sramOff pl.cluster 0) else imageKey p.tag l 0
    let sram := img.take Config.sramBytes
    let cells := (sram.zipIdx.map fun x => (lo + x.2, x.1)).filter fun c => c.2 != 0
    let slots := ((List.range 32768).map fun j =>
      (j, accOfRecord (slice img (Config.sramBytes + 1032 * (j / 32)) 1032) (j % 32))).filter fun x => x.2 != {}
    let s := (s.setMem (memWrite (memClear s.mem lo Config.sramBytes) cells)).setBad
      (s.bad.filter fun u => u < lo || lo + Config.sramBytes ≤ u)
    if first then s.updCluster pl fun c => { c with slots := slots, current := some l, lastSwitch := none }
    else s.updPitch p.tag fun p =>
      { p with swapped := (p.swapped.filter fun x => x.lcluster != l) ++ [⟨l, slots⟩] }
where
  /-- The lowest logical cluster on its physical cluster. -/
  placedHere (p : Pitch) (l : Nat) : Bool := (List.range l).all fun j => p.lmap[j]? != p.lmap[l]?

/-- The saved pages of an image: their pitch addresses (R172). -/
def savedPages (b : Bytes) : List Nat :=
  let m := u64 b 96
  if m = 0 then [] else (List.range (u64 b m)).map fun k => u64 b (m + 16 + 8 * k)

/-- A byte of a pitch's dies on other modules, as this module reaches it: of their DRAM windows, or any. -/
def Pitch.holdsRemote (module : Nat) (p : Pitch) (dram : Bool) (k : Nat) : Bool :=
  p.members.any fun m => m.1 != module && (maskBits m.2 24).any fun d =>
    let lo := remoteKey m.1 d 0
    lo ≤ k && k < lo + if dram then 16 * Config.partitionBytes else 2 ^ 43

/-- These bytes zeroed (R168, R173). -/
def State.clearRemote (s : State) (p : Pitch) (dram : Bool) : State :=
  (s.setMem (s.mem.filter fun c => !p.holdsRemote s.fab.moduleId dram c.1)).setBad
    (s.bad.filter fun u => !p.holdsRemote s.fab.moduleId dram u)

/-- The pages of an image written into the windows, every other page of the pitch zero. -/
def State.loadPages (s : State) (p : Pitch) (b : Bytes) : State :=
  let m := u64 b 96
  let pages := savedPages b
  let s := p.dies.foldl (fun s d =>
    (List.range 16).foldl (fun s c => s.clearDram d (dramOff c 0) Config.windowBytes) s) (s.clearRemote p true)
  let data := m + roundUp (16 + 8 * pages.length) 4096
  let s := s.updPitch p.tag fun p => { p with touched := [] }
  pages.zipIdx.foldl (fun s x => s.tryWrite p.tag x.1 (slice b (data + Config.pageBytes * x.2) Config.pageBytes)) s

/-- The checks of a restore: the status that turns it away, if any (R159, R161). -/
def restoreFail (s : State) (p : Pitch) (b : Bytes) : Option Nat :=
  let o := originOf s p
  let n := u16 b 6
  let pc := (freshMap p.members).length
  if u32 b 0 != 0x43545801 || u64 b 8 != b.length ||
      slice b 16 48 != sha384 (b.take 16 ++ List.replicate 48 0 ++ b.drop 64) then some stVerifyFailed
  else if u64 b 96 = 0 && !(u16 b 104 = p.tag && u16 b 106 = o.1 && u32 b 108 = o.2.1 && u64 b 112 = o.2.2) then
    some stNotPermitted
  else if (restorePages ((savedPages b).map fun a => (a / 2 ^ 32, a % 2 ^ 32 / Config.pageBytes)) n pc).isNone ||
      Config.spareImages + 1 < ceilDiv n pc then some stNoCapacity
  else none

/-- The state after an accepted restore. -/
def State.doRestore (s : State) (p : Pitch) (b : Bytes) : State :=
  let n := u16 b 6
  let fresh := freshMap p.members
  let pc := fresh.length
  let saved := (savedPages b).map fun a => (a / 2 ^ 32, a % 2 ^ 32 / Config.pageBytes)
  let remap := u64 b 96 != 0 || n != p.lclusters
  let s := s.updPitch p.tag fun p =>
    { p with
      lmap := if remap then (List.range n).map fun l => fresh.getD (l % pc) ⟨0, 0, 0⟩ else p.lmap
      pages := if remap then (restorePages saved n pc).getD none else p.pages
      counters := ((List.range Config.counters).map fun c =>
        let r := slice b (u64 b 72 + 16 * c) 16
        (c, (⟨u64 r 0, bit (u8 r 8) 0, bit (u8 r 8) 1⟩ : Counter))).filter fun x => x.2 != {}
      swapped := []
      models := p.models.map fun m => { m with booth := { m.booth with mode := 0, commits := 0 } } }
  let s := (s.pitch? p.tag).elim s fun p => if u64 b 96 = 0 then s else s.loadPages p b
  let s := (s.pitch? p.tag).elim s fun p =>
    (List.range n).foldl (fun s l => s.loadCluster p l (slice b (u64 b 88 + (Config.sramBytes + 1056768) * l)
      (Config.sramBytes + 1056768))) s
  let qs := imageQueues b
  let s := s.updPitch p.tag fun p =>
    { p with queues := (p.queues.filter (·.own)) ++ qs.map fun q => restoredQueue q.1 q.2.2
             classOrder := (qs.head?.elim p.classOrder fun q => q.2.1) }
  (s.pitch? p.tag).elim s fun p =>
    s.updPitch p.tag fun p' => { p' with items := p'.items ++ qs.flatMap fun q => q.2.2.map (returnedItem s p q.1.id) }

/-- WORK_CONTEXT_RESTORE 0x0205. -/
def execWorkContextRestore (seq : Nat) (s : State) : Host.Outcome State Fault Refusal :=
  .next (s.onRequest seq 0x0205 fun r p =>
    if !restZero r.body 16 then s.respond seq stBadCommand []
    else if p.queues.any fun q => !q.own then s.respond seq stBusy []
    else if !allKind s p (u64 r.body 0) (u64 r.body 8) (fun k => k = .dram || k = .spoil) then
      s.respond seq stOutOfRange []
    else match readBytes s p (u64 r.body 0) (u64 r.body 8) with
      | .error e => s.respond seq e []
      | .ok b => match restoreFail s p b with
        | some e => s.respond seq e []
        | none =>
          (s.doRestore p b).respond seq stOk
            (le 2 (u16 b 6) ++ le 2 (min (u16 b 6) (freshMap p.members).length)))

end Sys2Proof.Machine
end

