-- ==== Sys2Proof/Machine/Vector.lean ====
section
/-! DEFINITION. The vector unit: element operations and functions (R108 to R119), reductions (R112, R113), and the values of
RAND items (R134, R135). -/

namespace Sys2Proof.Machine

open Sys2Proof

/-- The cluster runs the item on its vector unit. -/
def runsVector (s : State) (p : Pitch) (i : Item) : Option Place :=
  (i.place? s p).bind fun pl =>
    if (s.cluster pl).onVector = some i.key && i.phase = .running && !i.latched then some pl else none

/-- The element at a position as the vector unit reads it (R109). -/
def readF32 (s : State) (p : Pitch) (t : TDesc) (x : List Nat) : Except Nat W32 :=
  match readElem s p t x with
  | .error e => .error e
  | .ok (c, sc) => .ok (f32OfNum (decode t.fmtE c sc))

/-- The result of an element operation (R111). -/
def vopResult (op : Nat) (a b c : W32) : W32 :=
  if op = 0x00 then fadd a b
  else if op = 0x01 then fsub a b
  else if op = 0x02 then fmul a b
  else if op = 0x03 then ffma a b c
  else if op = 0x04 then fmin a b
  else if op = 0x05 then fmax a b
  else if op = 0x06 then fabs a
  else if op = 0x07 then f32Negate a
  else if op = 0x08 then (if f32Lt a b then f32One else 0)
  else if op = 0x09 then (if f32Eq a b then f32One else 0)
  else if op = 0x0A then (if f32IsZero c then b else a)
  else if op = 0x10 then fdiv a b
  else if op = 0x11 then fsqrt a
  else if op = 0x12 then frsqrt a
  else if op = 0x13 then frecip a
  else if op = 0x14 then fexp a
  else if op = 0x15 then flog a
  else if op = 0x16 then ftanh a
  else if op = 0x17 then ferf a
  else a

/-- One level of the pairwise tree of R113. -/
def treeLevel : List W32 → List W32
  | a :: b :: l => fadd a b :: treeLevel l
  | l => l

/-- The tree's value. -/
def treeSum : Nat → List W32 → W32
  | 0, l => l.headD 0
  | fuel + 1, l => if l.length ≤ 1 then l.headD 0 else treeSum fuel (treeLevel l)

/-- The position of the maximum, ties to the lowest; the canonical NaN if any element is a NaN (R112). -/
def argMax (xs : List W32) : W32 :=
  if xs.any f32IsNan then f32Nan
  else f32OfNat ((xs.zipIdx.foldl (fun (best : Option (W32 × Nat)) x =>
    match best with
    | none => some x
    | some b => if f32Key b.1 < f32Key x.1 then some x else some b) none).elim 0 (·.2))

/-- The result of a reduction (R112, R113). -/
def redResult (op : Nat) (xs : List W32) : W32 :=
  if op = 0x20 then treeSum xs.length xs
  else if op = 0x21 then xs.tail.foldl fmax (xs.headD 0)
  else if op = 0x22 then xs.tail.foldl fmin (xs.headD 0)
  else argMax xs

/-- The elements of the reduced range that belongs to the element of D with these indices (R112). -/
def reducedRange (s : State) (p : Pitch) (t : TDesc) (rd : Nat) (idx : List Nat) : Except Nat (List W32) :=
  mapE (fun j => readF32 s p t ((t.posIdx idx).set (rd - 1) j)) (List.range (t.positions rd))

/-- The FP32 value of one element of D of a VEC item. -/
def vecElem (s : State) (p : Pitch) (w : WDesc) (srcs : List Operand) (o : TDesc) (v : List Int) (l : Nat) :
    Except Nat W32 :=
  let idx := o.idxAt v l
  if vopReduce.contains w.vop then
    match srcs with
    | a :: _ => (reducedRange s p a.desc (w.c 16 3) idx).map (redResult w.vop)
    | [] => .error stBadDescriptor
  else
    (mapE (fun (x : Operand) => readF32 s p x.desc (x.desc.posIdx idx)) srcs).map fun xs =>
      vopResult w.vop (xs.getD 0 0) (xs.getD 1 0) (xs.getD 2 0)

/-- FP32 values converted and written to one strip of D; the item has begun it, and its flags join the item's. -/
def State.putStrip (s : State) (key : ItemKey) (o : Operand) (m : OutMode) (v : List Int) (xs : List (Nat × Num)) :
    State × Option Nat :=
  let r := convertStrip o.desc o.frame o.desc.fmtE m v (byLane (.fin false 0 0) xs)
  let s := s.updItem key fun i => { i.wrote o.desc v with result := (i.wrote o.desc v).result.addFlags r.raised }
  kept s (writeOut s key.tag o.desc v r)

/-- One strip of D of a VEC item (R111, R112). -/
def vecStrip (key : ItemKey) (p : Pitch) (i : Item) (o : Operand) (s : State) (v : List Int) : State × Option Nat :=
  match mapE (fun l => (vecElem s p i.w (i.operands.filter fun o => !o.dst) o.desc v l).map fun x => (l, f32Num x))
      (o.desc.lanesIn v) with
  | .error e => (s, some e)
  | .ok xs => s.putStrip key o i.outMode v xs

/-- VEC: the whole item, strip by strip of D's valid box (R111, R112). -/
def execVec (key : ItemKey) (s : State) : Host.Outcome State Fault Refusal :=
  .next (s.onItem key fun p i =>
    match runsVector s p i, i.dest? with
    | some pl, some o =>
      let w := i.w
      if w.typ = tyVec && !w.isSample && !w.isLsm then
        State.endRun (foldKeep (vecStrip key p i o) s o.desc.boxStrips) pl key
      else s
    | _, _ => s)

/-! ### RAND (R134, R135) -/

/-- √3 rounded to FP32. -/
def kSqrt3 : W32 := 0x3FDDB3D7

/-- The value of one element (R135). -/
def randValue (w : WDesc) (idx : Nat) : W32 :=
  let a : W32 := BitVec.ofNat 32 w.param
  let b : W32 := BitVec.ofNat 32 (w.param >>> 32)
  let y := tombolaBlock w.seed (if w.c 0 2 = 2 then .dropout else .init) w.stream idx
  if w.c 0 2 = 0 then ffma (f32Round false (y.w0.toNat / 256) (-24)) (fadd b (f32Negate a)) a
  else if w.c 0 2 = 1 then
    let d : Int := (y.w0.toNat + y.w1.toNat + y.w2.toNat + y.w3.toNat : Nat) - (2 : Int) ^ 33
    ffma (fmul (scale2 (f32OfInt d 0) (-32)) kSqrt3) b a
  else
    let t := f32Rint (scale2 a 24)
    if ((y.w0.toNat % 2 ^ 24 : Nat) : Int) < t then 0 else b

/-- One strip of D of a RAND item (R135). -/
def randStrip (key : ItemKey) (i : Item) (o : Operand) (s : State) (v : List Int) : State × Option Nat :=
  s.putStrip key o i.outMode v ((o.desc.lanesIn v).map fun l =>
    (l, f32Num (randValue i.w (o.desc.logical o.frame v l + i.offset))))

/-- RAND: the whole item (R135). -/
def execRand (key : ItemKey) (s : State) : Host.Outcome State Fault Refusal :=
  .next (s.onItem key fun p i =>
    match runsVector s p i, i.dest? with
    | some pl, some o =>
      if i.w.typ = tyRand then
        State.endRun (foldKeep (randStrip key i o) s o.desc.boxStrips) pl key
      else s
    | _, _ => s)

end Sys2Proof.Machine
end

