-- ==== Sys2Proof/Machine/Training.lean ====
section
/-! DEFINITION. Training runs: TRN_RUN_CONFIG (R244 to R246), state areas and TRN_UPDATE_RULE_SET (R270 to R272, R286), the
Calliope (R284, R285), TRN_STEP_MULTIPLIER (R262), and TRN_CHECKPOINT (R254 to R258). The model keeps the state of every
owning die of a run (notes/assumptions/25.md). -/

namespace Sys2Proof.Machine

open Sys2Proof

/-! ### Names -/

def Pitch.run? (p : Pitch) (id : Nat) : Option Run := p.runs.find? fun r => r.id = id
def Pitch.updRun (p : Pitch) (id : Nat) (f : Run → Run) : Pitch :=
  { p with runs := p.runs.map fun r => if r.id = id then f r else r }
def State.run? (s : State) (tag id : Nat) : Option Run := (s.pitch? tag).bind fun p => p.run? id
def State.updRun (s : State) (tag id : Nat) (f : Run → Run) : State := s.updPitch tag fun p => p.updRun id f
def Run.layer? (r : Run) (tag : Nat) : Option Layer := r.layers.find? fun l => l.tag = tag
def Run.updLayer (r : Run) (tag : Nat) (f : Layer → Layer) : Run :=
  { r with layers := r.layers.map fun l => if l.tag = tag then f l else l }
def Run.block? (r : Run) (layer b : Nat) : Option CBlock := r.blocks.find? fun c => c.layer = layer && c.block = b
def Run.updBlock (r : Run) (layer b : Nat) (f : CBlock → CBlock) : Run :=
  { r with blocks := r.blocks.map fun c => if c.layer = layer && c.block = b then f c else c }

/-- The logical die that owns a block of the run. -/
def Run.ownerOf (r : Run) (c : CBlock) : Nat := (r.layer? c.layer).elim 0 fun l => l.owner c.block

/-- Blocks that a logical die owns, in layer-table order and ascending block number. -/
def Run.owned (r : Run) (ldie : Nat) : List CBlock := r.blocks.filter fun c => r.ownerOf c = ldie

/-- Blocks of a layer that a logical die owns, ascending. -/
def Layer.owned (l : Layer) (ldie : Nat) : List Nat := (List.range l.blockCount).filter fun b => l.owner b = ldie

/-- Every logical die that owns a block. -/
def Run.owners (r : Run) (p : Pitch) : List Nat := (List.range p.dieCount).filter fun d => r.layers.any fun l => l.owned d != []

/-- A delivering collective of the run has a contributor at its root. -/
def Pitch.delivering (p : Pitch) (run : Nat) : Bool :=
  p.colls.any fun c => bits c.control 2 2 = 2 && (parseBlockRef c.dest).run = run

/-- A step of the run is in progress (R247); a block held in the hold area has its step still before it. -/
def Run.inProgress (p : Pitch) (r : Run) : Bool :=
  p.delivering r.id || r.aborts != [] ||
  r.blocks.any fun c => c.grads != [] || c.step != r.step || c.st != .collecting

/-! ### TRN_RUN_CONFIG (R244 to R246) -/

/-- A layer-table entry (R245). -/
def parseLayer (b : Bytes) : Layer :=
  { rows := u32 b 0, cols := u32 b 4, ownerFirst := u16 b 8, ownerCount := u16 b 10, ngroups := u16 b 12, a32 := u8 b 14 = 1
    tag := u32 b 16 }

/-- An entry's fields are acceptable. -/
def layerOk (p : Pitch) (b : Bytes) : Bool :=
  let l := parseLayer b
  1 ≤ l.rows && l.rows ≤ 8388576 && 1 ≤ l.cols && l.cols ≤ 8388576 && 1 ≤ l.ownerCount && l.ownerCount ≤ 1024 &&
  l.ownerFirst + l.ownerCount ≤ p.dieCount && u8 b 14 ≤ 1 && zeroRange b 15 1 && zeroRange b 20 12 &&
  1 ≤ l.ngroups && l.ngroups ≤ (if l.a32 then 256 else 4096)

/-- The request's own fields are acceptable. -/
def runFieldsOk (p : Pitch) (b : Bytes) : Bool :=
  let f := u16 b 4
  let slice_ := bits f 2 2 = 2
  1 ≤ u32 b 0 && u32 b 0 ≤ 0xFFFFFFFE && f < 16 && !bit f 0 && bits f 2 2 < 3 && 1 ≤ u16 b 6 && u16 b 6 ≤ 4096 &&
  u64 b 8 % 64 = 0 && u64 b 24 % 64 = 0 && (u16 b 32 = 0xFFFF || u16 b 32 < Config.counters) &&
  (if slice_ then 1 ≤ u16 b 36 && u16 b 36 ≤ 1024 && u16 b 34 + u16 b 36 ≤ p.dieCount else u16 b 34 = 0 && u16 b 36 = 0) &&
  zeroRange b 38 2 && f32Finite (BitVec.ofNat 32 (u32 b 40)) && zeroRange b 44 4 &&
  (bit f 1 || (u64 b 48 = 0 && u64 b 56 = 0)) && restZero b 64

/-- A run as configured. -/
def configuredRun (b : Bytes) (layers : List Layer) (hold : List Nat) : Run :=
  { id := u32 b 0, held := bit (u16 b 4) 1, eval := bits (u16 b 4) 2 2, layers := layers, startStep := u64 b 16
    normAddr := u64 b 24, normSig := u16 b 32, evalFirst := u16 b 34, evalCount := u16 b 36
    initMult := BitVec.ofNat 32 (u32 b 40), holdTable := hold, holdBytes := u64 b 56, step := u64 b 16
    blocks := layers.flatMap fun l => (List.range l.blockCount).map fun k => { layer := l.tag, block := k, step := u64 b 16 } }

/-- u64 entries of a table. -/
def u64s (b : Bytes) (n : Nat) : List Nat := (List.range n).map fun i => u64 b (8 * i)

/-- Blocks that a die owns over all runs of the pitch. -/
def Pitch.ownedBlocks (p : Pitch) (ldie : Nat) : Nat := (p.runs.map fun r => (r.owned ldie).length).foldl (· + ·) 0

/-- The bytes of a table in mapped bonded DRAM. -/
def dramTable (s : State) (p : Pitch) (a n : Nat) : Except Nat Bytes :=
  if !dramSpan s p a n then .error stOutOfRange else readBytes s p a n

/-- The status that turns a run away, or the run (R246). -/
def checkRun (s : State) (p : Pitch) (b : Bytes) : Except Nat Run :=
  if (p.run? (u32 b 0)).isSome then .error stBusy
  else if 4 ≤ p.runs.length then .error stNoCapacity
  else if !runFieldsOk p b then .error stBadCommand
  else match dramTable s p (u64 b 8) (32 * u16 b 6),
      (if bit (u16 b 4) 1 then dramTable s p (u64 b 48) (8 * p.dieCount) else .ok []) with
    | .error e, _ | _, .error e => .error e
    | .ok lt, .ok ht =>
      let es := (List.range (u16 b 6)).map fun i => slice lt (32 * i) 32
      let layers := es.map parseLayer
      let r := configuredRun b layers (u64s ht p.dieCount)
      let owners := r.owners p
      if !(es.all (layerOk p)) || !decide ((layers.map (·.tag)).Nodup) ||
          owners.any (fun d => r.eval = 2 && r.evalFirst ≤ d && d < r.evalFirst + r.evalCount) then .error stBadCommand
      else if !dramSpan s p r.normAddr 2048 then .error stOutOfRange
      else if owners.any fun d => 65536 < (r.owned d).length + p.ownedBlocks d then .error stNoCapacity
      else if r.held && owners.any (fun d => r.holdBytes < 262144 * (r.owned d).length) then .error stNoCapacity
      else if r.held && !(owners.all fun d => windowOk s p d (r.holdTable.getD d 0) r.holdBytes) then .error stOutOfRange
      else .ok r

/-- TRN_RUN_CONFIG 0x0401. -/
def execTrnRunConfig (seq : Nat) (s : State) : Host.Outcome State Fault Refusal :=
  .next (s.onRequest seq 0x0401 fun q p =>
    let b := q.body
    if bit (u16 b 4) 0 then
      if u16 b 4 != 1 || !restZero b 6 then s.respond seq stBadCommand []
      else match p.run? (u32 b 0) with
        | none => s.respond seq stNotFound []
        | some r =>
          if r.inProgress p || p.plans.any (fun x => x.run = r.id && (x.state = 1 || x.state = 2)) then s.respond seq stBusy []
          else
            (s.updPitch p.tag fun p => { p with runs := p.runs.filter fun x => x.id != r.id }).respond seq stOk
              (le 4 r.id ++ le 4 r.blocks.length)
    else match checkRun s p b with
      | .error e => s.respond seq e []
      | .ok r =>
        (s.updPitch p.tag fun p => { p with runs := p.runs ++ [r] }).respond seq stOk (le 4 r.id ++ le 4 r.blocks.length))

/-! ### State areas (R272) -/

/-- The state-area address of a block's header. -/
def Layer.stateAddr (l : Layer) (r : Rule) (b : Nat) : Nat :=
  r.areas.getD (b % l.ownerCount) 0 + b / l.ownerCount * ruleBytes r.rule

/-- The bytes of a row of FP32 values. -/
def f32Row (xs : List W32) : Bytes := xs.flatMap fun x => le 4 x.toNat

/-- Row-major FP32 rows written into array `k` of a block whose header is at an address. -/
def State.writeArray (s : State) (tag header k : Nat) (rows : List (List W32)) : State :=
  rows.zipIdx.foldl (fun s x => s.tryWrite tag (header + 64 + 262144 * k + 1024 * x.2) (f32Row x.1)) s

/-- [a, a + n) of a pitch's DRAM zeroed, page by page. -/
def State.zeroSpan (s : State) (tag a n : Nat) : State :=
  if n = 0 then s
  else (List.range ((a + n - 1) / Config.pageBytes + 1 - a / Config.pageBytes)).foldl (fun s i =>
    let pg := a / Config.pageBytes + i
    let lo := max a (pg * Config.pageBytes)
    let hi := min (a + n) ((pg + 1) * Config.pageBytes)
    match (s.pitch? tag).bind fun p => translate s p lo with
    | some (.cell _ k) =>
      let s := (s.setMem (memClear s.mem k (hi - lo))).setBad (s.bad.filter fun u => u < k || k + (hi - lo) ≤ u)
      (s.markWritten k).updPitch tag fun p => p.touch [lo]
    | _ => s) s

/-- The diagonal matrix with one value. -/
def diag (n : Nat) (x : W32) : List (List W32) := (List.range n).map fun i => (List.range n).map fun j => if i = j then x else 0

/-- A block initialised: W from the source's elements, everything else +0, KRON preconditioners the identity (R270). -/
def State.initBlock (s : State) (tag : Nat) (l : Layer) (r : Rule) (b : Nat) (w : List (List W32)) : State :=
  let h := l.stateAddr r b
  let s := s.writeArray tag h 0 w
  if r.rule = 2 then
    let i := diag (l.blockRows b) f32One
    let j := diag (l.blockCols b) f32One
    (((s.writeArray tag h 4 i).writeArray tag h 5 j).writeArray tag h 6 i).writeArray tag h 7 j
  else s

/-! ### TRN_UPDATE_RULE_SET (R270, R271, R286) -/

/-- A tensor descriptor that a command names, in mapped bonded DRAM, its codes checked (R72, step 1; R169, R271). -/
def fetchTensor (s : State) (p : Pitch) (a : Nat) : Except Nat (TDesc × Bytes) :=
  match dramTable s p a 64 with
  | .error e => .error e
  | .ok b => if (parseDesc b).codesOk then .ok (parseDesc b, b) else .error stBadDescriptor

/-- W's arrangement with the given view (R232): strips along the columns, rows in dimension 2. -/
def weightShape (t : TDesc) (rows cols : Nat) : Bool := t.ndim = 2 && t.stripDim = 1 && t.len 1 = cols && t.len 2 = rows

/-- The source of a layer's initial weights: in any region that an operand may lie in (R169; notes/assumptions/25.md). -/
def checkSource (s : State) (p : Pitch) (l : Layer) (a : Nat) : Except Nat TDesc :=
  match fetchTensor s p a with
  | .error e => .error e
  | .ok (t, _) =>
    match descFail t false (!isRecord t.fmt && weightShape t l.rows l.cols)
        (spansMapped s p t && regionsOk s p t fun k => k = .dram || k = .sram) with
    | some (e, _) => .error e
    | none => match scalesFail s p t with
      | some e => .error e
      | none => .ok t

/-- The element of W at a row and a column. -/
def weightAt (s : State) (p : Pitch) (t : TDesc) (row col : Nat) : Except Nat W32 :=
  readF32 s p t [t.posOf 1 col, t.posOf 2 row]

/-- Block b of a source. -/
def sourceBlock (s : State) (p : Pitch) (l : Layer) (t : TDesc) (b : Nat) : Except Nat (List (List W32)) :=
  mapE (fun i => mapE (fun j => weightAt s p t (256 * (b / l.across) + i) (256 * (b % l.across) + j))
    (List.range (l.blockCols b))) (List.range (l.blockRows b))

/-- A holder-table entry with its descriptor (R286). -/
def checkHolder (s : State) (p : Pitch) (l : Layer) (sat : Bool) (b : Bytes) : Except Nat Holder :=
  let h : Holder := { ldie := u16 b 0, row0 := u32 b 4, nrows := u32 b 8, col0 := u32 b 12, ncols := u32 b 16, desc := [] }
  if !(zeroRange b 2 2 && zeroRange b 20 4 && h.ldie < p.dieCount && 1 ≤ h.nrows && h.row0 + h.nrows ≤ l.rows &&
      h.col0 % 32 = 0 && 1 ≤ h.ncols && h.col0 + h.ncols ≤ l.cols && (h.ncols % 32 = 0 || h.col0 + h.ncols = l.cols)) then
    .error stBadCommand
  else match fetchTensor s p (u64 b 24) with
    | .error e => .error e
    | .ok (t, raw) =>
      match descFail t true ((fmtOf t.fmt).elim false (fun f => f.arrayFmt || f = .bf16) && weightShape t h.nrows h.ncols)
          (spansMapped s p t) with
      | some (e, _) => .error e
      | none =>
        if !(t.spans.all fun r => windowOk s p h.ldie r.1.toNat (r.2 + 1 - r.1).toNat) ||
            (!sat && !(t.elem?.elim false (·.hasNan))) then .error stBadCommand
        else .ok { h with desc := raw }

/-- x in [0, 1). -/
def f32Unit (x : W32) : Bool := f32Le 0 x && f32Lt x f32One

/-- x finite and not negative. -/
def f32NonNeg (x : W32) : Bool := f32Finite x && f32Le 0 x

/-- The hyperparameters of a request are acceptable (R270). -/
def ruleFieldsOk (b : Bytes) : Bool :=
  let rule := u8 b 8
  let f := u8 b 9
  let w := fun o => (BitVec.ofNat 32 (u32 b o) : W32)
  rule < 3 && f < 64 && bits f 3 2 < 3 && (rule = 0 || !bit f 0) &&
  (if rule = 2 then u8 b 10 = 2 || u8 b 10 = 4 else u8 b 10 = 0) &&
  (-32 ≤ signed (u8 b 11) 8 && signed (u8 b 11) 8 ≤ 31) && f32NonNeg (w 12) && f32NonNeg (w 16) && f32Unit (w 20) &&
  (if rule = 0 then w 24 = 0 && w 28 = 0 else f32Unit (w 24) && f32Finite (w 28) && f32Lt 0 (w 28)) &&
  (if rule = 2 then 10 ≤ u16 b 32 && u16 b 32 ≤ 10000 && 1 ≤ u16 b 34 && u16 b 34 ≤ u16 b 32 && 4 ≤ u8 b 36 && u8 b 36 ≤ 32
   else u16 b 32 = 0 && u16 b 34 = 0 && u8 b 36 = 0) &&
  zeroRange b 37 3 && u16 b 72 ≤ 4096 && zeroRange b 74 6 && restZero b 104

/-- The rule that a request sets. -/
def requestedRule (b : Bytes) (areas : List Nat) (holders : List Holder) : Rule :=
  let w := fun o => (BitVec.ofNat 32 (u32 b o) : W32)
  { rule := u8 b 8, nesterov := bit (u8 b 9) 0, saturate := bit (u8 b 9) 2, round := bits (u8 b 9) 3 2, auto := bit (u8 b 9) 5
    pRoot := u8 b 10, eOut := signed (u8 b 11) 8, lr := w 12, wd := w 16, muB1 := w 20, b2 := w 24, eps := w 28
    refresh := u16 b 32, swapDelay := u16 b 34, iters := u8 b 36, areas := areas, stateBytes := u64 b 48, holders := holders
    emitSeed := BitVec.ofNat 128 (field b 80 16), emitStream := u64 b 96 }

/-- The largest state bytes that an owning die needs. -/
def Layer.need (l : Layer) (rule : Nat) : Nat := ceilDiv l.blockCount l.ownerCount * ruleBytes rule

/-- The holders of a request. -/
def requestedHolders (s : State) (p : Pitch) (l : Layer) (b : Bytes) : Except Nat (List Holder) :=
  match dramTable s p (u64 b 64) (32 * u16 b 72) with
  | .error e => .error e
  | .ok t => mapE (fun i => checkHolder s p l (bit (u8 b 9) 2) (slice t (32 * i) 32)) (List.range (u16 b 72))

/-- Every owning die's area is in the window of one of its own logical clusters. -/
def areasOk (s : State) (p : Pitch) (l : Layer) (areas : List Nat) (n : Nat) : Bool :=
  (List.range (min l.ownerCount l.blockCount)).all fun i => windowOk s p (l.ownerFirst + i) (areas.getD i 0) n

/-- The layer's rule changed without its state: hyperparameters, emission and holders (KEEP_STATE). The request's areas are held to
R271 and then left as they were (notes/assumptions/50.md). -/
def keepState (s : State) (p : Pitch) (l : Layer) (b : Bytes) : Except Nat Rule :=
  match l.rule with
  | none => .error stBadCommand
  | some old =>
    if old.rule != u8 b 8 || u64 b 56 != 0 then .error stBadCommand
    else match dramTable s p (u64 b 40) (8 * l.ownerCount) with
      | .error e => .error e
      | .ok at_ =>
        if !areasOk s p l (u64s at_ l.ownerCount) (u64 b 48) then .error stOutOfRange
        else if u64 b 48 < l.need (u8 b 8) then .error stNoCapacity
        else (requestedHolders s p l b).map fun hs => { requestedRule b old.areas hs with stateBytes := old.stateBytes }

/-- A fresh rule with the initial weights of every block. -/
def freshRule (s : State) (p : Pitch) (l : Layer) (b : Bytes) : Except Nat (Rule × List (List (List W32))) :=
  if u64 b 56 = 0 then .error stBadCommand
  else match dramTable s p (u64 b 40) (8 * l.ownerCount) with
    | .error e => .error e
    | .ok at_ =>
      let areas := u64s at_ l.ownerCount
      if !areasOk s p l areas (u64 b 48) then .error stOutOfRange
      else if u64 b 48 < l.need (u8 b 8) then .error stNoCapacity
      else match checkSource s p l (u64 b 56), requestedHolders s p l b with
        | .error e, _ | _, .error e => .error e
        | .ok t, .ok hs =>
          (mapE (sourceBlock s p l t) (List.range l.blockCount)).map fun ws => (requestedRule b areas hs, ws)

/-- The state of a layer initialised under its new rule. -/
def State.initLayer (s : State) (p : Pitch) (run : Nat) (l : Layer) (r : Rule) (step : Nat) (ws : List (List (List W32))) :
    State :=
  let s := (List.range (min l.ownerCount l.blockCount)).foldl (fun s i => s.zeroSpan p.tag (r.areas.getD i 0) (l.need r.rule)) s
  let s := ws.zipIdx.foldl (fun s w => s.initBlock p.tag l r w.2 w.1) s
  s.updRun p.tag run fun x => x.updLayer l.tag fun l =>
    { l with rule := some r, p1 := f32One, p2 := f32One, before := (f32One, f32One), scalarStep := step }

/-- TRN_UPDATE_RULE_SET 0x0402. -/
def execTrnUpdateRuleSet (seq : Nat) (s : State) : Host.Outcome State Fault Refusal :=
  .next (s.onRequest seq 0x0402 fun q p =>
    let b := q.body
    match (p.run? (u32 b 0)).bind fun r => (r.layer? (u32 b 4)).map fun l => (r, l) with
    | none => s.respond seq stNotFound []
    | some (r, l) =>
      let need := le 8 (l.need (u8 b 8))
      if r.inProgress p then s.respond seq stBusy []
      else if !ruleFieldsOk b then s.respond seq stBadCommand []
      else if bit (u8 b 9) 1 then
        match keepState s p l b with
        | .error e => s.respond seq e []
        | .ok u => (s.updRun p.tag r.id fun x => x.updLayer l.tag fun l => { l with rule := some u }).respond seq stOk need
      else match freshRule s p l b with
        | .error e => s.respond seq e []
        | .ok (u, ws) => (s.initLayer p r.id l u r.step ws).respond seq stOk need)

/-! ### The Calliope (R284, R285) -/

/-- A block of the run has received a delivery for the step or a later one. -/
def Run.reached (r : Run) (t : Nat) : Bool := r.blocks.any fun c => t < c.step || c.grads.any fun g => t ≤ g.step

/-- The schedule that a request sets. -/
def parseSchedule (b : Bytes) : Schedule :=
  { kind := u8 b 5, restarts := u8 b 6, restartMult := u8 b 7, fromStep := u64 b 8, warmSteps := u32 b 16, decaySteps := u32 b 20
    warmStart := BitVec.ofNat 32 (u32 b 24), floor := BitVec.ofNat 32 (u32 b 28) }

/-- The fields of a schedule are acceptable. -/
def scheduleOk (b : Bytes) : Bool :=
  let c := parseSchedule b
  let unit := fun x => f32Le 0 x && f32Le x f32One
  u8 b 4 < 2 && c.kind < 5 && 1 ≤ c.restartMult && c.restartMult ≤ 16 && c.warmSteps ≤ 16777216 && 1 ≤ c.decaySteps &&
  c.decaySteps ≤ 16777216 && unit c.warmStart && unit c.floor && (c.kind != 3 || f32Lt 0 c.floor) && restZero b 32 &&
  c.decaySteps * c.restartMult ^ c.restarts ≤ 16777216

/-- A new record: it replaces the pending one, which no delivery has reached. -/
def Run.addSchedule (r : Run) (wd : Bool) (c : Schedule) : Run :=
  let keep := fun (l : List Schedule) => ((l.zipIdx.filter fun x => x.2 = 0 || r.reached x.1.fromStep).map (·.1)) ++ [c]
  if wd then { r with wd := keep r.wd } else { r with lr := keep r.lr }

/-- TRN_SCHEDULE_SET 0x0403. -/
def execTrnScheduleSet (seq : Nat) (s : State) : Host.Outcome State Fault Refusal :=
  .next (s.onRequest seq 0x0403 fun q p =>
    let b := q.body
    match p.run? (u32 b 0) with
    | none => s.respond seq stNotFound []
    | some r =>
      let c := parseSchedule b
      let wd := u8 b 4 = 1
      if !scheduleOk b then s.respond seq stBadCommand []
      else if r.reached c.fromStep || ((if wd then r.wd else r.lr) = [] && c.fromStep != r.startStep) then
        s.respond seq stOutOfRange []
      else (s.updRun p.tag r.id fun r => r.addSchedule wd c).respond seq stOk [])

/-- The period of a step after the warm-up and where in it the step lies (R285): n and P, looking at most `fuel` restarts
on. -/
def restartAt (mult : Nat) : Nat → Nat → Nat → Nat × Nat
  | 0, n, per => (n, per)
  | fuel + 1, n, per => if per ≤ n then restartAt mult fuel (n - per) (per * mult) else (n, per)

/-- K5, then K4 down to K0 (R285). -/
def kCos5 : W32 := 0xBBF183A8
def kCos : List W32 := [0x3DA83C1A, 0xBF196966, 0x402335E3, 0xC0A55DE7, 0x40490FDB]

/-- 0.5 in FP32. -/
def f32Half : W32 := 0x3F000000

/-- The multiplier of a step under a record (R285). -/
def Schedule.mult (c : Schedule) (t : Nat) : W32 :=
  let n := t - c.fromStep
  if n < c.warmSteps then
    ffma (fdiv (f32OfNat n) (f32OfNat c.warmSteps)) (fadd f32One (f32Negate c.warmStart)) c.warmStart
  else
    let n := n - c.warmSteps
    if c.kind = 0 then f32One
    else if c.kind = 4 then
      fmax c.floor (frsqrt (fadd f32One (fdiv (f32OfNat (min n (2 ^ 24))) (f32OfNat c.decaySteps))))
    else
      let r := restartAt c.restartMult c.restarts n c.decaySteps
      if r.2 ≤ r.1 then c.floor
      else
        let x := fdiv (f32OfNat r.1) (f32OfNat r.2)
        if c.kind = 1 then ffma x (fadd c.floor f32MinusOne) f32One
        else if c.kind = 3 then fexp (fmul x (flog c.floor))
        else
          let u := fadd x (f32Negate f32Half)
          let h := fmul u (horner kCos5 (fmul u u) kCos)
          ffma (fmul f32Half (fadd f32One (f32Negate h))) (fadd f32One (f32Negate c.floor)) c.floor

/-- The multiplier of a step under the records of a run: the last record that applies; 1 without a schedule. -/
def scheduleMult (l : List Schedule) (t : Nat) : W32 :=
  ((l.filter fun c => c.fromStep ≤ t).getLast?).elim f32One fun c => c.mult t

/-! ### TRN_STEP_MULTIPLIER (R262) -/

/-- The step that takes the next multiplier. -/
def Run.nextMult (r : Run) : Nat := (r.mults.getLast?).elim r.startStep fun m => m.1 + 1

/-- TRN_STEP_MULTIPLIER 0x0405. -/
def execTrnStepMultiplier (seq : Nat) (s : State) : Host.Outcome State Fault Refusal :=
  .next (s.onRequest seq 0x0405 fun q p =>
    let b := q.body
    match p.run? (u32 b 0) with
    | none => s.respond seq stNotFound []
    | some r =>
      let m : W32 := BitVec.ofNat 32 (u32 b 4)
      if !f32NonNeg m || !restZero b 16 then s.respond seq stBadCommand []
      else if u64 b 8 != r.nextMult then s.respond seq stOutOfRange []
      else
        let m := if f32IsZero m then 0 else m
        (s.updRun p.tag r.id fun r => { r with mults := r.mults ++ [(u64 b 8, m)] }).respond seq stOk [])

/-! ### Checkpoints (R254, R255, R258) -/

/-- A die's state bytes over all layers (R272). -/
def Run.stateBytes (r : Run) (ldie : Nat) : Nat :=
  (r.layers.map fun l => l.rule.elim 0 fun u => (l.owned ldie).length * ruleBytes u.rule).foldl (· + ·) 0

/-- Where layer `k` of the table begins in a die's slot, from the slot's start (R255). -/
def Run.layerOffset (r : Run) (ldie k : Nat) : Nat :=
  (r.layers.take k).foldl (fun a l => a + 112 + l.rule.elim 0 fun u => (l.owned ldie).length * ruleBytes u.rule) 64

/-- The newest COMPLETE slot. -/
def Ckpt.newest (c : Ckpt) : Option Nat :=
  if c.slotSt.getD 0 0 = 2 && (c.slotSt.getD 1 0 != 2 || c.slotStep.getD 1 0 < c.slotStep.getD 0 0) then some 0
  else if c.slotSt.getD 1 0 = 2 then some 1 else none

/-- The address of a slot on a die. -/
def Ckpt.slotAddr (c : Ckpt) (ldie slot : Nat) : Nat := c.areas.getD ldie 0 + slot * c.slotBytes

/-- The slot that does not hold the newest COMPLETE checkpoint. -/
def Ckpt.spare (c : Ckpt) : Nat := c.newest.elim 0 fun n => 1 - n

/-- A slot header (R255). -/
def slotHeader (run step st written : Nat) : Bytes :=
  le 4 0x434B5001 ++ le 4 run ++ le 8 step ++ le 1 st ++ le 3 0 ++ le 4 written ++ le 40 0

/-- STATE and STEP of a slot as the headers on the owning dies agree to give them; EMPTY where they do not
(notes/assumptions/25.md). -/
def Ckpt.header (s : State) (p : Pitch) (r : Run) (c : Ckpt) (slot : Nat) : Nat × Nat :=
  let hs := (r.owners p).map fun d => (readBytes s p (c.slotAddr d slot) 24).toOption
  match hs.head? with
  | some (some h) =>
    if u32 h 0 = 0x434B5001 && u32 h 4 = r.id && hs.all (fun g => g.elim false fun g => slice g 0 17 = slice h 0 17) then
      (u8 h 16, u64 h 8)
    else (0, 0)
  | _ => (0, 0)

/-- A configuration whose areas may hold slots already. -/
def Ckpt.loaded (s : State) (p : Pitch) (r : Run) (c : Ckpt) : Ckpt :=
  let a := c.header s p r 0
  let b := c.header s p r 1
  { c with slotSt := [a.1, b.1], slotStep := [a.2, b.2] }

/-- The slot headers of every owning die. -/
def State.writeSlots (s : State) (tag : Nat) (r : Run) (c : Ckpt) (slot step st : Nat) : State :=
  match s.pitch? tag with
  | none => s
  | some p => (r.owners p).foldl (fun s d =>
      s.tryWrite tag (c.slotAddr d slot) (slotHeader r.id step st (c.written.filter fun w => w.1 = d).length)) s

/-- The next step to commit whose states can still be read (R254; notes/assumptions/25.md). -/
def Run.nextCkpt (r : Run) : Nat := r.blocks.foldl (fun t c => max t (c.step - 1)) r.step

/-- Step t is a checkpoint step (R254). -/
def Run.ckptStep (r : Run) (t : Nat) : Bool :=
  r.ckpt.elim false fun c => c.since ≤ t &&
    (c.nowStep = some t || (c.every != 0 && r.startStep ≤ t && (t + 1 - r.startStep) % c.every = 0))

/-- Every block of a layer has ended step t and none is past step t + 1. -/
def Run.layerAt (r : Run) (layer t : Nat) : Bool := r.blocks.all fun c => c.layer != layer || c.step = t + 1

/-- The step that a layer has just committed. -/
def Run.layerStep (r : Run) (layer : Nat) : Nat := ((r.blocks.find? fun c => c.layer = layer).elim 0 (·.step)) - 1

/-- A checkpoint step that is over. -/
def Ckpt.pass (c : Ckpt) (t : Nat) : Ckpt :=
  { c with passed := c.passed ++ [t], nowStep := if c.nowStep = some t then none else c.nowStep }

/-- A slot that was being written ends in a state on every die. -/
def Ckpt.ended (c : Ckpt) (slot t st : Nat) : Ckpt := { c.pass t with slotSt := c.slotSt.set slot st, writing := none }

/-- The end of writing a slot (R255, R257). -/
def State.endCkpt (s : State) (tag : Nat) (r : Run) (c : Ckpt) (slot t st : Nat) : State :=
  (s.writeSlots tag r c slot t st).updRun tag r.id fun r => { r with ckpt := some (c.ended slot t st) }

/-- A checkpoint begins: the spare slot is WRITING on every die. -/
def State.startCkpt (s : State) (tag : Nat) (r : Run) (c : Ckpt) (t : Nat) : State :=
  let slot := c.spare
  let c := { c with slotSt := c.slotSt.set slot 1, slotStep := c.slotStep.set slot t, writing := some (slot, t), written := []
                    progress := c.areas.zipIdx.map fun a => (a.2, s.now) }
  (s.updRun tag r.id fun r => { r with ckpt := some c }).writeSlots tag r c slot t 1

/-- A step falls due where it is a checkpoint step (R256, R257): it begins, or, while an earlier one is still being written, it
is skipped for good and an event is written. -/
def State.ckptDue (s : State) (tag run t : Nat) : State :=
  match (s.run? tag run).bind fun r => r.ckpt.map fun c => (r, c) with
  | none => s
  | some (r, c) =>
    if !r.ckptStep t || c.passed.contains t then s
    else match c.writing with
      | none => s.startCkpt tag r c t
      | some (_, w) =>
        if w = t then s
        else (s.updRun tag run fun r => { r with ckpt := some (c.pass t) }).logNote 8 "CHECKPOINT_SKIPPED" none noDie tag t

/-- The response of TRN_CHECKPOINT: the current complete slot and its STEP, open where there is none, and the other slot's
state. -/
def ckptStatus (s : State) (c : Option Ckpt) : Bytes :=
  match c.bind fun c => c.newest.map fun n => (c, n) with
  | some (c, n) => le 1 n ++ le 7 0 ++ le 8 (c.slotStep.getD n 0) ++ le 1 (c.slotSt.getD (1 - n) 0) ++ le 7 0
  | none => s.openBytes 1 ++ le 7 0 ++ (s.openBytes 9).drop 1 ++ le 1 (c.elim 0 fun c => c.slotSt.getD 1 0) ++ le 7 0

/-- The response with OK. -/
def State.ckptAnswer (s : State) (seq tag run : Nat) : State :=
  let c := (s.run? tag run).bind (·.ckpt)
  s.draw.respond seq stOk (ckptStatus s c)

/-- A die's checkpoint area is where its target allows: the status of the failure, if any. -/
def ckptAreaFail (s : State) (p : Pitch) (spoil : Bool) (ldie a n : Nat) : Option Nat :=
  if spoil then
    if (p.regions.zipIdx.any fun r => decide (spoilBase + r.2 * 2 ^ 42 ≤ a) && decide (a + n ≤ spoilBase + r.2 * 2 ^ 42 + r.1.length)) then
      none
    else some stOutOfRange
  else if !dramSpan s p a n then some stOutOfRange
  else if (p.lmap[a / 2 ^ 32]?).map (·.module) = (p.ldie ldie).map (·.module) then some stBadCommand
  else none

/-- TRN_CHECKPOINT 0x0404 with OP CONFIGURE. -/
def execTrnCheckpointConfigure (seq : Nat) (s : State) : Host.Outcome State Fault Refusal :=
  .next (s.onRequestOp seq 0x0404 4 4 0 fun q p =>
    let b := q.body
    match p.run? (u32 b 0) with
    | none => s.respond seq stNotFound []
    | some r =>
      if 2 ≤ u8 b 5 || !restZero b 28 then s.respond seq stBadCommand []
      else match dramTable s p (u64 b 8) (8 * p.dieCount) with
        | .error e => s.respond seq e []
        | .ok t =>
          let areas := u64s t p.dieCount
          if (r.owners p).any (fun d => u64 b 16 < r.stateBytes d + 64 + 112 * r.layers.length) then s.respond seq stBadCommand []
          else match (r.owners p).findSome? fun d => ckptAreaFail s p (u8 b 5 = 1) d (areas.getD d 0) (2 * u64 b 16) with
            | some e => s.respond seq e []
            | none =>
              let c : Ckpt :=
                { spoil := u8 b 5 = 1, every := u16 b 6, areas := areas, slotBytes := u64 b 16
                  timeoutMs := if u32 b 24 = 0 then 1000 else u32 b 24, since := r.nextCkpt }
              (s.updRun p.tag r.id fun r => { r with ckpt := some (c.loaded s p r) }).ckptAnswer seq p.tag r.id)

/-- The fields that only CONFIGURE reads are zero. -/
def ckptRestOk (b : Bytes) : Bool := restZero b 5

/-- TRN_CHECKPOINT with OP NOW: the step in progress or next, or the first one after it that no block is past. -/
def execTrnCheckpointNow (seq : Nat) (s : State) : Host.Outcome State Fault Refusal :=
  .next (s.onRequestOp seq 0x0404 4 4 1 fun q p =>
    match p.run? (u32 q.body 0) with
    | none => s.respond seq stNotFound []
    | some r =>
      if !ckptRestOk q.body || r.ckpt.isNone then s.respond seq stBadCommand []
      else
        (s.updRun p.tag r.id fun r => { r with ckpt := r.ckpt.map fun c => { c with nowStep := some r.nextCkpt } }).ckptAnswer seq p.tag r.id)

/-- TRN_CHECKPOINT with OP QUERY. -/
def execTrnCheckpointQuery (seq : Nat) (s : State) : Host.Outcome State Fault Refusal :=
  .next (s.onRequestOp seq 0x0404 4 4 3 fun q p =>
    match p.run? (u32 q.body 0) with
    | none => s.respond seq stNotFound []
    | some r => if !ckptRestOk q.body then s.respond seq stBadCommand [] else s.ckptAnswer seq p.tag r.id)

/-- One layer of a die read from a slot: its record and its blocks' states, the digest checked (R258). -/
def restoreLayer (s : State) (p : Pitch) (r : Run) (c : Ckpt) (slot ldie : Nat) (l : Layer × Nat) : Except Nat Bytes :=
  let a := c.slotAddr ldie slot + r.layerOffset ldie l.2
  let n := 64 + l.1.rule.elim 0 fun u => (l.1.owned ldie).length * ruleBytes u.rule
  match readBytes s p a (n + 48) with
  | .error e => .error e
  | .ok b => if sha384 (b.take n) = b.drop n then .ok (b.take n) else .error stVerifyFailed

/-- Every layer of every owning die. -/
def restoreAll (s : State) (p : Pitch) (r : Run) (c : Ckpt) (slot : Nat) : Except Nat (List (Nat × Layer × Bytes)) :=
  (mapE (fun d => mapE (fun l => (restoreLayer s p r c slot d l).map fun b => (d, l.1, b)) r.layers.zipIdx) (r.owners p)).map
    List.flatten

/-- A layer's blocks of a die brought back into its state area, with P1 and P2. -/
def State.loadLayer (s : State) (tag run step : Nat) (x : Nat × Layer × Bytes) : State :=
  match x.2.1.rule with
  | none => s
  | some u =>
    let l := x.2.1
    let s := (l.owned x.1).zipIdx.foldl (fun s b =>
      s.tryWrite tag (l.stateAddr u b.1) (slice x.2.2 (64 + ruleBytes u.rule * b.2) (ruleBytes u.rule))) s
    s.updRun tag run fun r => r.updLayer l.tag fun l =>
      let p : W32 × W32 := (BitVec.ofNat 32 (u32 x.2.2 8), BitVec.ofNat 32 (u32 x.2.2 12))
      { l with p1 := p.1, p2 := p.2, before := p, scalarStep := step + 1 }

/-- Every step number set to STEP + 1; nothing of a step is left, and its checkpoint steps begin anew. -/
def Run.restartAt (r : Run) (t : Nat) : Run :=
  { r with
    step := t, norms := [], missed := [], aborts := []
    ckpt := r.ckpt.map fun c => { c with since := t, passed := [] }
    mults := r.mults.filter fun m => m.1 < t
    blocks := r.blocks.map fun c => { c with step := t, st := .collecting, grads := [] } }

/-- The Crusher state of every owning die is undefined: free values (R258). -/
def State.loseCrusher (s : State) (p : Pitch) (r : Run) : State :=
  r.layers.foldl (fun s l =>
    match l.rule with
    | none => s
    | some u =>
      let s := (List.range (min l.ownerCount l.blockCount)).foldl (fun s i =>
        s.undefineBytes p.tag (u.areas.getD i 0) (u.areas.getD i 0 + l.need u.rule)) s
      let free := fun i => (BitVec.ofNat 32 (number (((s.openBytes (4 * i + 4)).drop (4 * i)))) : W32)
      (s.updRun p.tag r.id fun r => r.updLayer l.tag fun l => { l with p1 := free 0, p2 := free 1, before := (free 0, free 1) }).draw) s

/-- A checkpoint that a RESTORE finds unfinished can no longer be read: its slot is FAILED (notes/assumptions/25.md). -/
def State.dropCkpt (s : State) (tag run : Nat) : State :=
  match (s.run? tag run).bind fun r => r.ckpt.bind fun c => c.writing.map fun w => (r, c, w) with
  | none => s
  | some (r, c, slot, t) => s.endCkpt tag r c slot t 3

/-- TRN_CHECKPOINT with OP RESTORE (R258). -/
def execTrnCheckpointRestore (seq : Nat) (s : State) : Host.Outcome State Fault Refusal :=
  .next (s.onRequestOp seq 0x0404 4 4 2 fun q p =>
    match p.run? (u32 q.body 0) with
    | none => s.respond seq stNotFound []
    | some r =>
      if !ckptRestOk q.body then s.respond seq stBadCommand []
      else if r.inProgress p then s.respond seq stBusy []
      else match r.ckpt.bind fun c => c.newest.map fun n => (c, n) with
        | none => s.respond seq stNotFound []
        | some (c, n) => match restoreAll s p r c n with
          | .error e => (s.loseCrusher p r).respond seq e []
          | .ok ls =>
            let t := c.slotStep.getD n 0
            let s := ls.foldl (fun s x => s.loadLayer p.tag r.id t x) s
            ((s.dropCkpt p.tag r.id).updRun p.tag r.id fun r => r.restartAt (t + 1)).ckptAnswer seq p.tag r.id)

end Sys2Proof.Machine
end

