-- ==== Sys2Proof/Machine/Crusher.lean ====
section
/-! DEFINITION. The Crusher: deliveries (R268, R269), the norm (R260, R261), the update rules (R273 to R278), missed steps
(R279), the KRON refresh (R280 to R282), HELD and LAGGED clipping (R263, R264), the commit of a run's step (R247), emission
(R287, R288, R303), and the writing of checkpoints (R255 to R257). -/

namespace Sys2Proof.Machine

open Sys2Proof

/-! ### Deliveries (R268) -/

/-- Index of a strip of a block: its row and 32 of its columns (R268). -/
def stripIndex (row col : Nat) : Nat := row * 8 + col / 32

/-- The strips of a region. -/
def regionStrips (r : BlockRef) : List Nat :=
  (List.range r.nrows).flatMap fun i => (List.range (ceilDiv r.ncols 32)).map fun j => stripIndex (r.row0 + i) (r.col0 + 32 * j)

/-- Strips of a block's clipped size. -/
def Layer.stripCount (l : Layer) (b : Nat) : Nat := l.blockRows b * ceilDiv (l.blockCols b) 32

/-- The elements of a reduced region, each rounded once to FP32 (R48, R267): index row × 256 + column. -/
def regionElems (c : Coll) (r : BlockRef) : List (Nat × Option W32) :=
  let t := regionDesc r
  t.boxStrips.zipIdx.flatMap fun v =>
    let a := (c.anchors.getD []).getD v.2 0
    (t.lanesIn v.1).map fun l =>
      let x := t.idxAt v.1 l
      let bad := (c.masks.getD v.2 []).getD l false
      let k := convert .fp32 .rne (bit c.control 45) 0 0 (anchoredNum c.a32 a ((c.sums.getD v.2 []).getD l 0) bad)
      ((r.row0 + x.getD 1 0) * 256 + r.col0 + x.getD 0 0, if bad then none else some (BitVec.ofNat 32 k.code))

/-- The gradient of a step in a block's buffers. -/
def CBlock.grad? (c : CBlock) (t : Nat) : Option Gradient := c.grads.find? fun g => g.step = t

/-- The place that the next complete gradient takes (R283). -/
def Pitch.nextOrder (p : Pitch) : Nat := (p.runs.flatMap (·.blocks)).foldl (fun n c => max n c.order) 0 + 1

/-- A region joined to the gradient of its step; `o` is the place of a gradient that it completes. -/
def CBlock.deliver (c : CBlock) (t : Nat) (strips : List Nat) (elems : List (Nat × Option W32)) (full o : Nat) : CBlock :=
  let g := (c.grad? t).getD ⟨t, [], []⟩
  let g := { g with strips := g.strips ++ strips, elems := g.elems ++ elems }
  let done := t = c.step && c.st = .collecting && g.strips.length = full
  { c with
    grads := (c.grads.filter fun x => x.step != t) ++ [g]
    st := if done then .complete else c.st
    order := if done then o else c.order }

/-- Block buffers in use on a die: gradients that are not in the hold area (R266). -/
def Pitch.buffersUsed (p : Pitch) (ldie : Nat) : Nat :=
  (p.runs.map fun r =>
    ((r.owned ldie).map fun c => (c.grads.filter fun g => !(c.st = .held && g.step = c.step)).length).foldl (· + ·) 0).foldl
    (· + ·) 0

/-- The exact square of a finite element in units of 2^−298 (R260); none where it is not finite. -/
def squareUnits (x : Option W32) : Option Nat :=
  x.bind fun x => match f32Num x with
    | .fin _ man exp => some (man * man * 2 ^ (2 * exp + 298).toNat)
    | _ => none

/-- All ones of the 640-bit accumulator. -/
def normMax : Nat := 2 ^ 640 - 1

/-- Squares added into a partial; on saturation it is all ones (R260). -/
def NormPart.add (n : NormPart) (xs : List (Option W32)) : NormPart :=
  xs.foldl (fun n x => match squareUnits x with
    | none => { n with invalid := true }
    | some q => if n.sat || normMax < n.sum + q then { n with sum := normMax, sat := true } else { n with sum := n.sum + q }) n

/-- The partial of a die for a step with more squares. -/
def Run.addSquares (r : Run) (ldie t : Nat) (xs : List (Option W32)) : Run :=
  let old := (r.norms.find? fun n => n.ldie = ldie && n.step = t).getD ⟨ldie, t, 0, false, false, false⟩
  { r with norms := (r.norms.filter fun n => !(n.ldie = ldie && n.step = t)) ++ [old.add xs] }

/-- The die can take a partial for the step: it holds at most 4 that are not sent (R260). -/
def Run.normRoom (r : Run) (ldie t : Nat) : Bool :=
  let mine := r.norms.filter fun n => n.ldie = ldie && !n.sent
  mine.any (fun n => n.step = t) || mine.length < 4

/-- The squares of a block's gradient joined to its die's partial: those of a block that misses the step stay out (R260,
R265). -/
def Run.addNorm (r : Run) (ldie : Nat) (c : CBlock) : Run :=
  r.addSquares ldie c.step ((c.grad? c.step).elim [] fun g => g.elems.map (·.2))

/-- A delivery is written into its block, the die holds a partial for its step, and every contributor completes. -/
def State.acceptDelivery (s : State) (tag : Nat) (c : Coll) (r : BlockRef) (l : Layer) : State :=
  let o := (s.pitch? tag).elim 0 Pitch.nextOrder
  let s := s.updRun tag r.run fun x =>
    (x.updBlock r.layerTag r.block fun b =>
      b.deliver r.step (regionStrips r) (regionElems c r) (l.stripCount r.block) o).addSquares (l.owner r.block) r.step []
  s.endColl tag c (c.outcome 0)

/-- CRUSHER_DELIVERY: a reduced region reaches the owning Crusher (R268). A delivery that must wait leaves the state as it
is; one of a step that an abort has ended is below the block's step (R279). -/
def execCrusherDelivery (tag ident : Nat) (s : State) : Host.Outcome State Fault Refusal :=
  .next (match s.pitch? tag, s.coll? tag ident with
    | some p, some c =>
      let r := parseBlockRef c.dest
      match (p.run? r.run).bind fun x => (x.layer? r.layerTag).bind fun l => (x.block? r.layerTag r.block).map fun b => (x, l, b) with
      | none => s
      | some (x, l, b) =>
        if !(bits c.control 2 2 = 2 && c.full && c.contributors.all (·.rounded)) then s
        else if r.step < b.step || x.aborts.contains (r.layerTag, r.block, r.step) then s.endColl tag c { status := stAborted }
        else if b.step + 4 ≤ r.step then s
        else match b.grad? r.step with
          | some g =>
            if (regionStrips r).any g.strips.contains then s.endColl tag c { status := stBadDescriptor }
            else if x.normRoom (l.owner r.block) r.step then s.acceptDelivery tag c r l else s
          | none =>
            if p.buffersUsed (l.owner r.block) < 64 && x.normRoom (l.owner r.block) r.step then s.acceptDelivery tag c r l
            else s
    | _, _ => s)

/-! ### State areas as the Crusher reads them -/

/-- A byte at a pitch address; one in an uncorrectable unit reads as a free value (notes/assumptions/26.md). -/
def crusherByte (s : State) (p : Pitch) (a : Nat) : Byte :=
  match readByte s p a with
  | .ok b => b
  | .error _ => Config.undefinedByte s.free (a % 2 ^ 22)

/-- An FP32 word at a pitch address. -/
def crusherWord (s : State) (p : Pitch) (a : Nat) : W32 :=
  BitVec.ofNat 32 (number ((List.range 4).map fun i => crusherByte s p (a + i)))

/-- The m × n corner of array `k` of the block whose header is at an address. -/
def readArrayAt (s : State) (p : Pitch) (header k m n : Nat) : List (List W32) :=
  (List.range m).map fun i => (List.range n).map fun j => crusherWord s p (header + 64 + 262144 * k + 1024 * i + 4 * j)

/-! ### Matrices (R278) -/

/-- Columns of a matrix with `n` columns. -/
def transposeMat (n : Nat) (a : List (List W32)) : List (List W32) := (List.range n).map fun j => a.map fun r => r.getD j 0

/-- One output element: ascending k. -/
def dotRow (xs ys : List W32) : W32 := (xs.zip ys).foldl (fun c x => ffma x.1 x.2 c) 0

/-- A · B, where B has `n` columns. -/
def matMul (n : Nat) (a b : List (List W32)) : List (List W32) :=
  let cols := transposeMat n b
  a.map fun r => cols.map fun c => dotRow r c

/-- Element by element. -/
def mapMat2 (f : W32 → W32 → W32) (a b : List (List W32)) : List (List W32) :=
  (a.zip b).map fun r => (r.1.zip r.2).map fun x => f x.1 x.2
def mapMat (f : W32 → W32) (a : List (List W32)) : List (List W32) := a.map fun r => r.map f

/-! ### The step's scalars (R273) -/

/-- The scalars of a step of a layer. -/
structure Scalars where
  lr : W32
  dk : W32
  a : W32
  rc2 : W32
  ob1 : W32
  ob2 : W32
  deriving DecidableEq, Repr

/-- x multiplied `n` times by y, one rounding each. -/
def mulTimes (y : W32) : Nat → W32 → W32
  | 0, x => x
  | n + 1, x => mulTimes y n (fmul x y)

/-- P1 and P2 of a layer after step t (R273). The run may be one step further where its blocks are held (R264). -/
def Layer.products (l : Layer) (u : Rule) (t : Nat) : W32 × W32 :=
  if t + 1 < l.scalarStep then l.before
  else if u.rule = 1 then (mulTimes u.muB1 (t + 1 - l.scalarStep) l.p1, mulTimes u.b2 (t + 1 - l.scalarStep) l.p2) else (l.p1, l.p2)

def scalarsAt (r : Run) (l : Layer) (u : Rule) (t : Nat) : Scalars :=
  let lr := fmul u.lr (scheduleMult r.lr t)
  let p := l.products u t
  { lr := lr
    dk := fadd f32One (f32Negate (fmul lr (fmul u.wd (scheduleMult r.wd t))))
    a := fdiv lr (fadd f32One (f32Negate p.1))
    rc2 := fdiv f32One (fadd f32One (f32Negate p.2))
    ob1 := fadd f32One (f32Negate u.muB1)
    ob2 := fadd f32One (f32Negate u.b2) }

/-- The multiplier that step t of the run uses, if it is written (R263, R264). -/
def Run.mult? (r : Run) (t : Nat) : Option W32 :=
  if r.held then (r.mults.find? fun m => m.1 = t).map (·.2)
  else if t = r.startStep then some r.initMult
  else (r.mults.find? fun m => m.1 + 1 = t).map (·.2)

/-! ### The update rules -/

/-- MOMENTUM on one element: w and mom (R274). -/
def momentumElem (u : Rule) (k : Scalars) (m : W32) (w mom : W32) (g : Option W32) : W32 × W32 :=
  match g with
  | none => (w, mom)
  | some g =>
    let g := fmul g m
    let mom := ffma u.muB1 mom g
    let d := if u.nesterov then ffma u.muB1 mom g else mom
    (ffma (f32Negate k.lr) d (fmul w k.dk), mom)

/-- ADAMW on one element: w, m1 and m2 (R275). -/
def adamwElem (u : Rule) (k : Scalars) (m : W32) (w m1 m2 : W32) (g : Option W32) : W32 × W32 × W32 :=
  match g with
  | none => (w, m1, m2)
  | some g =>
    let g := fmul g m
    let m1 := ffma u.muB1 m1 (fmul k.ob1 g)
    let m2 := ffma u.b2 m2 (fmul k.ob2 (fmul g g))
    let den := fadd (fsqrt (fmul m2 k.rc2)) u.eps
    (ffma (f32Negate k.a) (fdiv m1 den) (fmul w k.dk), m1, m2)

/-- KRON on a block (R276): W, MOM, LSTAT, RSTAT. An invalid element counts as g = +0 (R269). -/
structure KronState where
  w : List (List W32)
  mom : List (List W32)
  lstat : List (List W32)
  rstat : List (List W32)
  deriving DecidableEq, Repr

def kronStep (u : Rule) (k : Scalars) (m : W32) (r c : Nat) (x : KronState) (pl pr : List (List W32))
    (g : List (List (Option W32))) : KronState :=
  let g := g.map fun row => row.map fun e => e.elim 0 fun x => fmul x m
  let gt := transposeMat c g
  let lstat := mapMat2 (fun a b => ffma u.b2 a (fmul k.ob2 b)) x.lstat (matMul r g gt)
  let rstat := mapMat2 (fun a b => ffma u.b2 a (fmul k.ob2 b)) x.rstat (matMul c gt g)
  let mom := mapMat2 (fun a b => ffma u.muB1 a b) x.mom g
  let up := matMul c (matMul c pl mom) pr
  { w := mapMat2 (fun a b => ffma (f32Negate k.lr) a (fmul b k.dk)) up x.w, mom := mom, lstat := lstat, rstat := rstat }

/-! ### The KRON refresh (R280, R281) -/

/-- (S + EPS·I)^(−1/p) by the fixed iteration of R281. -/
def inverseRoot (p : Nat) (eps : W32) (iters n : Nat) (s : List (List W32)) : List (List W32) :=
  let a := s.zipIdx.map fun r => r.1.zipIdx.map fun x => if r.2 = x.2 then fadd x.1 eps else x.1
  let q := (a.flatMap id).foldl (fun q x => ffma x x q) (0 : W32)
  let nf := fsqrt q
  let z := if p = 2 then fsqrt nf else fsqrt (fsqrt nf)
  let zz := fmul z z
  let zp := if p = 2 then zz else fmul zz zz
  let invP : W32 := if p = 2 then 0x3F000000 else 0x3E800000
  let x := diag n (fdiv f32One z)
  let mx := mapMat (fun e => fmul e (fdiv f32One zp)) a
  ((List.range iters).foldl (fun (acc : List (List W32) × List (List W32)) _ =>
    let t := acc.2.zipIdx.map fun r => r.1.zipIdx.map fun e =>
      fmul (fadd (if r.2 = e.2 then f32OfNat (p + 1) else 0) (f32Negate e.1)) invP
    let x := matMul n acc.1 t
    let t2 := if p = 2 then t else matMul n t t
    (x, matMul n t2 (matMul n t2 acc.2))) (x, mx)).1

/-- REFRESH_STATE and IN_USE of a block (R272). -/
def kronHeader (s : State) (p : Pitch) (header : Nat) : Nat × Nat :=
  ((crusherByte s p header).toNat, (crusherByte s p (header + 1)).toNat % 2)

def State.setKronHeader (s : State) (tag header refresh inUse : Nat) : State := s.tryWrite tag header (le 1 refresh ++ le 1 inUse)

/-- A snapshot step of a layer: (t − START_STEP + 1) mod REFRESH = 0 (R280). -/
def snapStep (r : Run) (u : Rule) (t : Nat) : Bool := r.startStep ≤ t && (t + 1 - r.startStep) % u.refresh = 0

/-- The step t0 + SWAP_DELAY of a round. -/
def swapStep (r : Run) (u : Rule) (t : Nat) : Bool := u.swapDelay ≤ t && snapStep r u (t - u.swapDelay)

/-- Some block of a layer that has not reached past step t is SNAP: the refresh round before step t is not finished. -/
def roundOpen (s : State) (p : Pitch) (r : Run) (l : Layer) (u : Rule) (t : Nat) : Bool :=
  r.blocks.any fun x => x.layer = l.tag && x.step ≤ t && (kronHeader s p (l.stateAddr u x.block)).1 = 1

/-- A KRON block must wait before its step: at a swap step for its own refresh (R280), at a snapshot step for the whole round
before it (R282). -/
def swapWaits (s : State) (p : Pitch) (r : Run) (l : Layer) (u : Rule) (c : CBlock) : Bool :=
  u.rule = 2 && swapStep r u c.step && (kronHeader s p (l.stateAddr u c.block)).1 = 1
def roundWaits (s : State) (p : Pitch) (r : Run) (l : Layer) (u : Rule) (c : CBlock) : Bool :=
  u.rule = 2 && snapStep r u c.step && roundOpen s p r l u c.step
def kronWaits (s : State) (p : Pitch) (r : Run) (l : Layer) (u : Rule) (c : CBlock) : Bool :=
  swapWaits s p r l u c || roundWaits s p r l u c

/-- The event of a snapshot step that waits for the round before it, written once for each layer and step (R282). -/
def State.noteLate (s : State) (tag : Nat) (p : Pitch) (r : Run) (l : Layer) (u : Rule) (c : CBlock) : State :=
  if roundWaits s p r l u c && l.lateAt != some c.step then
    (s.updRun tag r.id fun r => r.updLayer l.tag fun l => { l with lateAt := some c.step }).logNote 8 "KRON_ROUND_LATE" none noDie
      tag l.tag
  else s

/-- The swap before the update of a swap step: IN_USE flips and REFRESH_STATE is NONE. -/
def State.kronSwap (s : State) (tag : Nat) (r : Run) (u : Rule) (header t : Nat) : State :=
  match s.pitch? tag with
  | none => s
  | some p =>
    let h := kronHeader s p header
    if u.rule = 2 && swapStep r u t && h.1 = 2 then s.setKronHeader tag header 0 (1 - h.2) else s

/-- The snapshot of a snapshot step: LSTAT and RSTAT into the pair not in use. -/
def State.kronSnap (s : State) (tag : Nat) (r : Run) (l : Layer) (u : Rule) (b header t : Nat) : State :=
  match s.pitch? tag with
  | none => s
  | some p =>
    if u.rule = 2 && snapStep r u t then
      let h := kronHeader s p header
      let k := 4 + 2 * (1 - h.2)
      let m := l.blockRows b
      let n := l.blockCols b
      let s := (s.writeArray tag header k (readArrayAt s p header 2 m m)).writeArray tag header (k + 1)
        (readArrayAt s p header 3 n n)
      s.setKronHeader tag header 1 h.2
    else s

/-! ### Emission (R287, R288) -/

/-- A cycle plan names the step as the source of its turnover for the layer. -/
def emittingPlan (p : Pitch) (run layer t : Nat) : Option Plan :=
  p.plans.find? fun x => x.run = run && (x.source = some t || x.queued.contains t) && x.layerMap.any fun e => e.1 = layer

/-- The strips of a holder's piece that lie in a block: the view index, the first row and column in the layer. -/
def pieceStrips (l : Layer) (h : Holder) (b : Nat) : List (List Int × Nat × Nat) :=
  let t := parseDesc h.desc
  (t.boxStrips.map fun v =>
    (v, h.row0 + (v.getD 1 0).toNat + (t.dim 2).padLo, h.col0 + 32 * ((v.getD 0 0).toNat + (t.dim 1).padLo))).filter fun x =>
      x.2.1 / 256 = b / l.across && x.2.2 / 256 = b % l.across

/-- The frame that gives an element of a piece its logical index in the whole layer weight (R287): its origin is the row and
the column of the valid box's first element, past the low pads. -/
def pieceFrame (l : Layer) (h : Holder) : Frame64 :=
  let t := parseDesc h.desc
  ⟨[l.cols, l.rows], [h.col0 + 32 * (t.dim 1).padLo, h.row0 + (t.dim 2).padLo], true⟩

/-- A block converted once for every holder (R287); `w` is its master weights. -/
def emitStrips (l : Layer) (u : Rule) (b t : Nat) (w : List (List W32)) : List EmitStrip :=
  let m : OutMode :=
    { mode := modeOf u.round, sat := u.saturate, auto := u.auto, eOut := u.eOut
      draw := ⟨u.emitSeed, (u.emitStream + t) % 2 ^ 64, 0⟩ }
  u.holders.zipIdx.flatMap fun h =>
    let d := parseDesc h.1.desc
    (pieceStrips l h.1 b).map fun x =>
      let xs := (List.range 32).map fun k => f32Num ((w.getD (x.2.1 % 256) []).getD (x.2.2 % 256 + k) 0)
      let o := convertStrip d (some (pieceFrame l h.1)) d.fmtE m x.1 xs
      ⟨h.2, h.1, x.1, o.codes, o.scale⟩

/-- Bytes of converted strips. -/
def emitBytes (es : List EmitStrip) : Nat :=
  (es.map fun e =>
    let d := parseDesc e.piece.desc
    stripBytes d.fmt + d.scaled.toNat).foldl (· + ·) 0

/-- Bytes in a die's emission buffer, of steps that are still the source of a turnover. -/
def Pitch.emissionUsed (p : Pitch) (ldie : Nat) : Nat :=
  (p.runs.flatMap fun r => (r.owned ldie).flatMap fun c =>
    (c.emission.filter fun e => (emittingPlan p r.id c.layer e.1).isSome).map fun e => emitBytes e.2).foldl (· + ·) 0

/-- The block must emit at its step, and its conversion does not fit beside what the buffer holds (R288;
notes/assumptions/27.md). -/
def emissionWaits (p : Pitch) (r : Run) (l : Layer) (u : Rule) (c : CBlock) : Bool :=
  let used := p.emissionUsed (l.owner c.block)
  (emittingPlan p r.id l.tag c.step).isSome && used != 0 &&
  2 ^ 22 < used + emitBytes (emitStrips l u c.block c.step [])

/-- The converted block of an emitting step in the emission buffer, where it meets a holder's piece. -/
def State.emit (s : State) (tag : Nat) (r : Run) (l : Layer) (u : Rule) (c : CBlock) : State :=
  match s.pitch? tag with
  | none => s
  | some p =>
    if (emittingPlan p r.id l.tag c.step).isNone then s
    else
      let w := readArrayAt s p (l.stateAddr u c.block) 0 (l.blockRows c.block) (l.blockCols c.block)
      let es := emitStrips l u c.block c.step w
      if es = [] then s
      else s.updRun tag r.id fun x => x.updBlock l.tag c.block fun b => { b with emission := b.emission ++ [(c.step, es)] }

/-! ### Checkpoint steps (R254, R256) -/

/-- The update of a block's step t waits for the checkpoint read of its step t − 1 state: that is a checkpoint step, it is not
over, and the die has not sent the layer (R256, R257). -/
def Run.ckptHolds (r : Run) (ldie layer t : Nat) : Bool :=
  t != 0 && r.ckptStep (t - 1) && r.ckpt.elim false fun c =>
    !c.passed.contains (t - 1) && !(c.writing.elim false fun w => w.2 = t - 1 && c.written.contains (ldie, layer))

/-! ### Ending a block's step -/

/-- An EVAL phase of a plan of the run is running under BETWEEN: no block is updated (R259). -/
def evalRunning (p : Pitch) (r : Run) : Bool :=
  r.eval = 1 && p.plans.any fun x => x.run = r.id && x.running.any fun f => (x.phases[f.index]?).elim false fun e => e.kind = 3

/-- A block's step t ends: the gradient is dropped, and the gradient of t + 1 may already be complete. -/
def CBlock.next (c : CBlock) (full o : Nat) : CBlock :=
  let gs := c.grads.filter fun g => g.step != c.step
  let done := gs.any fun g => g.step = c.step + 1 && g.strips.length = full
  { c with step := c.step + 1, grads := gs, st := if done then .complete else .collecting, order := if done then o else c.order }

/-- A layer whose blocks have all ended a step commits it, and the step falls due as a checkpoint step (R247, R256). -/
def State.layerDue (s : State) (tag run layer : Nat) : State :=
  match s.run? tag run with
  | none => s
  | some r => if r.layerAt layer (r.layerStep layer) then s.ckptDue tag run (r.layerStep layer) else s

/-- A layer that a checkpoint being written now waits for: every die that had sent what it had begins to be timed (R257). -/
def Run.offer (r : Run) (layer now : Nat) : Run :=
  { r with ckpt := r.ckpt.map fun c => match c.writing with
      | none => c
      | some (_, t) =>
        let more := fun (d : Nat) => r.layers.any fun l => l.tag != layer && r.layerAt l.tag t && !c.written.contains (d, l.tag)
        if r.layerAt layer t then { c with progress := c.progress.map fun x => if more x.1 then x else (x.1, now) } else c }

def State.nextStep (s : State) (tag run : Nat) (l : Layer) (b : Nat) : State :=
  let o := (s.pitch? tag).elim 0 Pitch.nextOrder
  ((s.updRun tag run fun r => r.updBlock l.tag b fun c => c.next (l.stripCount b) o).layerDue tag run l.tag).updRun tag run
    fun r => r.offer l.tag s.now

/-- The elements of a block's gradient, row by row; `hold` is the hold-area address of a held one. -/
def gradRows (s : State) (p : Pitch) (l : Layer) (b : Nat) (g : Gradient) (hold : Option Nat) : List (List (Option W32)) :=
  (List.range (l.blockRows b)).map fun i => (List.range (l.blockCols b)).map fun j =>
    let e := lookupD g.elems (i * 256 + j) none
    match hold with
    | none => e
    | some a => e.map fun _ => crusherWord s p (a + 1024 * i + 4 * j)

/-- W and the state arrays of a block after its update, written back (R274 to R277). -/
def State.updateArrays (s : State) (p : Pitch) (r : Run) (l : Layer) (u : Rule) (b t : Nat) (m : W32)
    (g : List (List (Option W32))) : State :=
  let h := l.stateAddr u b
  let rows := l.blockRows b
  let cols := l.blockCols b
  let k := scalarsAt r l u t
  let w := readArrayAt s p h 0 rows cols
  let a := readArrayAt s p h 1 rows cols
  let zip3 := fun (x y : List (List W32)) (z : List (List (Option W32))) => (x.zip (y.zip z)).map fun r => r.1.zip (r.2.1.zip r.2.2)
  if u.rule = 0 then
    let o := (zip3 w a g).map fun row => row.map fun e => momentumElem u k m e.1 e.2.1 e.2.2
    (s.writeArray p.tag h 0 (o.map fun r => r.map (·.1))).writeArray p.tag h 1 (o.map fun r => r.map (·.2))
  else if u.rule = 1 then
    let m2 := readArrayAt s p h 2 rows cols
    let o := ((zip3 w a g).zip m2).map fun row => (row.1.zip row.2).map fun e => adamwElem u k m e.1.1 e.1.2.1 e.2 e.1.2.2
    ((s.writeArray p.tag h 0 (o.map fun r => r.map (·.1))).writeArray p.tag h 1 (o.map fun r => r.map (·.2.1))).writeArray p.tag h 2
      (o.map fun r => r.map (·.2.2))
  else
    let pair := 4 + 2 * (kronHeader s p h).2
    let o := kronStep u k m rows cols
      ⟨w, a, readArrayAt s p h 2 rows rows, readArrayAt s p h 3 cols cols⟩
      (readArrayAt s p h pair rows rows) (readArrayAt s p h (pair + 1) cols cols) g
    (((s.writeArray p.tag h 0 o.w).writeArray p.tag h 1 o.mom).writeArray p.tag h 2 o.lstat).writeArray p.tag h 3 o.rstat

/-- Crusher cycles of a block's update: for a full block those of R283; for a clipped one, which R283 leaves out, a free
value. -/
def updateCycles (s : State) (l : Layer) (u : Rule) (b : Nat) : Nat :=
  if l.blockRows b = 256 && l.blockCols b = 256 then
    (if u.rule = 0 then (if u.nesterov then 6 else 5) * 256 else if u.rule = 1 then 19 * 256 else 65536)
  else Config.crusherCycles u.rule (l.blockRows b) (l.blockCols b) s.free

/-- A block's update with a gradient: the swap, the rule, the snapshot, the emission, and the step ends as Applied. A gradient
that comes from the hold area has its squares in the norm already. -/
def State.applyBlock (s : State) (tag run : Nat) (l : Layer) (u : Rule) (c : CBlock) (m : W32) (hold : Option Nat) : State :=
  match s.run? tag run, c.grad? c.step with
  | some r, some g =>
    let h := l.stateAddr u c.block
    let s := s.kronSwap tag r u h c.step
    let s := (s.pitch? tag).elim s fun p => s.updateArrays p r l u c.block c.step m (gradRows s p l c.block g hold)
    let s := s.updPitch tag fun p => p.meter 6 (updateCycles s l u c.block)
    let s := if hold.isNone then s.updRun tag run fun r => r.addNorm (l.owner c.block) c else s
    ((((s.kronSnap tag r l u c.block h c.step).emit tag r l u c).draw).nextStep tag run l c.block)
  | _, _ => s

/-- Nothing holds up a block's update but its multiplier. -/
def updatable (s : State) (p : Pitch) (r : Run) (l : Layer) (u : Rule) (c : CBlock) : Bool :=
  !evalRunning p r && !kronWaits s p r l u c && !emissionWaits p r l u c && !r.ckptHolds (l.owner c.block) l.tag c.step

/-- A complete block that could be updated now. -/
def applicable (s : State) (p : Pitch) (r : Run) (c : CBlock) : Bool :=
  c.st = .complete && !r.aborts.contains (c.layer, c.block, c.step) && (r.mult? c.step).isSome &&
  match r.layer? c.layer with
  | none => false
  | some l => l.rule.elim false fun u => updatable s p r l u c

/-- No block of the die that could be updated completed before this one (R283). -/
def inLine (s : State) (p : Pitch) (ldie : Nat) (c : CBlock) : Bool :=
  p.runs.all fun r => (r.owned ldie).all fun x => c.order ≤ x.order || !applicable s p r x

/-- What a row about a block does where the block and its layer's rule exist. -/
def State.onBlock (s : State) (tag run layer block : Nat) (f : Pitch → Run → Layer → Rule → CBlock → State) : State :=
  match s.pitch? tag with
  | none => s
  | some p => match p.run? run with
    | none => s
    | some r => match r.layer? layer, r.block? layer block with
      | some l, some c => l.rule.elim s fun u => f p r l u c
      | _, _ => s

/-- A complete block updated with its multiplier where nothing holds it up and its turn has come; a snapshot step that waits for
the round before it writes its event. -/
def State.updateBlock (s : State) (tag run : Nat) (p : Pitch) (r : Run) (l : Layer) (u : Rule) (c : CBlock) (m : W32) : State :=
  if updatable s p r l u c && inLine s p (l.owner c.block) c then s.applyBlock tag run l u c m none
  else s.noteLate tag p r l u c

/-- BLOCK_UPDATE (R277): a complete block whose multiplier is written. -/
def execBlockUpdate (tag run layer block : Nat) (s : State) : Host.Outcome State Fault Refusal :=
  .next (s.onBlock tag run layer block fun p r l u c =>
    if c.st != .complete || r.aborts.contains (layer, block, c.step) then s
    else match r.mult? c.step with
      | none => s
      | some m => s.updateBlock tag run p r l u c m)

/-- LAGGED_MULT_WAIT_END (R263): the multiplier M(t − 1) that a complete block waited for is written. -/
def execLaggedMultWaitEnd (tag run layer block : Nat) (s : State) : Host.Outcome State Fault Refusal :=
  .next (s.onBlock tag run layer block fun p r l u c =>
    match r.mult? c.step with
    | none => s
    | some m =>
      if !r.held && c.st = .complete && !r.aborts.contains (layer, block, c.step) && c.step != r.startStep then
        s.updateBlock tag run p r l u c m
      else s)

/-- BLOCK_MISSED (R279): W and the state stay, a snapshot that is due is taken, an emitting step emits, and the step ends as
Missed. -/
def execBlockMissed (tag run layer block : Nat) (s : State) : Host.Outcome State Fault Refusal :=
  .next (s.onBlock tag run layer block fun p r l u c =>
    if !r.aborts.contains (layer, block, c.step) then s
    else if !updatable s p r l u c then s.noteLate tag p r l u c
    else
      let h := l.stateAddr u block
      let s := ((s.kronSwap tag r u h c.step).kronSnap tag r l u block h c.step).emit tag r l u c
      (s.updRun tag run fun r =>
        { r with missed := r.missed ++ [(c.step, layer, block)]
                 aborts := r.aborts.filter fun a => a != (layer, block, c.step) }).nextStep tag run l block)

/-! ### HELD (R264) -/

/-- A block's place in its die's hold area: by its order among the die's blocks. -/
def Run.holdAddr (r : Run) (c : CBlock) : Nat :=
  let d := r.ownerOf c
  let k := ((r.owned d).takeWhile fun x => !(x.layer = c.layer && x.block = c.block)).length
  r.holdTable.getD d 0 + 262144 * k

/-- HELD_BLOCK_STAGE: a complete block goes to the hold area until M(t) is written, and its squares into the norm; the area
holds one step. -/
def execHeldBlockStage (tag run layer block : Nat) (s : State) : Host.Outcome State Fault Refusal :=
  .next (s.onBlock tag run layer block fun p r l _ c =>
    match c.grad? c.step with
    | none => s
    | some g =>
      if r.held && c.st = .complete && !r.aborts.contains (layer, block, c.step) && (r.mult? c.step).isNone &&
          (r.owned (l.owner block)).all (fun x => x.st != .held || x.step = c.step) then
        let rows := (gradRows s p l block g none).map fun row => row.map (·.getD f32Nan)
        let s := rows.zipIdx.foldl (fun s x => s.tryWrite tag (r.holdAddr c + 1024 * x.2) (f32Row x.1)) s
        s.updRun tag run fun r => (r.updBlock layer block fun c => { c with st := .held }).addNorm (l.owner block) c
      else s)

/-- The held block can be applied now, with this multiplier. -/
def heldMult (s : State) (tag run : Nat) (c : CBlock) : Option W32 :=
  match s.pitch? tag with
  | none => none
  | some p => (p.run? run).bind fun r => match (r.layer? c.layer).bind fun l => l.rule.map fun u => (l, u) with
    | none => none
    | some (l, u) => if updatable s p r l u c && !r.aborts.contains (c.layer, c.block, c.step) then r.mult? c.step else none

/-- One held block applied; the flag says that one before it must wait, and so do those after it. -/
def applyHeld (tag run : Nat) (acc : State × Bool) (c : CBlock) : State × Bool :=
  if acc.2 then acc
  else match heldMult acc.1 tag run c with
    | some m => (acc.1.onBlock tag run c.layer c.block fun _ r l u _ => acc.1.applyBlock tag run l u c m (some (r.holdAddr c)), false)
    | none => (acc.1.onBlock tag run c.layer c.block fun p r l u _ => acc.1.noteLate tag p r l u c, true)

/-- HELD_BLOCKS_APPLY: once M(t) is written, a die's held blocks are applied in arrival order, up to one that must wait. -/
def execHeldBlocksApply (tag run ldie : Nat) (s : State) : Host.Outcome State Fault Refusal :=
  .next (match s.run? tag run with
    | none => s
    | some r =>
      ((sortBy (fun a b => a.order ≤ b.order) ((r.owned ldie).filter fun c => c.st = .held)).foldl (applyHeld tag run)
        (s, false)).1)

/-! ### The norm and the commit of a step (R247, R260, R261) -/

/-- A block has ended step t for the norm and the commit: it is past it, or held with its gradient complete (R264, R265;
notes/assumptions/27.md). -/
def CBlock.ended (c : CBlock) (t : Nat) : Bool := t < c.step || (c.step = t && c.st = .held)

/-- NORM_PARTIAL_SEND: a die that has ended a step on all its blocks sends its oldest partial to the root. -/
def execNormPartialSend (tag run ldie : Nat) (s : State) : Host.Outcome State Fault Refusal :=
  .next (match s.run? tag run with
    | none => s
    | some r =>
      match (sortBy (fun a b => a.step ≤ b.step) (r.norms.filter fun n => n.ldie = ldie && !n.sent)).head? with
      | none => s
      | some n =>
        if (r.owned ldie).all fun c => c.ended n.step then
          s.updRun tag run fun r =>
            { r with norms := r.norms.map fun x => if x.ldie = ldie && x.step = n.step then { x with sent := true } else x }
        else s)

/-- The exact sum of a step's partials, NORM_SAT and INVALID. -/
def Run.normOf (r : Run) (t : Nat) : NormPart :=
  (r.norms.filter fun n => n.step = t).foldl (fun a n =>
    { a with
      sum := if a.sat || n.sat || normMax < a.sum + n.sum then normMax else a.sum + n.sum
      sat := a.sat || n.sat || decide (normMax < a.sum + n.sum), invalid := a.invalid || n.invalid }) ⟨0, t, 0, false, false, true⟩

/-- √(sum × 2^−298) rounded once. -/
def normRoot (sum : Nat) : W32 :=
  let n := sum * 2 ^ 128
  let q := isqrt n
  if sum = 0 then 0 else f32Round false (2 * q + if q * q = n then 0 else 1) (-214)

/-- The 128-byte norm record (R261). -/
def normRecord (t : Nat) (n : NormPart) (missed : Nat) : Bytes :=
  le 8 t ++ le 4 (if n.sum = 0 then 0 else (f32Round false n.sum (-298)).toNat) ++ le 4 (normRoot n.sum).toNat ++
  le 4 (n.invalid.toNat + 2 * n.sat.toNat + (if missed = 0 then 0 else 4)) ++ le 4 missed ++ le 80 n.sum ++ le 24 0

/-- A signal counter advanced by 1; 0xFFFF names none. -/
def State.bumpCounter (s : State) (tag sig : Nat) : State :=
  if Config.counters ≤ sig then s
  else s.updPitch tag fun p => p.setCounter sig { p.counter sig with value := min ((p.counter sig).value + 1) (2 ^ 64 - 1) }

/-- Rollouts that a learning step consumed are freed when the step commits (R296), also those whose requests have not ended yet, and
its LEARN phase, if it still runs, has done one step more. -/
def Plan.consumeBatch (x : Plan) (t : Nat) : Plan :=
  if x.learning != some t then x
  else
    let f := x.running.find? fun f => f.done < f.mark && (x.phases[f.index]?).elim false fun e => e.kind = 1
    Plan.settle { x with
      unended := x.unended ++ ((x.rollouts.take x.perStep).filter fun r => !r.ended).map (·.admitSeq)
      rollouts := x.rollouts.drop x.perStep, consumed := x.consumed + x.perStep, learning := none
      running := x.running.map fun g => if some g.index = f.map (·.index) then { g with done := g.done + 1 } else g }

/-- The run after its step t: P1 and P2 advance, and what belonged to the step is dropped. That step t − 1's checkpoint is over stays
known, since held blocks of step t have still to be updated (R264). -/
def Run.commitStep (r : Run) (t : Nat) : Run :=
  { r with
    step := t + 1
    norms := r.norms.filter fun n => n.step != t
    missed := r.missed.filter fun m => m.1 != t
    ckpt := r.ckpt.map fun c => { c with passed := c.passed.filter fun x => t ≤ x + 1 }
    layers := r.layers.map fun l => match l.rule with
      | none => l
      | some u => { l with p1 := (l.products u t).1, p2 := (l.products u t).2, before := (l.p1, l.p2), scalarStep := t + 1 } }

/-- RUN_STEP_COMMIT: every layer has committed the step, or its blocks are held; the root writes the norm record and advances
NORM_SIG. A held step falls due as a checkpoint step only as its layers commit (R265). -/
def execRunStepCommit (tag run : Nat) (s : State) : Host.Outcome State Fault Refusal :=
  .next (match s.run? tag run with
    | none => s
    | some r =>
      let t := r.step
      if !(r.blocks.all fun c => c.ended t) || r.norms.any (fun n => n.step = t && !n.sent) then s
      else
        let missed := (r.missed.filter fun m => m.1 = t).length
        let s := (s.tryWrite tag (r.normAddr + 128 * (t % 16)) (normRecord t (r.normOf t) missed)).bumpCounter tag r.normSig
        (if r.held then s else s.ckptDue tag run t).updPitch tag fun p =>
          { p.updRun run fun r => r.commitStep t with
            plans := p.plans.map fun x => if x.run = run then x.consumeBatch t else x })

/-! ### The refresh (R281) -/

/-- The refreshes that a die still has to do, as run, layer tag and block: those of blocks that wait for their swap first, each
group with runs, layers and blocks in ascending order (R282; notes/assumptions/27.md). -/
def refreshOrder (s : State) (p : Pitch) (ldie : Nat) : List (Nat × Nat × Nat) :=
  let all := p.runs.flatMap fun r => (r.owned ldie).filterMap fun c =>
    (r.layer? c.layer).bind fun l => l.rule.bind fun u =>
      if u.rule = 2 && (kronHeader s p (l.stateAddr u c.block)).1 = 1 then
        some (c.st != .collecting && swapWaits s p r l u c, r.id, c.layer, c.block)
      else none
  ((all.filter (·.1)) ++ all.filter fun x => !x.1).map (·.2)

/-- KRON_REFRESH_DONE: the refresh at the head of its die's order is done: the snapshot pair is replaced by its inverse roots, and
REFRESH_STATE is READY. -/
def execKronRefreshDone (tag run layer block : Nat) (s : State) : Host.Outcome State Fault Refusal :=
  .next (s.onBlock tag run layer block fun p _ l u _ =>
    let h := l.stateAddr u block
    let hd := kronHeader s p h
    if (refreshOrder s p (l.owner block)).head? = some (run, layer, block) then
      let k := 4 + 2 * (1 - hd.2)
      let m := l.blockRows block
      let n := l.blockCols block
      let pl := inverseRoot u.pRoot u.eps u.iters m (readArrayAt s p h k m m)
      let pr := inverseRoot u.pRoot u.eps u.iters n (readArrayAt s p h (k + 1) n n)
      (((s.writeArray tag h k pl).writeArray tag h (k + 1) pr).setKronHeader tag h 2 hd.2).draw
    else s)

/-! ### Emission to holders (R287, R303, R307) -/

/-- The holder's die belongs to the plan's instance. -/
def insideInstance (p : Pitch) (x : Plan) (h : Holder) : Bool :=
  (p.model? x.model).elim false fun m => m.dies.any fun d => d.1 = h.ldie

/-- A holder takes the emission of step t now: into its shadow piece at any time of that source step, in place in the open
window of the layer, or, outside the instance, from the start of SWAP (R303, R307). -/
def accepts (p : Pitch) (x : Plan) (layer t : Nat) (h : Holder) : Bool :=
  x.source = some t &&
  (x.shadow ||
   (if insideInstance p x h then
      x.layerMap.any fun e => e.1 = layer && x.windows.any fun w => w.1 = e.2
    else x.stage = 3 || x.stage = 4))

/-- Where a holder entry's shadow descriptor stands in the plan: map order, then holder-table order (R290). -/
def shadowIndex (r : Run) (x : Plan) (layer k : Nat) : Nat :=
  ((x.layerMap.takeWhile fun e => e.1 != layer).map fun e =>
    ((r.layer? e.1).bind (·.rule)).elim 0 fun u => u.holders.length).foldl (· + ·) 0 + k

/-- The descriptor that the emission writes through. -/
def emitDesc (r : Run) (x : Plan) (layer k : Nat) (h : Holder) : TDesc :=
  parseDesc (if x.shadow then x.shadows.getD (shadowIndex r x layer k) [] else h.desc)

/-- One converted strip written to its holder. -/
def State.emitStrip (s : State) (tag : Nat) (r : Run) (x : Plan) (layer : Nat) (e : EmitStrip) : State :=
  (writeStrip s tag (emitDesc r x layer e.holder e.piece) e.v e.codes e.scale).toOption.getD s

/-- The strips of a block in the emission buffer that their holders accept now, in order, and the block without them. -/
def CBlock.sendable (c : CBlock) (go : Nat → EmitStrip → Bool) : List EmitStrip := c.emission.flatMap fun x => x.2.filter (go x.1)
def CBlock.sent (c : CBlock) (go : Nat → EmitStrip → Bool) : CBlock :=
  { c with emission := (c.emission.map fun x => (x.1, x.2.filter fun e => !go x.1 e)).filter fun x => x.2 != [] }

/-- Every block of the run layers that pass a test has ended the source step and is written to its holders. -/
def landedOn (x : Plan) (r : Run) (ok : Nat × Nat → Bool) : Bool :=
  x.source.elim false fun t => r.blocks.all fun c =>
    !(x.layerMap.any fun e => e.1 = c.layer && ok e) || (t < c.step && c.emission.all fun e => e.1 != t)

/-- The same of the run layers mapped to package layers that pass a test. -/
def landed (x : Plan) (r : Run) (ok : Nat → Bool) : Bool := landedOn x r fun e => ok e.2

/-- A lane's code and a strip's scale as a copy reads them; an uncorrectable unit gives free bytes (notes/assumptions/26.md). -/
def copyCode (s : State) (p : Pitch) (t : TDesc) (v : List Int) (l : Nat) : Nat :=
  (readCode s p t (t.stripOff v) l).toOption.getD ((Config.undefinedByte s.free (t.stripAddr (t.stripOff v) % 2 ^ 22)).toNat % 2 ^ elemWidth t.fmt)

/-- A strip's scale exponent as a copy writes it: the shadow's, and a free one in range where the shadow holds none (R31). -/
def copyScale (s : State) (p : Pitch) (t : TDesc) (v : List Int) : Int :=
  let b := (crusherByte s p (t.scaleAddr (t.stripOff v))).toNat
  if scaleOk b then scaleExp b else ((Config.undefinedByte s.free (t.scaleAddr (t.stripOff v) % 2 ^ 22)).toNat % 64 : Nat) - 32

/-- A piece copied from its shadow, strip by strip: the lanes of the valid box, and the scales (R62, R73, R303). -/
def State.copyPiece (s : State) (tag : Nat) (src dst : TDesc) : State :=
  dst.boxStrips.foldl (fun s v =>
    match s.pitch? tag with
    | none => s
    | some p =>
      let codes := (dst.lanesIn v).map fun l => (l, copyCode s p src v l)
      let scale := if dst.scaled then copyScale s p src v else 0
      (writeStrip s tag dst v codes scale).toOption.getD s) s

/-- The shadow pieces of the mapped layers that pass a test, copied onto the live pieces of the holders that pass another. -/
def State.copyShadows (s : State) (tag : Nat) (x : Plan) (r : Run) (layer : Nat × Nat → Bool) (holder : Holder → Bool) : State :=
  if !x.shadow then s
  else ((x.layerMap.filter layer).foldl (fun s e =>
    match (r.layer? e.1).bind (·.rule) with
    | none => s
    | some u => u.holders.zipIdx.foldl (fun s h =>
        if holder h.1 then s.copyPiece tag (parseDesc (x.shadows.getD (shadowIndex r x e.1 h.2) [])) (parseDesc h.1.desc) else s) s) s).draw

/-- The holders outside the instance take the run layers that have landed in their shadows, each once in a SWAP and without waiting on
any step (R303). -/
def State.copyOutside (s : State) (tag : Nat) (p : Pitch) (x : Plan) (r : Run) : State :=
  let go := fun (e : Nat × Nat) => !x.outside.contains e.1 && landedOn x r (·.1 = e.1)
  (s.copyShadows tag x r go fun h => !insideInstance p x h).updPlan tag x.run fun x =>
    { x with outside := x.outside ++ (x.layerMap.filter go).map (·.1) }

/-- A layer that lands after SWAP has begun: the holders outside the instance take it at once (R303). -/
def State.copyLate (s : State) (tag run : Nat) : State :=
  match s.pitch? tag with
  | none => s
  | some p => match p.run? run, p.plans.find? fun x => x.run = run with
    | some r, some x => if x.stage = 3 || x.stage = 4 then s.copyOutside tag p x r else s
    | _, _ => s

/-- EMISSION_SEND: the strips of a block leave the emission buffer for the holders that accept them; the others stay, and none is
dropped (R288). -/
def execEmissionSend (tag run layer block : Nat) (s : State) : Host.Outcome State Fault Refusal :=
  .next (s.onBlock tag run layer block fun p r _ _ c =>
    match p.plans.find? fun x => x.run = run && x.layerMap.any fun e => e.1 = layer with
    | none => s
    | some x =>
      let go := fun t (e : EmitStrip) => accepts p x layer t e.piece
      if c.sendable go = [] then s
      else
        (((c.sendable go).foldl (fun s e => s.emitStrip tag r x layer e) s).updRun tag run fun r =>
          r.updBlock layer block fun b => b.sent go).copyLate tag run)

/-! ### Writing a checkpoint (R255 to R257) -/

/-- The layer record (R272) of a layer after step t. -/
def layerRecord (r : Run) (l : Layer) (u : Rule) (t : Nat) : Bytes :=
  let p := l.products u t
  let snap := if u.rule = 2 then (List.range (min u.swapDelay (t + 1))).find? fun i => snapStep r u (t - i) else none
  le 4 l.tag ++ le 1 u.rule ++ le 3 0 ++ le 4 p.1.toNat ++ le 4 p.2.toNat ++ le 8 (snap.elim (2 ^ 64 - 1) fun i => t - i) ++ le 40 0

/-- The layer record, the die's blocks as in the state area, and the digest (R255). -/
def layerImage (s : State) (p : Pitch) (r : Run) (l : Layer) (u : Rule) (ldie t : Nat) : Bytes :=
  let body := layerRecord r l u t ++ (l.owned ldie).flatMap fun b =>
    (List.range (ruleBytes u.rule)).map fun i => crusherByte s p (l.stateAddr u b + i)
  body ++ sha384 body

/-- A die's layer written into the slot. -/
def State.sendLayer (s : State) (tag : Nat) (p : Pitch) (r : Run) (l : Layer) (u : Rule) (ldie : Nat) (c : Ckpt) (slot t : Nat) :
    State :=
  let k := (r.layers.takeWhile fun x => x.tag != l.tag).length
  let s := s.tryWrite tag (c.slotAddr ldie slot + r.layerOffset ldie k) (layerImage s p r l u ldie t)
  let c := { c with written := c.written ++ [(ldie, l.tag)]
                    progress := c.progress.map fun x => if x.1 = ldie then (ldie, s.now) else x }
  let s := s.tryWrite tag (c.slotAddr ldie slot) (slotHeader r.id t 1 (c.written.filter fun w => w.1 = ldie).length)
  (s.updRun tag r.id fun r => { r with ckpt := some c }).draw

/-- CHECKPOINT_LAYER_SEND: a layer has committed a checkpoint step, and a die sends its part (R256). -/
def execCheckpointLayerSend (tag run ldie layer : Nat) (s : State) : Host.Outcome State Fault Refusal :=
  .next (let s := s.layerDue tag run layer
    match s.pitch? tag with
    | none => s
    | some p => match p.run? run with
      | none => s
      | some r => match r.ckpt, (r.layer? layer).bind fun l => l.rule.map fun u => (l, u) with
        | some c, some (l, u) => match c.writing with
          | none => s
          | some (slot, t) =>
            if r.layerAt layer t && (r.owners p).contains ldie && !c.written.contains (ldie, layer) then
              s.sendLayer tag p r l u ldie c slot t
            else s
        | _, _ => s)

/-- What a row about a checkpoint that is being written does: `f` gets the run, the checkpoint, its slot and its step. -/
def State.onWriting (s : State) (tag run : Nat) (f : Pitch → Run → Ckpt → Nat → Nat → State) : State :=
  match s.pitch? tag with
  | none => s
  | some p => match p.run? run with
    | none => s
    | some r => match r.ckpt with
      | none => s
      | some c => match c.writing with
        | none => s
        | some (slot, t) => f p r c slot t

/-- A die has sent every layer. -/
def Run.dieSent (r : Run) (c : Ckpt) (ldie : Nat) : Bool := r.layers.all fun l => c.written.contains (ldie, l.tag)

/-- CHECKPOINT_SLOT_COMPLETE: every owning die has written every layer. -/
def execCheckpointSlotComplete (tag run : Nat) (s : State) : Host.Outcome State Fault Refusal :=
  .next (s.onWriting tag run fun p r c slot t =>
    if (r.owners p).all (r.dieSent c) then s.endCkpt tag r c slot t 2 else s)

/-- A die that has layers left to send of those that have committed the step has made no progress for TIMEOUT_MS. -/
def Run.stalled (r : Run) (c : Ckpt) (t now ldie : Nat) : Bool :=
  (r.layers.any fun l => r.layerAt l.tag t && !c.written.contains (ldie, l.tag)) && due (lookupD c.progress ldie 0) (c.timeoutMs * 25000) now

/-- CHECKPOINT_TIMEOUT: a die's stream makes no progress for TIMEOUT_MS, so the slot is FAILED on every die (R257). -/
def execCheckpointTimeout (tag run : Nat) (s : State) : Host.Outcome State Fault Refusal :=
  .next (s.onWriting tag run fun p r c slot t =>
    if (r.owners p).any (r.stalled c t s.now) then
      (s.endCkpt tag r c slot t 3).logNote 8 "CHECKPOINT_FAILED" none noDie tag t
    else s)

end Sys2Proof.Machine
end

