-- ==== Sys2Proof/Machine/Dies.lean ====
section
/-! DEFINITION. What happens to whole dies, pitches and the module: the steps and the test window (R398, R420), self-tests and
their repairs (R419 to R425), die faults (R394), keeper-only mode (R409) and module resets (R402, R403). -/

namespace Sys2Proof.Machine

open Sys2Proof

/-! ### Steps and the test window -/

/-- VDD_CORE of each step, in mV (R398). -/
def stepMv (n : Nat) : Nat := [600, 620, 640, 660, 680, 700, 715, 730, 740, 750].getD n 750

/-- ALLOWED: the lowest of the cap, the power and the thermal limit (R398). -/
def Die.allowed (d : Die) : Nat := min d.cap (min d.powerStep d.thermStep)

/-- The die at its allowed step (R398). -/
def Die.toAllowed (d : Die) : Die := { d with step := d.allowed, vddCoreMv := stepMv d.allowed }

/-- A test may start: the allowed step is 8 or 9, and no dip divides the clock (R420). -/
def Die.startable (d : Die) : Bool := d.railsUp && !d.divided && 8 ≤ d.allowed

/-- A test runs on the die, the background march of its pages included (R421, R422). -/
def Die.testing (d : Die) : Bool := d.test.isSome || d.march.isSome

/-! ### Signatures (R415, R419) -/

/-- A MISR with one more value: the state moves left by one bit, the polynomial comes in for the bit shifted out, and the value is
xored in (R419). -/
def misrStep (st v : BitVec 64) : BitVec 64 := ((st <<< 1) ^^^ (if st.msb then 0x1B#64 else 0#64)) ^^^ v

/-- The 64-bit pieces of a read of a 72-bit word, the last padded with zeros, folded into one value (R419). -/
def foldWord (x : BitVec 72) : BitVec 64 := x.setWidth 64 ^^^ (x >>> 64).setWidth 64

/-- What M1 to M5 of March C− expect of every word: r0, r1, r0, r1, r0 (R415). -/
def marchReads : List (BitVec 72) := [0#72, BitVec.allOnes 72, 0#72, BitVec.allOnes 72, 0#72]

/-- The signature of a bank of n words that March C− finds good (R415, R419). -/
def marchSignature (n : Nat) : BitVec 64 :=
  marchReads.foldl (fun st x => (List.range n).foldl (fun st _ => misrStep st (foldWord x)) st) 0

/-- The golden signature of a KIND: of a SECDED bank of at most 16,384 words by March C−; for DRAM channels and arrays keeper ROM
holds values that no rule gives. -/
def goldenOf (kind : Nat) : BitVec 64 :=
  if kind = 3 || kind = 4 then Config.goldenSignature kind else marchSignature (min (Config.bankWords kind) 16384)

/-- The instance fails: its engine recorded the address, or its signature differs from the golden value (R419). -/
def failureStands (f : Failure) : Bool := f.recorded || BitVec.ofNat 64 f.observed != goldenOf f.kind

/-! ### Repair (R423 to R425)

`Repair.kind` is KIND of R429, 8 a spare page and 9 the spare cluster; for an array `addr` is its cluster. -/

/-- INSTANCE of R429. -/
def failInst (f : Failure) : Nat :=
  if f.kind = 0 then f.cluster * 64 + f.unit else if f.kind = 1 then f.cluster * 8 + f.unit else f.unit

/-- A soft repair in use of a kind and an instance. -/
def Die.used (d : Die) (kind inst : Nat) (ok : Repair → Bool) : Nat :=
  (d.repairs.filter fun r => r.kind = kind && r.inst = inst && ok r).length

/-- What the engines recorded of a test: at most 16 addresses per instance, and the instances whose signature differs (R419). -/
def recordedFailures (fs : List Failure) : List Failure :=
  fs.foldl (fun acc f =>
    if failureStands f && (acc.filter fun g => g.kind = f.kind && failInst g = failInst f).length < 16 then acc ++ [f] else acc) []

/-- Spares of a kind that failed the SPARES test: rows (0), columns or column groups (1) or pages (2) of the instances and with
the indices that are asked for, each counted once (R423). -/
def Die.lost (d : Die) (kind sort : Nat) (inst index : Nat → Bool) : Nat :=
  ((d.badSpares.filter fun f => f.kind = kind && inst (failInst f)).map fun f =>
    (failInst f, Config.spareUnit kind (failInst f) f.addr)).eraseDups.countP fun x => x.2.1 = sort && index x.2.2

/-- Columns with 3 or more failing words take a spare column (R423). -/
def spareColumns (fs : List Failure) : List Nat :=
  (fs.map (·.column)).eraseDups.filter fun c => 3 ≤ ((fs.filter fun f => f.column = c).map (·.addr)).eraseDups.length

/-- The row of a failing address: 64 words of a SECDED bank, or the DRAM row itself (R415, R429). -/
def failRow (f : Failure) : Nat := if f.kind = 3 then f.addr else f.addr / 64

/-- Spare rows left for a row: 4 of a SECDED bank, 32 of a DRAM bank (R423). -/
def Die.rowsLeft (d : Die) (kind inst row : Nat) : Nat :=
  if kind = 3 then
    32 - d.lost kind 0 (· = inst) (Config.dramBank · = Config.dramBank row) -
      d.used kind inst fun r => !r.column && Config.dramBank r.addr = Config.dramBank row
  else 4 - d.lost kind 0 (· = inst) (fun _ => true) - d.used kind inst fun r => !r.column

/-- Spare columns or column groups left: 2 of a SECDED bank, 4 of a DRAM channel (R423). -/
def Die.columnsLeft (d : Die) (kind inst : Nat) : Nat :=
  (if kind = 3 then 4 else 2) - d.lost kind 1 (· = inst) (fun _ => true) - d.used kind inst (·.column)

/-- One repair entered. What fails again behind a repair takes a further spare: the one in service there is part of the resource
(R423). -/
def Die.addRepair (d : Die) (r : Repair) : Die := { d with repairs := d.repairs ++ [r] }

/-- A row repaired, where a spare row is left. -/
def mendRow (kind inst : Nat) (d : Option Die) (row : Nat) : Option Die :=
  d.bind fun d => if 0 < d.rowsLeft kind inst row then some (d.addRepair ⟨kind, inst, row, false, false⟩) else none

/-- A SECDED bank repaired with rows and columns, or `none` where they do not suffice or no address is known (R423). -/
def Die.mendBank (d : Die) (kind inst : Nat) (fs : List Failure) : Option Die :=
  let cols := spareColumns fs
  if d.columnsLeft kind inst < cols.length || fs.any (fun f => !f.recorded) then none
  else
    ((fs.filter fun f => !cols.contains f.column).map failRow).eraseDups.foldl (mendRow kind inst)
      (some (cols.foldl (fun d c => d.addRepair ⟨kind, inst, c, true, false⟩) d))

/-- An array replaced by a spare array of its cluster, of which there are 4 (R99, R423). -/
def Die.mendArray (d : Die) (inst cluster : Nat) : Option Die :=
  if (d.repairs.countP fun r => r.kind = 4 && r.addr = cluster) + ((d.badSpares.filter fun f => f.kind = 4 && f.cluster = cluster).map (·.unit)).eraseDups.length < 4 then
    some (d.addRepair ⟨4, inst, cluster, false, false⟩)
  else none

/-- A page retired to a spare page of its partition, of which there are 8 (R425). -/
def Die.retire (d : Die) (part page : Nat) : Option Die :=
  if d.used 8 part (fun _ => true) + d.lost 3 2 (fun i => i / 8 = part) (fun _ => true) < 8 then
    some (d.addRepair ⟨8, part, page, false, false⟩)
  else none

/-- The die's spare cluster has passed the SPARES test: its banks did not fail, and at most 4 of its arrays (R423, R425). -/
def Die.spareCluster (d : Die) : Bool :=
  !(d.badSpares.any fun f => f.kind ≤ 1 && f.cluster = 16) &&
    ((d.badSpares.filter fun f => f.kind = 4 && f.cluster = 16).map (·.unit)).eraseDups.length ≤ 4

/-- What a repair of failures gives: the die, each failure with its ACTION (R429), and the KIND whose spares are exhausted. -/
structure Mended where
  die : Die
  done : List (Nat × Failure)
  exhausted : Option Nat

/-- A cluster whose bank cannot be repaired, or with more than 4 failed arrays, is replaced by the die's spare (R425). The
failures of a cluster that this repair has replaced need nothing more. -/
def Mended.replaceCluster (x : Mended) (kind cluster : Nat) (fs : List Failure) : Mended :=
  if x.die.spareFor = some cluster then { x with done := x.done ++ fs.map ((3, ·)) }
  else if cluster != 16 && x.die.spareFor.isNone && x.die.spareCluster then
    { x with die := { (x.die.addRepair ⟨9, cluster, 0, false, false⟩) with spareFor := some cluster }
             done := x.done ++ fs.map ((3, ·)) }
  else { x with done := x.done ++ fs.map ((4, ·)), exhausted := some kind }

/-- What failures share that one spare decision covers: KIND, INSTANCE, and for an array its cluster. -/
def failUnit (f : Failure) : Nat × Nat × Nat := (f.kind, failInst f, if f.kind = 4 then f.cluster else 0)

/-- A failing DRAM row takes a spare row, or its page is retired (ACTION 1 or 2), or neither spare is left (4). -/
def mendDramRow (inst : Nat) (x : Die × List (Nat × Nat)) (row : Nat) : Die × List (Nat × Nat) :=
  let page := Config.dramPage inst row
  if x.2.any fun y => y.2 = 2 && Config.dramPage inst y.1 = page then (x.1, x.2 ++ [(row, 2)])
  else match mendRow 3 inst (some x.1) row with
    | some d => (d, x.2 ++ [(row, 1)])
    | none => match x.1.retire (inst / 8) page with
      | some d => (d, x.2 ++ [(row, 2)])
      | none => (x.1, x.2 ++ [(row, 4)])

/-- The failures of a DRAM channel: spare column groups as far as they go, then rows, then pages (R423, R425). An instance that
fails by its signature alone names no row to repair. -/
def Mended.channel (x : Mended) (inst : Nat) (fs : List Failure) : Mended :=
  let known := fs.filter (·.recorded)
  let cols := (spareColumns known).take (x.die.columnsLeft 3 inst)
  let d := cols.foldl (fun d c => d.addRepair ⟨3, inst, c, true, false⟩) x.die
  let y := ((known.filter fun f => !cols.contains f.column).map failRow).eraseDups.foldl (mendDramRow inst) (d, [])
  let act := fun (f : Failure) => if !f.recorded then 4 else if cols.contains f.column then 1 else lookupD y.2 (failRow f) 4
  { x with die := y.1, done := x.done ++ fs.map fun f => (act f, f)
           exhausted := if y.2.any (·.2 = 4) then some 3 else x.exhausted }

/-- The failures of one instance assigned to spares (R423, R425). -/
def Mended.group (all : List Failure) (x : Mended) (g : Nat × Nat × Nat) : Mended :=
  let fs := all.filter fun f => failUnit f = g
  let cluster := (fs.head?).elim 0 (·.cluster)
  let inst := g.2.1
  let put := fun (d : Die) => { x with die := d, done := x.done ++ fs.map ((1, ·)) }
  if g.1 = 3 then x.channel inst fs
  else match (if g.1 = 4 then x.die.mendArray inst cluster else x.die.mendBank g.1 inst fs) with
    | some d => put d
    | none =>
      if g.1 ≤ 1 || g.1 = 4 then x.replaceCluster g.1 cluster fs
      else { x with done := x.done ++ fs.map ((4, ·)), exhausted := if g.1 = 7 then some 7 else x.exhausted }

/-- The cluster that stands at a position: the spare, 16, where it has replaced the position's own (R12, R425). -/
def Die.serving (d : Die) (cluster : Nat) : Nat := if d.spareFor = some cluster then 16 else cluster

/-- Failures soft-repaired; a spare comes into service only after the SPARES test (R423). -/
def Die.mend (d : Die) (fs : List Failure) : Mended :=
  if !d.sparesTested then ⟨d, fs.map ((0, ·)), none⟩
  else
    let fs := fs.map fun f => { f with cluster := d.serving f.cluster }
    (fs.map failUnit).eraseDups.foldl (Mended.group fs) ⟨d, [], none⟩

/-- Failures that stay without a repair. -/
def unrepaired (l : List (Nat × Failure)) : Nat := (l.filter fun x => x.1 = 0 || x.1 = 4).length

/-! ### Test records (R429) -/

def State.updRecord (s : State) (id : Nat) (f : TestRecord → TestRecord) : State :=
  s.setTests { s.tests with records := s.tests.records.map fun r => if r.testId = id then f r else r }

/-- The status of a test whose dies have finished (R422). -/
def TestRecord.outcome (r : TestRecord) : Nat :=
  if r.abandoned != 0 then stOutOfRange else if r.unrepaired != 0 then stDegraded else stOk

/-- A new record of the last 64, and its TEST_ID. -/
def State.openRecord (s : State) (target origin mask : Nat) (dies : List Nat) (req : Option Nat) : State :=
  let r : TestRecord :=
    { testId := s.tests.nextId, target := target, origin := origin, status := 0, dieMask := mask, abandoned := 0
      startAt := s.now, endAt := s.now, entries := [], repairsApplied := 0, unrepaired := 0, faulted := 0, open_ := dies
      request := req }
  let l := s.tests.records ++ [r]
  s.setTests { s.tests with nextId := (s.tests.nextId + 1) % 2 ^ 32, records := l.drop (l.length - Config.testRecords) }

/-- A test whose dies have all finished: its status and end, and the response of BIST_RUN. -/
def State.closeRecord (s : State) (id : Nat) : State :=
  match s.tests.records.find? fun r => r.testId = id with
  | none => s
  | some r =>
    if r.open_ != [] then s
    else
      let s := s.updRecord id fun r => { r with status := r.outcome, endAt := s.now }
      r.request.elim s fun q => s.respond q r.outcome (le 4 id)

/-- What a test leaves in the memories it ran over: encoded zeros (R415, R416, R420); for a port, no frame in its replay buffer or
its receive buffers. A die whose Crusher storage is tested is in no pitch, so it holds no state of a run; a Ringmaster pair
under test reads its journal again from the other pair, and a keeper RAM bank is restored from its shadow (R420, R422). -/
def State.testErase (s : State) (die target port : Nat) : State :=
  if target = 0 then
    ((List.range 16).foldl (fun s c => s.clearSram die c) s).updDie die fun d =>
      { d with clusters := d.clusters.map fun c => { c with slots := [], tile := none, bank := none, drain := none } }
  else if target = 1 then (List.range 16).foldl (fun s c => s.clearDram die (dramOff c 0) Config.windowBytes) s
  else if target = 5 then
    (s.updPort port fun p => { p with replay := [] }).updDie die fun d =>
      { d with router := d.router.filter fun w => w.inPort.all fun q => q.1 != port }
  else s

/-! ### Faults -/

/-- The engines of a cluster stop with nothing more written. -/
def Cluster.halt (c : Cluster) : Cluster :=
  { c with onArrays := none, onMvp := none, onVector := none, onMover0 := none, onMover1 := none
           onReadout := none, tile := none, bank := none, drain := none }

/-- A drain or return in progress is given up: the dies of a drain are DRAINED, for their pitch runs no more. -/
def State.cancelMove (s : State) (p : Pitch) : State :=
  match p.move with
  | none => s
  | some m => (maskBits m.dies 24).foldl (fun s d => s.updDie d fun d =>
      { d with st := if d.st = .draining then .drained else d.st }) (s.updPitch p.tag fun p => { p with move := none })

/-- The pitch becomes FAILED on the module: its work stops, and a suspend or resume in progress ends (R309, R335,
notes/assumptions/35.md). A release whose request is still held goes on. -/
def State.failPitch (s : State) (tag : Nat) : State :=
  match s.pitch? tag with
  | none => s
  | some p =>
    let s := p.dies.foldl (fun s d => s.updDie d fun d => { d with clusters := d.clusters.map Cluster.halt }) (s.cancelMove p)
    let stop := fun (p : Pitch) =>
      { p with items := [], colls := [], aborted := [], queues := [], models := [], runs := [], plans := [] }
    if p.st = .releasing && s.ring.journal.any fun r => p.busyWith = some r.seq then s.updPitch tag stop
    else
      let s := s.updPitch tag fun p => { stop p with st := .failed, busyWith := none }
      p.busyWith.elim s fun q => s.respond q stAborted []

/-- VDD_CORE, VDD_SRAM and the DRAM rails of a die go off: what they held is lost (R394, R409). -/
def State.loseDie (s : State) (die : Nat) : State :=
  let s := ((List.range 16).foldl (fun s c => s.clearSram die c) s).unmarch die
  s.updDie die fun d =>
    { d with railsUp := false, cpllOn := false, dpllOn := false, dpllIdle := none, vddCoreMv := 0, diePower := 0, step := 0
             clusters := d.clusters.map fun c => { c.halt with st := .off, slots := [], current := none, lastSwitch := none } }

/-- The PLLs of a die whose test has ended (R397). -/
def State.testOver (s : State) (die target : Nat) : State :=
  (if target = 1 || target = 3 then s.dramNeed die else s).updDie die Die.stopPlls

/-- The background march of a die's released pages is over: its record is closed (R421, R429). -/
def State.endMarch (s : State) (die : Nat) (abandoned : Bool) : State :=
  match (s.die die).march with
  | none => s
  | some id =>
    let s := s.updDie die fun d => Die.stopPlls { d with
      march := none, lastStatus := if abandoned then stOutOfRange else if d.lastUnrepaired = 0 then stOk else stDegraded }
    let s := s.updRecord id fun r => { r with abandoned := if abandoned then 2 ^ die else 0, open_ := [] }
    (if abandoned then s.logEvent 0x0706 1 die noTag id else s).closeRecord id

/-- A test on a die, and its background march, end without a result: OUT_OF_RANGE, an event, and zeros in the memory under test
(R420). Pages already marched stay so. -/
def State.abandonTest (s : State) (die : Nat) : State :=
  let s := s.endMarch die true
  match (s.die die).test with
  | none => s
  | some t =>
    let s := s.testErase die t.target t.port
    let s := s.updDie die fun d =>
      { d with test := none, lastStatus := stOutOfRange, lastUnrepaired := 0
               sramUnmarched := d.sramUnmarched || (t.origin = 1 && t.target = 0) }
    let s := s.updRecord t.testId fun r =>
      { r with abandoned := r.abandoned ||| 2 ^ die, open_ := r.open_.filter (· != die) }
    ((s.testOver die t.target).logEvent 0x0706 1 die noTag t.testId).closeRecord t.testId

/-- A die fault (R394): the rails go off, the die is FAULT, and its pitch FAILED. -/
def State.dieFault (s : State) (die rail : Nat) : State :=
  let s := (s.abandonTest die).loseDie die
  let s := (s.updDie die fun d => { d with st := .fault }).logEvent 0x0106 2 die noTag rail
  (s.dieTag? die).elim s fun tag => s.failPitch tag

/-! ### Tests on a die -/

/-- A die's test starts at its allowed step, with the PLLs it needs, or is abandoned at once where the step is below 8 (R397,
R420). -/
def State.startOn (target origin : Nat) (repair : Bool) (id port : Nat) (s : State) (die : Nat) : State :=
  if (s.die die).startable then
    let dram := target = 1 || target = 3
    s.updDie die fun d =>
      { d.toAllowed with
        cpllOn := true, test := some ⟨id, target, repair, origin, port⟩, lastTest := some id, lastTarget := target
        dpllOn := d.dpllOn || dram, dpllIdle := if dram then none else d.dpllIdle }
  else
    let s := s.updDie die fun d =>
      { d with lastTest := some id, lastTarget := target, lastStatus := stOutOfRange, lastUnrepaired := 0
               sramUnmarched := d.sramUnmarched || origin = 1 }
    s.updRecord id fun r => { r with abandoned := r.abandoned ||| 2 ^ die, open_ := r.open_.filter (· != die) }

/-- A test starts on the dies of a list; `port` is the port of a FABRIC_PORT test. -/
def State.startTest (s : State) (target origin : Nat) (repair : Bool) (dies : List Nat) (req : Option Nat) (port : Nat) : State :=
  let id := s.tests.nextId
  let s := s.openRecord target origin (maskOf dies) dies req
  (dies.foldl (State.startOn target origin repair id port) s).closeRecord id

/-- A soft repair's event, one per failing instance. -/
def State.logRepairs (s : State) (die : Nat) (l : List (Nat × Failure)) : State :=
  ((l.filter fun x => 1 ≤ x.1 && x.1 ≤ 3).map fun x => (x.2.kind, failInst x.2)).eraseDups.foldl
    (fun s x => s.logEvent 0x0702 0 die noTag (x.1 + x.2 * 256)) s

/-- What exhausted spares make of a die (R425): FAULT, and for D00's keeper RAM the keeper of D23 serves. -/
def State.exhaust (s : State) (die kind : Nat) : State :=
  let s := (s.updDie die fun d => { d with sparesExhausted := true }).logEvent 0x0704 2 die noTag kind
  let s := s.dieFault die 0
  if kind = 7 && die = 0 then s.setKpr { s.kpr with serverD23 := true } else s

/-- The Ringmaster pair of a die (R367). -/
def pairOf (die : Nat) : Nat := if die = 0 then 0 else 1

/-- What a test of a Ringmaster pair's RAM decides (R369, R425): a fenced pair that passes it, and the lockstep check of boot
(R421), starts as standby; a standby whose RAM cannot be repaired is fenced. -/
def State.pairTested (s : State) (die : Nat) (passed repairable : Bool) : State :=
  let pair := pairOf die
  if s.ring.fenced = some pair then
    let t := s.draw
    if passed && Config.lockstepPasses (2 * s.free + pair) then
      (t.setRing { t.ring with fenced := none, standby := true, beats := t.ring.beats.set pair t.now }).rehome
    else t.logNote 5 "NO_STANDBY" none noDie noTag die
  else if s.ring.standby && s.ring.primary != pair && !repairable then
    ((s.setRing { s.ring with standby := false, fenced := some pair }).rehome).logNote 5 "NO_STANDBY" none noDie noTag die
  else s

/-- The fenced pair's test that waited for another test on its die begins (R369, R421). -/
def State.dueTest (s : State) (die : Nat) : State :=
  if s.ring.testDue && s.ring.fenced.elim false (fun f => pairDie f = die) && (s.die die).test.isNone &&
      (s.die die).startable then
    (s.setRing { s.ring with testDue := false }).startTest 4 3 true [die] none 0
  else s

/-- Failures found on a die, with or without repair. -/
def Die.findings (d : Die) (repair : Bool) (fs : List Failure) : Mended :=
  if repair then d.mend fs else ⟨d, fs.map ((0, ·)), none⟩

/-- The findings of a test entered in its record (R429): repairs are counted as they are applied, one for each spare. -/
def TestRecord.found (r : TestRecord) (die : Nat) (before : Die) (m : Mended) : TestRecord :=
  { r with
    entries := r.entries ++ m.done.map fun x => (die, x.1, x.2)
    repairsApplied := r.repairsApplied + (m.die.repairs.length - before.repairs.length)
    unrepaired := r.unrepaired + Machine.unrepaired m.done
    faulted := if m.exhausted.isSome then r.faulted ||| 2 ^ die else r.faulted }

/-- A die's test has ended with what its engines recorded (R419, R424, R425). Spares that fail have no spares of their own. -/
def State.finishTest (s : State) (die : Nat) (t : RunningTest) (reported : List Failure) : State :=
  let fs := recordedFailures reported
  let s := s.testErase die t.target t.port
  let before := s.die die
  let m := before.findings (t.repair && t.target != 3) fs
  let left := unrepaired m.done
  let s := s.updDie die fun _ =>
    { m.die with
      test := none, lastStatus := if left = 0 then stOk else stDegraded, lastUnrepaired := left
      marched := if t.target = 1 then List.range Config.diePages else m.die.marched
      zeroed := if t.target = 1 then [] else m.die.zeroed
      sramUnmarched := m.die.sramUnmarched && t.target != 0
      sparesTested := m.die.sparesTested || t.target = 3
      badSpares := if t.target = 3 then fs else m.die.badSpares }
  let s := s.testOver die t.target
  let s := if t.target = 1 then s.endMarch die false else s
  let s := s.updRecord t.testId fun r => { r.found die before m with open_ := r.open_.filter (· != die) }
  let s := if fs = [] then s else s.logEvent 0x0701 1 die noTag t.testId
  let s := if t.target = 4 then s.pairTested die (left = 0) (m.done.all (·.1 != 4)) else s
  let s := s.logRepairs die m.done
  let s := m.exhausted.elim s fun k => s.exhaust die k
  (s.closeRecord t.testId).dueTest die

/-! ### Keeper-only mode (R409) -/

/-- Responses of mailbox 0 that count as outstanding (R373). -/
def State.countedRsp (s : State) : Nat := (s.mbx0.rsp.filter (·.2)).length

/-- Entry into keeper-only mode, with its cause (R409, R410, R411). -/
def State.keeperOnly (s : State) (cause : Nat) : State :=
  let s := s.setRing { acceptNext := s.ring.acceptNext, primary := s.ring.primary, quotes := s.ring.quotes }
  let s := s.setTests { s.tests with fusing := none }
  let s := (s.pitches.map (·.tag)).foldl State.failPitch s
  let s := (List.range Config.dies).foldl (fun s d => (s.abandonTest d).loseDie d) s
  let s := s.setBoxes (s.boxes.mapIdx fun i b =>
    { bound := b.bound, refused := b.refused, refusals := b.refusals, outstanding := if i = 0 then s.countedRsp else 0 })
  let s := s.setFw { s.fw with stage := 0, stageSize := 0, stageData := [], stageWritten := [], stageImage := none, handover := none }
  (s.setKpr { s.kpr with mod := .keeperOnly }).logEvent 0x0204 2 noDie noTag cause

/-! ### Module reset (R402, R403) -/

/-- A die after a module reset that keeps the keeper domain: soft and fused repairs stay, and a die whose spares are
exhausted stays FAULT (R403, R424). -/
def Die.reset (d : Die) : Die :=
  { st := if d.sparesExhausted then .fault else .inService
    repairs := d.repairs, fuseUsed := d.fuseUsed, phasesLost := d.phasesLost, spareFor := d.spareFor
    sparesTested := d.sparesTested, badSpares := d.badSpares, sparesExhausted := d.sparesExhausted
    tj := d.tj, tjSensor := d.tjSensor
    clusters := d.clusters.map fun _ => { st := if d.sparesExhausted then .off else .resting } }

/-- A die after a power-on reset: fused repairs only (R424), and every die is tried afresh (R403). -/
def Die.powerOn (d : Die) : Die :=
  let rs := d.repairs.filter (·.fused)
  { repairs := rs, fuseUsed := d.fuseUsed, tj := d.tj, tjSensor := d.tjSensor
    spareFor := (rs.find? fun r => r.kind = 9).map (·.inst) }

/-- A byte that a module reset leaves: one of another module, or of host memory, which is left as ciphertext (R180). -/
def isKept (k : Nat) : Bool := (2 ^ 48 ≤ k && k < 2 ^ 80) || 2 ^ 100 ≤ k

/-- Memory that a module reset leaves. -/
def keptMem (m : List Host.Cell) : List Host.Cell := m.filter fun c => isKept c.1

/-- What every module reset clears (R22, R403, R436 to R444). The keepers run on: they keep the TAGs of the last writes, so that
one retried after its own reset is not performed again (R433), and a keeper that has failed stays so (R434). -/
def State.clearModule (s : State) : State :=
  { s with
    mem := keptMem s.mem, bad := s.bad.filter isKept
    dies := s.dies.map Die.reset, ports := List.replicate 72 {}, fab := {}, pitches := [], lends := []
    boxes := List.replicate 64 {}, mbx0 := {}, ring := {}
    fw := { flash := s.fw.flash, control := s.fw.control, keyHashes := s.fw.keyHashes, revoked := s.fw.revoked
            svnMin := s.fw.svnMin }
    power := { s.power with
      phase := .inReset, pwrOk := false, pwarnW := 0, pwarn := false, pwarnBelow := none, powerLimited := false
      currentLimited := false, lastDown := none, lastUp := none, dip := false, dipHold := none, pulseUntil := 0 }
    kpr := { scratch := s.kpr.scratch, resetCause := s.kpr.resetCause, writeTags := s.kpr.writeTags, serverD23 := s.kpr.serverD23 }
    tests := { s.tests with records := s.tests.records.map fun r => { r with open_ := [], request := none }, fusing := none } }

/-- Step 3 of R395: the local counter starts at 0, the reset count rises, and the reset's cause is the first entry. -/
def State.step3 (s : State) : State :=
  let s := s.setPower { s.power with phase := .started }
  let s := s.setKpr { s.kpr with now := 0, mod := .booting }
  let s := s.setEeprom { s.eeprom with resetCount := s.eeprom.resetCount + 1 }
  s.logEvent 0x0101 0 noDie noTag s.kpr.resetCause

/-- A module reset with the keeper domain kept; it restarts at once where `restart` holds, else at the next power-on
sequence (R402). -/
def State.moduleReset (s : State) (cause : Nat) (restart : Bool) : State :=
  let s := s.clearModule
  let s := s.setKpr { s.kpr with resetCause := cause }
  if restart then s.step3 else s

/-- The keeper domain goes off: the log and the soft repairs are lost, and the module is unpowered (R402, R424, R437). The test access
port is powered while the input is at or above 30.0 V (R451, R457). -/
def State.unpower (s : State) : State :=
  let s := s.clearModule
  { s with
    dies := s.dies.map Die.powerOn, log := {}, tests := {}, tap := if s.power.vinMv < 30000 then .idcode else s.tap
    kpr := {}
    power := { vinMv := s.power.vinMv, phase := .off } }

end Sys2Proof.Machine
end

