-- ==== Sys2Proof/Machine/Pitches.lean ====
section
/-! DEFINITION. Pitches (R308 to R335): creation, binding, suspend and resume, release, query, meters and attestation. -/

namespace Sys2Proof.Machine

open Sys2Proof

/-! ### PITCH_CREATE (R310 to R314) -/

/-- A member entry: module and die mask (R311). -/
def parseMember (b : Bytes) : Nat × Nat := (u16 b 0, u32 b 4)

/-- A region entry (R311). -/
def parseRegion (b : Bytes) : Region :=
  { lent := u8 b 0 = 1, home := u16 b 2, source := u16 b 4, length := u64 b 8, hostAddr := u64 b 16, lendDies := u32 b 24 }

/-- The tables of a PITCH_CREATE body, entry by entry. -/
def memberEntries (b : Bytes) : List Bytes := records b 64 8 (u8 b 9)
def regionEntries (b : Bytes) : List Bytes := records b (64 + 8 * u8 b 9) 32 (u8 b 10)

/-- Dies of a member table. -/
def dieTotal (ms : List (Nat × Nat)) : Nat := (ms.map fun m => (maskBits m.2 24).length).foldl (· + ·) 0

/-- The member table names every module once, with whole dies, and this module with LOCAL_DIES (R308, R311, R312). -/
def membersOk (module localDies : Nat) (es : List Bytes) : Bool :=
  let ms := es.map parseMember
  es.all (fun e => zeroRange e 2 2 && u32 e 4 < 2 ^ 24 && u32 e 4 != 0) &&
  (ms.map (·.1)).eraseDups.length = ms.length && ms.any (fun m => m.1 = module && m.2 = localDies) && dieTotal ms ≤ 1024

/-- The lending dies of a LENT region stand on another module than this one, and belong to no pitch, so not to this one (R178). -/
def lenderOk (module : Nat) (ms : List (Nat × Nat)) (r : Region) : Bool :=
  r.source != module && ms.all fun m => m.1 != r.source || m.2 &&& r.lendDies = 0

/-- A region entry is well formed (R311). -/
def regionOk (module : Nat) (ms : List (Nat × Nat)) (e : Bytes) : Bool :=
  let r := parseRegion e
  u8 e 0 ≤ 1 && u8 e 1 = 0 && zeroRange e 6 2 && zeroRange e 28 4 && ms.any (fun m => m.1 = r.home) && r.length ≤ 2 ^ 42 &&
  (if r.lent then r.length % 2 ^ 21 = 0 && r.hostAddr = 0 && r.lendDies < 2 ^ 24 && lenderOk module ms r
   else r.length % 2 ^ 30 = 0 && r.hostAddr % 2 ^ 30 = 0 && r.lendDies = 0)

/-- SHARE_HAUL, SHARE_LINK, SHARE_HOST and SHARE_SVC of a body. -/
def sharesOf (b : Bytes) : List Nat := (List.range 4).map fun i => u8 b (12 + i)

/-- The fixed fields and tables of the body are acceptable (R310, R311, R312). -/
def createOk (s : State) (b : Bytes) : Bool :=
  let lend := bit (u16 b 2) 0
  u16 b 0 < 4096 && u16 b 2 < 4 && u32 b 4 < 2 ^ 24 && u32 b 4 != 0 && [0, 2, 4, 6].contains (u8 b 8) && u8 b 11 = 0 &&
  (sharesOf b).all (1 ≤ ·) && zeroRange b 18 46 &&
  (if lend then u8 b 9 = 0 && u8 b 10 = 0
   else 1 ≤ u8 b 9 && u8 b 10 ≤ 32 && u16 b 16 = 0 && membersOk s.fab.moduleId (u32 b 4) (memberEntries b) &&
     (regionEntries b).all (regionOk s.fab.moduleId ((memberEntries b).map parseMember)))

/-- A die that may join a pitch or a lending set (R312). -/
def State.dieFree (s : State) (d : Nat) : Bool :=
  (s.die d).st = .inService && (s.dieTag? d).isNone && (s.dieLend? d).isNone

/-- A share would bring its sum over the module's pitches above 240 (R312). -/
def State.sharesFit (s : State) (b : Bytes) : Bool :=
  (List.range 4).all fun i => (s.pitches.map fun p => p.shares.getD i 0).foldl (· + ·) 0 + (sharesOf b).getD i 0 ≤ 240

/-- The status that turns a PITCH_CREATE away, if any, in the order of R312's table. -/
def createFail (s : State) (b : Bytes) : Option Nat :=
  let tag := u16 b 0 % 4096
  if (s.pitch? tag).isSome || s.lends.any (fun l => l.tag = tag) then some stBusy
  else if !((maskBits (u32 b 4) 24).all s.dieFree) || !(bit (u16 b 2) 0 || s.sharesFit b) then some stNoCapacity
  else if !createOk s b then some stBadCommand
  else none

/-- The pitch that an accepted body creates (R313). -/
def createdPitch (s : State) (seq : Nat) (b : Bytes) : Pitch :=
  let ms := (memberEntries b).map parseMember
  let rs := (regionEntries b).map parseRegion
  { tag := u16 b 0, strict := bit (u16 b 2) 1, localDies := u32 b 4, stagingMib := if u8 b 8 = 0 then 2 else u8 b 8
    members := ms, regions := rs, shares := sharesOf b, createBody := slice b 0 (64 + 8 * u8 b 9 + 32 * u8 b 10)
    createSeq := seq, lmap := freshMap ms
    spoilKey := if rs.any fun r => r.home = s.fab.moduleId then some (s.free + 1) else none
    hashKey := some s.free }

/-- The first logical cluster placed on a physical cluster (R161). -/
def firstOn (module : Nat) (map : List LEntry) (die c : Nat) : Option Nat :=
  (map.zipIdx.find? fun x => x.1 = ⟨module, die, c⟩).map (·.2)

/-- A die as it joins a pitch: slots zeroed, clusters RESTING, the DRAM PLL running (R313, R397). -/
def Die.join (module : Nat) (map : List LEntry) (die : Nat) (d : Die) : Die :=
  { d with
    dpllOn := true, dpllIdle := none
    clusters := d.clusters.mapIdx fun c x =>
      { x.halt with st := .resting, slots := [], current := firstOn module map die c, lastSwitch := none, idleCycles := 0
                    idleCounts := 0 } }

/-- PITCH_CREATE 0x0101. -/
def execPitchCreate (seq : Nat) (s : State) : Host.Outcome State Fault Refusal :=
  .next (s.onOperator seq 0x0101 fun r =>
    let b := r.body
    match createFail s b with
    | some e => s.respond seq e []
    | none =>
      let dies := maskBits (u32 b 4) 24
      if bit (u16 b 2) 0 then
        let s := s.setLends (s.lends ++ [⟨u16 b 0, u32 b 4, u16 b 16⟩])
        (dies.foldl (fun s d => s.updDie d fun d => { d with dpllOn := true, dpllIdle := none }) s).respond seq stOk []
      else
        let p := createdPitch s seq b
        let s := dies.foldl (fun s d => s.updDie d (Die.join s.fab.moduleId p.lmap d)) s
        (((s.clearRemote p false).setPitches (s.pitches ++ [p])).draw.draw).respond seq stOk [])

/-! ### PITCH_BIND_PORT (R317, R318) -/

/-- A port of the host-facing set. -/
def State.hostFacing (s : State) (port : Nat) : Bool := s.fab.hostPorts.contains port

/-- The role that a request asks for. -/
def roleOf (role tag : Nat) : Role := if role = 1 then .fabric else if role = 2 then .host tag else .off

/-- The fields of a PITCH_BIND_PORT body are acceptable (R317). -/
def bindOk (b : Bytes) : Bool :=
  restZero b 6 && u16 b 4 < 4096 &&
  (if u8 b 0 = 0 then u8 b 1 ≤ 71 && u8 b 3 ≤ 2 && (u8 b 3 = 2 || u16 b 4 = 0)
   else u8 b 0 = 1 && 1 ≤ u8 b 1 && u8 b 1 ≤ 63 && u8 b 2 = 0 && (u8 b 3 = 0 || u8 b 3 = 2) && (u8 b 3 = 2 || u16 b 4 = 0))

/-- The channels of a mask with one role. -/
def setRoles (roles : List Role) (mask : Nat) (r : Role) : List Role :=
  roles.mapIdx fun v x => if mask.testBit v then r else x

/-- Channels of a port set OFF for a request; what waits to leave on them is discarded. -/
def Port.bindOff (p : Port) (seq mask : Nat) : Port :=
  { p with
    roles := setRoles p.roles mask .off, offs := p.offs.filter (·.1 != seq) ++ [(seq, mask)]
    hostOut := p.hostOut.filter fun x => !mask.testBit x.1 }

/-- The binding of channels of one port (R318). OFF answers once no frame stamped on them is under way, and until then no
channel that it names is bound again. -/
def State.bindPort (s : State) (seq port mask role tag : Nat) : State :=
  let p := s.port port
  let r := roleOf role tag
  let vcs := maskBits mask 8
  if role = 0 then
    if vcs.all fun v => p.stamped.getD v 0 = 0 then
      (s.updPort port fun p => { p.bindOff seq mask with offs := p.offs.filter (·.1 != seq) }).respond seq stOk []
    else s.updPort port fun p => p.bindOff seq mask
  else if (role = 2) != s.hostFacing port then s.respond seq stBadCommand []
  else if vcs.any fun v => (p.roles.getD v .off != .off && p.roles.getD v .off != r) || p.offs.any fun x => x.2.testBit v then
    s.respond seq stBusy []
  else (s.updPort port fun p => { p with roles := setRoles p.roles mask r }).respond seq stOk []

/-- A mailbox accepted requests that are not answered yet. -/
def State.boxPending (s : State) (m : Nat) : Bool := s.ring.journal.any fun r => r.mailbox = m

/-- A mailbox as unbound: nothing accepted is open, and its window is cleared (R318). -/
def Mailbox.unbound (b : Mailbox) : Mailbox :=
  { b with bound := none, unbinding := none, assembly := none, window := [] }

/-- The binding of a mailbox (R318). UNBIND answers once every request that it had accepted is answered. -/
def State.bindBox (s : State) (seq m role tag : Nat) : State :=
  let b := s.box m
  if role = 2 then
    if b.bound.isSome || b.unbinding.isSome then s.respond seq stBusy []
    else (s.updBox m fun b => { b with bound := some tag }).respond seq stOk []
  else if b.unbinding.elim false (· != seq) then s
  else
    let s := s.updBox m fun b => { b with bound := none, unbinding := some seq, assembly := none }
    if s.boxPending m then s else (s.updBox m Mailbox.unbound).respond seq stOk []

/-- PITCH_BIND_PORT 0x0103. Given again for a request that waits, it answers once it may. -/
def execPitchBindPort (seq : Nat) (s : State) : Host.Outcome State Fault Refusal :=
  .next (s.onOperator seq 0x0103 fun r =>
    let b := r.body
    if !bindOk b then s.respond seq stBadCommand []
    else if u8 b 0 = 0 then s.bindPort seq (u8 b 1) (u8 b 2) (u8 b 3) (u16 b 4)
    else s.bindBox seq (u8 b 1) (u8 b 3) (u16 b 4))

/-! ### Commands that span modules (R321) -/

/-- Member modules other than this one. -/
def Pitch.others (s : State) (p : Pitch) : List Nat := (p.members.map (·.1)).filter (· != s.fab.moduleId)

/-- The members whose part a request waits for: a firmware message asks only for this module's own. -/
def State.partners (s : State) (p : Pitch) (seq : Nat) : List Nat := if messageSeq ≤ seq then [] else p.others s

/-- The data of a message that carries a command about a pitch, with one more field of its body. -/
def messageData (command requestId tag value : Nat) : Bytes :=
  header command 0 8 requestId 0xFF 0 noTag 0 0 0xFFFF 0 ++ le 2 tag ++ le 2 0 ++ le 4 value

/-- The command carried to the other members (R321). -/
def State.carry (s : State) (p : Pitch) (seq command value : Nat) : State :=
  (s.partners p seq).foldl (fun s m => s.sendMessage m p.tag seq 1 (messageData command seq p.tag value)) s

/-- Members that have not confirmed: no answer of theirs has come that says it is done (R321). -/
def State.unconfirmed (s : State) (p : Pitch) (seq : Nat) : Nat :=
  ((s.partners p seq).filter fun m => !p.answers.any fun a => a.1 = m && (a.2 = stOk || a.2 = stDegraded)).length

/-- The answer of a coordinated command whose own part is done: at once where the pitch has no other member or all have
confirmed, and no release message to a lender is open; else it waits. A release message that failed makes it DEGRADED (R392). -/
def State.coordinated (s : State) (seq : Nat) (p : Pitch) (body : Bytes) (done : State → State) : State :=
  if s.unconfirmed p seq = 0 && p.lenders = [] then
    (done s).respond seq (if p.lenderLost then stDegraded else stOk) (if p.lenderLost && body = [] then le 2 0 else body)
  else s

/-! ### PITCH_SUSPEND and PITCH_RESUME (R322 to R324) -/

/-- Commands of the pitch accepted before a request are all answered (R322, step 1). -/
def State.earlierDone (s : State) (p : Pitch) (seq : Nat) : Bool :=
  s.ring.journal.all fun r => r.tag != p.tag || r.mailbox = 0 || seq ≤ r.seq

/-- A complete block, held or not, waits for its update (R322, step 3). -/
def crusherDue (s : State) (p : Pitch) : Bool :=
  p.runs.any fun r => r.blocks.any fun c => (c.st = .complete || c.st = .held) && (r.mult? c.step).isSome &&
    (r.layer? c.layer).elim false fun l => l.rule.elim false fun u => updatable s p r l u c

/-- A strip of a block's new weights waits to be written and may be (R322, step 3). -/
def emissionDue (p : Pitch) : Bool :=
  p.runs.any fun r => r.blocks.any fun c =>
    (p.plans.find? fun x => x.run = r.id && x.layerMap.any fun e => e.1 = c.layer).elim false fun x =>
      c.sendable (fun t e => accepts p x c.layer t e.piece) != []

/-- The clusters of a die go OFF (R322, step 5); its cluster PLLs stop unless a self-test needs them (R397). -/
def Die.clustersOff (d : Die) : Die :=
  Die.stopPlls { d with clusters := d.clusters.map fun c => { c with st := .off, idleCycles := 0, idleCounts := 0 } }

/-- The save is done: the pitch is SUSPENDED and its clusters are OFF. What the image holds stays in the pitch's own
state, since it is restored onto the same dies. -/
def State.suspended (s : State) (p : Pitch) : State :=
  (p.dies.foldl (fun s d => s.updDie d Die.clustersOff) s).updPitch p.tag fun p =>
    { p with st := .suspended, contextWritten := false }

/-- What a command about a named pitch of mailbox 0 does where the pitch exists; else it answers NOT_FOUND. -/
def State.onNamed (s : State) (seq tag : Nat) (f : Pitch → State) : State :=
  match s.pitch? tag with
  | none => s.respond seq stNotFound []
  | some p => f p

/-- A checkpoint slot of a run is being written: the write finishes or fails before a suspend goes on (R257, R335). -/
def Pitch.ckptWriting (p : Pitch) : Bool := p.runs.any fun r => r.ckpt.elim false fun c => c.writing.isSome

/-- Step 2 of R322 is finished: every queue is frozen, and no item runs. -/
def Pitch.atRest (p : Pitch) : Bool := p.queues.all (·.frozen) && p.quiet

/-- A suspend whose own part is done. -/
def State.suspendAnswer (s : State) (seq : Nat) (p : Pitch) : State :=
  s.coordinated seq p [] fun s => s.updPitch p.tag fun p => { p with busyWith := none }

/-- Steps 2 to 5, once the queues are frozen. -/
def State.suspendRest (s : State) (seq : Nat) (p : Pitch) : State :=
  if p.quiet && !crusherDue s p && !emissionDue p && !p.ckptWriting then (s.suspended p).suspendAnswer seq p else s

/-- One look at a suspend in progress: the commands accepted before it complete, and then the queues freeze (R322, steps 1 and
2). -/
def State.suspendStep (s : State) (seq : Nat) (p : Pitch) : State :=
  if p.st = .suspended then s.suspendAnswer seq p
  else if p.st = .suspending && s.earlierDone p seq then
    (s.updPitch p.tag fun p => p.freeze seq).suspendRest seq (p.freeze seq)
  else s

/-- PITCH_SUSPEND 0x0104. Given again for its own request, it goes on with it. -/
def execPitchSuspend (seq : Nat) (s : State) : Host.Outcome State Fault Refusal :=
  .next (s.onOperator seq 0x0104 fun r =>
    let b := r.body
    if !zeroRange b 2 2 || !restZero b 8 then s.respond seq stBadCommand []
    else s.onNamed seq (u16 b 0) fun p =>
      if p.busyWith = some seq then s.suspendStep seq p
      else if p.st != .active || p.busyWith.isSome then s.respond seq stBusy []
      else
        let start := fun (p : Pitch) =>
          { p with
            st := .suspending, busyWith := some seq, busySince := s.now, answers := []
            suspendTimeoutMs := if u32 b 4 = 0 then 1000 else u32 b 4 }
        ((s.updPitch p.tag start).carry p seq 0x0104 (u32 b 4)).suspendStep seq (start p))

/-- The pitch restored onto its own dies (R159, R324): pending items return to their clusters, every instance is in STARTUP,
the clusters of its dies in service leave OFF for RESTING, and records past their deadline expire (R231). -/
def State.resumed (s : State) (p : Pitch) : State :=
  let s := s.updPitch p.tag fun p' =>
    { p'.thaw with
      st := .active
      items := p'.items.map fun i => { returnedItem s p i.key.queue i.pendingWork with loose := i.loose }
      models := p'.models.map fun m => { m with booth := { m.booth with mode := 0, commits := 0 } } }
  let s := p.dies.foldl (fun s d => s.updDie d fun d =>
    if d.st = .inService || d.st = .draining then { d with clusters := d.clusters.map fun c => { c with st := .resting } } else d) s
  s.expirePast p.tag

/-- Another member has not finished step 2 of R322 in time: it answers BUSY. -/
def Pitch.memberLate (p : Pitch) : Bool := p.answers.any fun a => a.2 = stBusy

/-- A suspend given up: the pitch is ACTIVE again, here and on the other members, and the command is BUSY (R322). -/
def State.suspendUndo (s : State) (seq : Nat) (p : Pitch) : State :=
  let s := if p.st = .suspended then s.resumed p else s.updPitch p.tag fun p => { p.unfreeze seq with st := .active }
  ((s.updPitch p.tag fun p => { p with busyWith := none }).carry p seq 0x0105 0).respond seq stBusy []

/-- SUSPEND_TIMEOUT: step 2 is not finished within TIMEOUT_MS here (the commands accepted before are not complete, or the queues
have not come to rest), or another member says so (R322). -/
def execSuspendTimeout (tag : Nat) (s : State) : Host.Outcome State Fault Refusal :=
  .next (match s.pitch? tag with
    | none => s
    | some p => match p.busyWith with
      | none => s
      | some seq =>
        if (p.st = .suspending && due p.busySince (25000 * p.suspendTimeoutMs) s.now && !p.atRest) ||
            ((p.st = .suspending || p.st = .suspended) && p.memberLate) then s.suspendUndo seq p
        else s)

/-- An uncorrectable unit in the reserved areas of the pitch's dies that the saved context occupies (R164, R177, R322). -/
def State.contextBad (s : State) (p : Pitch) : Bool :=
  s.bad.any fun u => isLocalDram u && p.localDies.testBit (u / 2 ^ 43) &&
    Config.windowBytes ≤ u % 2 ^ 43 % Config.partitionBytes && Config.holdsContext p.tag u

/-- The saved context no longer has its digest (R159, R324): something was written into it, and whether that changed it is free, for
the context's place has no layout. -/
def State.contextChanged (s : State) (p : Pitch) : Bool := p.contextWritten && Config.contextDiffers s.free

/-- PITCH_RESUME 0x0105: the pitch is RESUMING; given again for its own request, the restore is done and the pitch ACTIVE. A
context that cannot be read leaves it SUSPENDED (R324). A message that gives up a suspend also ends one that is still in progress
here (R322). -/
def execPitchResume (seq : Nat) (s : State) : Host.Outcome State Fault Refusal :=
  .next (s.onOperator seq 0x0105 fun r =>
    let b := r.body
    let done := fun (tag : Nat) (s : State) => s.updPitch tag fun p => { p with busyWith := none }
    if !restZero b 2 then s.respond seq stBadCommand []
    else s.onNamed seq (u16 b 0) fun p =>
      if p.busyWith = some seq then
        (if p.st = .resuming then s.resumed p else s).coordinated seq p [] (done p.tag)
      else if p.st = .suspending && messageSeq ≤ seq && p.busyWith.elim false (messageSeq ≤ ·) then
        (s.suspendUndo (p.busyWith.getD 0) p).respond seq stOk []
      else if p.st != .suspended || p.busyWith.isSome then s.respond seq stBusy []
      else if s.contextBad p then
        (s.logNote 3 "UNCORRECTABLE_OPERATOR" (some 2) noDie p.tag 0).respond seq stUncorrectable []
      else if s.contextChanged p then s.draw.respond seq stVerifyFailed []
      else (s.updPitch p.tag fun p =>
        { p with st := .resuming, busyWith := some seq, busySince := s.now, answers := [] }).carry p seq 0x0105 0)

/-! ### PITCH_RELEASE (R325, R314) -/

/-- A meter record (R331). -/
def meterRecord (minute : Nat) (l : List Nat) : Bytes := le 8 minute ++ l.flatMap (le 8) ++ le 8 0

/-- The totals record. -/
def Pitch.totals (p : Pitch) : Bytes := meterRecord (2 ^ 64 - 1) p.meterTotal

/-- Step 2 begins: every queue closes as with MODE = ABORT, open collectives end, and runs, plans and instances are gone. -/
def State.releaseWork (s : State) (seq : Nat) (p : Pitch) : State :=
  let s := s.updPitch p.tag fun p =>
    { p with
      queues := p.queues.map fun q =>
        { q with frozen := false, freezer := none
                 aborts := if q.head < q.tail then q.aborts ++ [(q.head, q.tail - 1)] else q.aborts
                 closing := some (seq, q.tail, true) } }
  let s := p.queues.foldl (fun s q => s.abortConsumed p.tag q.id 0 q.tail) s
  let s := ((s.pitch? p.tag).elim [] (·.colls)).foldl (fun s c => s.abortColl p.tag c.ident []) s
  s.updPitch p.tag fun p => { p with models := [], runs := [], plans := [] }

/-- Queues whose last descriptor is consumed and completed are gone. -/
def Pitch.dropClosed (p : Pitch) : Pitch :=
  { p with queues := p.queues.filter fun q => q.head < q.tail || p.items.any fun i => i.key.queue = q.id }

/-- Lending sets of the pitch's LENT regions homed here are released by a message to their modules (R314). -/
def State.releaseLent (s : State) (p : Pitch) : State :=
  let l := (((p.regions.filter fun r => r.lent && r.home = s.fab.moduleId).map (·.source)).eraseDups)
  l.foldl (fun s m => s.sendMessage m p.tag (2 ^ 64 - 1) 1 (messageData 0x0102 (2 ^ 64 - 1) p.tag 0))
    (s.updPitch p.tag fun p => { p with lenders := l })

/-- Every HOST channel and mailbox bound to a tag is unbound (R325, step 4). -/
def State.unbindTag (s : State) (tag : Nat) : State :=
  let s := s.setPorts (s.ports.map fun p =>
    { p with roles := p.roles.map (fun r => if r = .host tag then .off else r), hostOut := p.hostOut.filter fun x => x.2.tag != tag })
  s.setBoxes (s.boxes.map fun b => if b.bound = some tag then b.unbound else b)

/-- A byte of a page lent to a pitch's region homed here: the release zeroes it (R180). -/
def isLent (s : State) (p : Pitch) (k : Nat) : Bool :=
  p.regions.any fun r => r.lent && r.home = s.fab.moduleId && (maskBits r.lendDies 24).any fun d =>
    let lo := memKey s ⟨r.source, d, 0⟩ 0
    lo ≤ k && k < lo + 16 * Config.partitionBytes

/-- A byte that goes with a pitch, beyond its dies: of a spoil region homed elsewhere, which no one can decrypt again (R180),
of a lent page, of an SRAM image, or of the pitch's dies on other modules, which release it too (R168). Host pages are left as
ciphertext. -/
def isTagged (s : State) (p : Pitch) (k : Nat) : Bool :=
  (spoilKey p.tag 0 ≤ k && k < spoilKey (p.tag + 1) 0 && isSpoilKey k) || isLent s p k ||
  (imageKey p.tag 0 0 ≤ k && k < imageKey (p.tag + 1) 0 0) || p.holdsRemote s.fab.moduleId false k

/-- A die of a released pitch or lending set: SRAM, slots and DRAM pages zeroed, every page UNMARCHED (R325, R326). -/
def State.scrubDie (s : State) (die : Nat) : State :=
  let s := ((List.range 16).foldl (fun s c => s.clearSram die c) s).unmarch die
  s.updDie die fun d =>
    Die.stopPlls { d with
      dpllIdle := some s.now
      clusters := d.clusters.map fun c =>
        { c.halt with st := if d.railsUp && (d.st = .inService || d.st = .draining) then .resting else .off, slots := []
                      current := none, lastSwitch := none } }

/-- A frame stamped for a pitch on this module is neither delivered nor discarded yet (R318). -/
def State.stampedOpen (s : State) (tag : Nat) : Bool :=
  s.dies.any (fun d => d.txns.any fun t => t.frame.tag = tag && t.frame.srcPort != 0xFF) ||
  s.ports.any fun p => p.heldWrites.any fun h => h.frame.tag = tag

/-- Steps 3 and 5: keys destroyed, memories zeroed, and the march of the SRAM-class memories begun, or put off with an event
where a die is outside the window (R421). -/
def State.releaseScrub (s : State) (p : Pitch) : State :=
  let s := s.releaseLent p
  let s := (s.setMem (s.mem.filter fun c => !isTagged s p c.1)).setBad (s.bad.filter fun u => !isTagged s p u)
  let s := s.updPitch p.tag fun p => { p with spoilKey := none, hashKey := none, swapped := [], counters := [] }
  let s := p.dies.foldl State.scrubDie s
  let out := p.dies.filter fun d => !(s.die d).startable && (s.die d).railsUp
  let s := out.foldl (fun s d => (s.logUnmarched d p.tag (2 ^ 32)).updDie d fun d => { d with sramUnmarched := true }) s
  let inn := p.dies.filter fun d => (s.die d).startable
  if inn = [] then s else s.startTest 0 1 true inn none 0

/-- Steps 2 to 6 as far as they can go. -/
def State.releaseStep (s : State) (seq tag : Nat) : State :=
  let s := s.updPitch tag Pitch.dropClosed
  match s.pitch? tag with
  | none => s
  | some p =>
    if p.queues != [] || p.items != [] then s
    else
      let s := s.unbindTag tag
      if s.stampedOpen tag then s
      else
      let s := if p.hashKey.isSome then s.releaseScrub p else s
      if p.dies.any fun d => (s.die d).test.elim false fun t => t.origin = 1 then s
      else s.coordinated seq p (le 8 0 ++ p.totals) fun s => s.setPitches (s.pitches.filter fun x => x.tag != tag)

/-- Requests of the pitch accepted before a release and not answered yet are answered ABORTED (R325, R335). -/
def State.abortRequests (s : State) (p : Pitch) : State :=
  let l := s.ring.journal.filter fun r => (r.tag = p.tag && r.mailbox != 0) || p.busyWith = some r.seq
  (l.map (·.seq)).foldl (fun s q => s.respond q stAborted []) s

/-- A lending set released on the lender itself (R314): its record has no meter, so the record's bytes are open. -/
def State.releaseLend (s : State) (seq tag : Nat) (l : Lend) : State :=
  let s := (maskBits l.dies 24).foldl State.scrubDie s
  let b := le 8 0 ++ s.openBytes 80
  ((s.setLends (s.lends.filter fun x => x.tag != tag)).draw).respond seq stOk b

/-- PITCH_RELEASE 0x0102. Given again for its own request, it goes on with it; a second release waits for the first. -/
def execPitchRelease (seq : Nat) (s : State) : Host.Outcome State Fault Refusal :=
  .next (s.onOperator seq 0x0102 fun r =>
    let b := r.body
    let tag := u16 b 0
    if !restZero b 2 then s.respond seq stBadCommand []
    else match s.lends.find? fun l => l.tag = tag with
      | some l => s.releaseLend seq tag l
      | none => s.onNamed seq tag fun p =>
        if p.st = .releasing then (if p.busyWith = some seq then s.releaseStep seq tag else s)
        else
          let s := ((s.abortRequests p).carry p seq 0x0102 0).cancelMove p
          let s := s.updPitch tag fun p => { p with st := .releasing, busyWith := some seq, busySince := s.now, answers := [] }
          ((s.pitch? tag).elim s fun p => s.releaseWork seq p).releaseStep seq tag)

/-- COORDINATION_TIMEOUT: 1 s after a spanning command began, its own part done, it answers DEGRADED with the number of members
that have not confirmed (R321). -/
def execCoordinationTimeout (seq : Nat) (s : State) : Host.Outcome State Fault Refusal :=
  .next (match s.pitches.find? fun p => p.busyWith = some seq with
    | none => s
    | some p =>
      let own := p.st = .suspended || p.st = .active || (p.st = .releasing && p.hashKey.isNone && p.dies.all fun d =>
        (s.die d).test.elim true fun t => t.origin != 1)
      let n := s.unconfirmed p seq
      let body := if p.st = .releasing then le 8 n ++ p.totals else le 2 n
      if !own || p.lenders != [] || !due p.busySince 25000000 s.now then s
      else
        let s := if p.st = .releasing then s.setPitches (s.pitches.filter fun x => x.tag != p.tag)
          else s.updPitch p.tag fun p => { p with busyWith := none }
        s.respond seq (if n = 0 && !p.lenderLost then stOk else stDegraded) body)

/-! ### Query and meters (R327, R330, R331, R334) -/

/-- State codes (R327). -/
def PitchSt.code : PitchSt → Nat
  | .active => 0 | .suspending => 1 | .suspended => 2 | .resuming => 3 | .releasing => 4 | .failed => 5

/-- First logical die of the pitch on this module (R308). -/
def Pitch.firstLdie (p : Pitch) (module : Nat) : Nat := dieTotal (p.members.takeWhile fun m => m.1 != module)

/-- The binding entries of a tag, ascending as u64 values (R334). -/
def State.bindings (s : State) (tag : Nat) : List Bytes :=
  let vcs := s.ports.zipIdx.flatMap fun x =>
    ((List.range 8).filter fun v => x.1.roles.getD v .off = .host tag).map fun v =>
      le 1 0 ++ le 1 x.2 ++ le 1 (2 ^ v) ++ le 1 2 ++ le 2 tag ++ le 2 0
  let boxes := (s.boxes.zipIdx.filter fun x => x.1.bound = some tag).map fun x =>
    le 1 1 ++ le 1 x.2 ++ le 1 0 ++ le 1 2 ++ le 2 tag ++ le 2 0
  sortBy (fun a b => number a ≤ number b) (vcs ++ boxes)

/-- The configuration digest (R334). -/
def State.configDigest (s : State) (p : Pitch) : Bytes := sha384 (p.createBody ++ (s.bindings p.tag).flatten)

/-- Bit m: mailbox m is bound to the tag. -/
def State.boundBoxes (s : State) (tag : Nat) : Nat :=
  maskOf ((List.range Config.mailboxes).filter fun m => (s.box m).bound = some tag)

/-- The response of PITCH_QUERY for one pitch (R327). -/
def State.pitchInfo (s : State) (p : Pitch) : Bytes :=
  le 2 p.tag ++ le 1 p.st.code ++ le 1 (if p.strict then 2 else 0) ++ le 4 p.localDies ++
  le 2 (p.firstLdie s.fab.moduleId) ++ le 2 p.dieCount ++ p.shares.flatMap (le 1) ++ le 8 (s.boundBoxes p.tag) ++ s.configDigest p

/-- The list form (R327), ascending in tag. -/
def State.pitchList (s : State) : Bytes :=
  (sortBy (fun (a b : Pitch) => a.tag ≤ b.tag) s.pitches).flatMap fun p => le 2 p.tag ++ le 1 p.st.code

/-- The tag that a request names: a pitch mailbox must give 0xFFFF and names its own pitch; `none` where it does not. -/
def namedTag (r : Request) (tag : Nat) : Option Nat :=
  if r.mailbox = 0 then some tag else if tag = noTag then some r.tag else none

/-- PITCH_QUERY 0x0106. -/
def execPitchQuery (seq : Nat) (s : State) : Host.Outcome State Fault Refusal :=
  .next (s.onOperator seq 0x0106 fun r =>
    if !restZero r.body 2 then s.respond seq stBadCommand []
    else match namedTag r (u16 r.body 0) with
      | none => s.respond seq stBadCommand []
      | some tag =>
        if tag = noTag then s.respond seq stOk s.pitchList
        else s.onNamed seq tag fun p => s.respond seq stOk (s.pitchInfo p))

/-- Local counts of a minute (R330). -/
def minuteCounts : Nat := 1500000000

/-- A minute that has ended enters the 1,440 kept, and its counts start anew (R330, R331). -/
def Pitch.closeMinute (p : Pitch) (m : Nat) : Pitch :=
  let l := p.meterMinutes ++ [(m, p.meterNow)]
  { p with meterMinutes := l.drop (l.length - 1440), meterNow := List.replicate 8 0 }

/-- METER_MINUTE: minute m ends as the local counter reaches the next minute's start (R330). -/
def execMeterMinute (s : State) : Host.Outcome State Fault Refusal :=
  .next (
    if s.now != 0 && s.now % minuteCounts = 0 then
      let m := s.now / minuteCounts - 1
      s.setPitches (s.pitches.map fun p => if p.meterMinutes.any fun x => x.1 = m then p else p.closeMinute m)
    else s)

/-- PITCH_METER_READ 0x0107. Where no minute is held yet, the oldest minute held is open. -/
def execPitchMeterRead (seq : Nat) (s : State) : Host.Outcome State Fault Refusal :=
  .next (s.onOperator seq 0x0107 fun r =>
    let b := r.body
    if !zeroRange b 2 6 || !restZero b 20 || u32 b 16 < 1 || 48 < u32 b 16 then s.respond seq stBadCommand []
    else match namedTag r (u16 b 0) with
      | none => s.respond seq stBadCommand []
      | some tag => s.onNamed seq tag fun p =>
        let recs := (p.meterMinutes.filter fun x => u64 b 8 ≤ x.1).take (u32 b 16)
        let oldest := p.meterMinutes.head?.elim (s.openBytes 8) fun x => le 8 x.1
        s.draw.respond seq stOk (le 8 (s.now / minuteCounts) ++ oldest ++ le 4 recs.length ++ le 4 0 ++ p.totals ++
          recs.flatMap fun x => meterRecord x.1 x.2))

/-! ### Attestation (R332, R333) -/

/-- The fields of a quote that come from its pitch, bytes 76 to 135; for a module quote they are open. -/
def State.quotePitch (s : State) : Option Pitch → Bytes
  | some p => le 1 p.st.code ++ le 3 0 ++ le 4 p.localDies ++ le 2 (p.firstLdie s.fab.moduleId) ++ le 2 p.dieCount ++ s.configDigest p
  | none => (s.openBytes 60).take 1 ++ le 3 0 ++ (s.openBytes 60).drop 4

/-- The 256 signed bytes of a quote (R333). -/
def State.quoteBody (s : State) (p : Option Pitch) (nonce : Bytes) : Bytes :=
  le 4 0x51545101 ++ le 4 352 ++ slice s.fw.measurement 0 48 ++ s.eeprom.serial ++ le 2 s.fab.moduleId ++
  le 2 (p.elim noTag (·.tag)) ++ s.quotePitch p ++ nonce ++ le 8 s.now ++ le 8 s.ring.quotes ++ le 40 0

/-- A signed quote, the signature a free value of the key, the digest and the draw. -/
def State.signQuote (s : State) (seq : Nat) (p : Option Pitch) (nonce : Bytes) : State :=
  let q := s.quoteBody p nonce
  let sig := slice (Config.signature (s.fw.attestKey.getD 0) (sha384 q) s.free) 0 96
  ((s.setRing { s.ring with quotes := s.ring.quotes + 1 }).draw).respond seq stOk (q ++ sig)

/-- ATTEST_QUOTE 0x0703. Four earlier quotes that are not answered yet make it BUSY, and so does a FAILED pitch (R335). -/
def execAttestQuote (seq : Nat) (s : State) : Host.Outcome State Fault Refusal :=
  .next (s.onOperator seq 0x0703 fun r =>
    if !restZero r.body 66 then s.respond seq stBadCommand []
    else match namedTag r (u16 r.body 64) with
      | none => s.respond seq stBadCommand []
      | some tag =>
        if 4 ≤ (s.ring.journal.filter fun x => x.command = 0x0703 && x.seq < seq).length then s.respond seq stBusy []
        else if tag = noTag then s.signQuote seq none (slice r.body 0 64)
        else s.onNamed seq tag fun p =>
          if p.st = .failed then s.respond seq stBusy [] else s.signQuote seq (some p) (slice r.body 0 64))

end Sys2Proof.Machine
end

