-- ==== Sys2Proof/Machine/Mailboxes.lean ====
section
/-! DEFINITION. Mailboxes (R370 to R376), the acceptance of requests (R376 to R382) and the Ringmaster's take-over (R367 to
R369). -/

namespace Sys2Proof.Machine

open Sys2Proof

/-! ### MSG frames (R372) -/

/-- The mailbox that a MSG frame addresses: DEST[5:0], with DEST[47:6] zero. -/
def msgBox (f : Frame) : Option Nat := if f.dest % 2 ^ 48 < 64 then some (f.dest % 2 ^ 48) else none

/-- A status register (R371): RSP_VALID and REQ_HELD, REFUSED, OUTSTANDING and REFUSALS. -/
def State.boxStatus (s : State) (m : Nat) : Nat :=
  let b := s.box m
  (if m = 0 && s.mbx0.rsp != [] then 1 else 0) + (if b.submitted.isSome || b.assembly.isSome then 2 else 0) +
  (if b.refused then 4 else 0) + 8 * min b.outstanding 64 + 65536 * b.refusals

/-- A STATUS frame in answer to a MSG frame. -/
def State.sendStatus (s : State) (f : Frame) (status : Nat) : State :=
  s.toAdapter f.srcModule f.srcPort f.hchan f.htag f.tag (msgPayload (parseMsg f).requestId 4 0 1 (le 4 status ++ le 4 0))

/-- Mailboxes 1 to 63 are served (R387, R392, R410). -/
def State.boxesServe (s : State) : Bool := s.kpr.mod = .ready

/-- What a frame's stamps make of a message (R319, R375). -/
def submissionOf (f : Frame) (bytes : Bytes) : Submission :=
  { srcPort := f.srcPort, hchan := f.hchan, tag := f.tag, srcModule := f.srcModule, htag := f.htag, bytes := bytes
    viaHost := f.srcKind = 0 && f.srcPort != 0xFF }

/-- An assembly with one more segment; the stamps are those of segment 0. -/
def Assembly.add (a : Assembly) (f : Frame) (w : MsgWord) (now : Nat) : Assembly :=
  { a with segs := insertKey a.segs w.seg (w.data.take 240), lastAt := now, first := if w.seg = 0 then submissionOf f [] else a.first }

/-- The message of a complete assembly: segment s stands at byte 240s. What stands there after a segment that is shorter and not
the last is not given: free bytes. -/
def Assembly.message (a : Assembly) (free : Nat → Bytes) : Submission :=
  { a.first with bytes := a.segs.flatMap fun x => if x.1 + 1 = a.nseg then x.2 else x.2 ++ free (240 - x.2.length) }

/-- A request is submitted: it stands in its mailbox's buffer, behind every submission that is complete (R372, R379). -/
def State.submitTo (s : State) (m : Nat) (x : Submission) : State :=
  (s.updBox m fun b => { b with assembly := none, submitted := some x }).setRing { s.ring with order := s.ring.order ++ [m] }

/-- A header-only response to a request that is not accepted (R373, R376). -/
def State.refuseRequest (s : State) (m : Nat) (x : Submission) (status : Nat) : State :=
  let f := u16 x.bytes 2
  s.deliver m x.srcModule x.srcPort x.hchan x.htag (u64 x.bytes 8)
    (header (u16 x.bytes 0) (1 + if bit f 2 then 4 else 0) 0 (u64 x.bytes 8) x.srcPort x.hchan x.tag m status x.srcModule 0) false

/-- The stamp of a refused request as event data (R319). -/
def Submission.stamp (x : Submission) (m : Nat) : Nat := x.srcPort + 256 * x.hchan + 65536 * m + 2 ^ 24 * x.srcModule

/-- The mailbox takes requests with this stamp: it is bound, and they came through a HOST channel with its tag (R319). -/
def Mailbox.admits (b : Mailbox) (x : Submission) : Bool := b.bound = some x.tag && x.viaHost

/-- A request that the mailbox does not take: NOT_PERMITTED, and an event with the stamp (R319). -/
def State.turnAway (s : State) (m : Nat) (x : Submission) : State :=
  (s.refuseRequest m x stNotPermitted).logFact 5 "MAILBOX_REFUSED" none noDie x.tag (x.stamp m)

/-- A REQ_SEG frame at a mailbox (R372, R382). A segment that does not come with the mailbox's stamp joins no assembly: the
first segment of such a request is answered as R319 says, and its others are discarded. Bytes 11 to 15 of the MSG word are
reserved and no part of the message, and no rule says what other values there do: the model ignores them
(notes/assumptions/60.md). -/
def State.segment (s : State) (m : Nat) (f : Frame) (w : MsgWord) : State :=
  let b := s.box m
  if w.nseg < 1 || 18 < w.nseg || w.nseg ≤ w.seg then s
  else if !b.admits (submissionOf f []) then (if w.seg = 0 then s.turnAway m (submissionOf f w.data) else s)
  else if b.window.any fun e => e.requestId = w.requestId then
    if w.seg != 0 then s
    else if b.submitted.isNone then (s.submitTo m (submissionOf f w.data)).updBox m fun x => { x with assembly := b.assembly }
    else s.sendStatus f (s.boxStatus m ||| 4)
  else if b.submitted.isSome || b.assembly.any fun a => a.requestId != w.requestId then s.sendStatus f (s.boxStatus m ||| 4)
  else
    let a := (b.assembly.getD ⟨w.requestId, w.nseg, [], s.now, submissionOf f []⟩)
    if a.nseg != w.nseg then s
    else
      let a := a.add f w s.now
      if a.segs.length = a.nseg then (s.submitTo m (a.message s.openBytes)).draw
      else s.updBox m fun b => { b with assembly := some a }

/-- A MSG frame that reaches its mailbox; other kinds are discarded. A module that discards frames for its own dies takes none
(R354, R361). -/
def State.mailboxFrame (s : State) (f : Frame) : State :=
  if s.deaf then s
  else match msgBox f with
  | none => s
  | some m =>
    let w := parseMsg f
    if m = 0 || !s.boxesServe then s
    else if w.kind = 1 then s.segment m f w
    else if w.kind = 3 then s.sendStatus f (s.boxStatus m)
    else s

/-- MSG_SEGMENT_RECEIVE (R372). -/
def execMsgSegmentReceive (frame : Frame) (s : State) : Host.Outcome State Fault Refusal :=
  .next (if frame.typ = 4 && (parseMsg frame).kind = 1 then s.mailboxFrame frame else s)

/-- MSG_STATUS_READ (R372). -/
def execMsgStatusRead (frame : Frame) (s : State) : Host.Outcome State Fault Refusal :=
  .next (if frame.typ = 4 && (parseMsg frame).kind = 3 then s.mailboxFrame frame else s)

/-! ### Firmware messages (R314, R321, R392) -/

/-- The commands that a message carries: PITCH_SUSPEND, PITCH_RESUME and PITCH_RELEASE. -/
def messageCommand (c : Nat) : Bool := c = 0x0102 || c = 0x0104 || c = 0x0105

/-- The sender may act on a pitch or a lending set of this module: it is another member of the pitch, or the lending set's home
module (R314, R321). -/
def State.messageFrom (s : State) (module tag : Nat) : Bool :=
  (s.pitch? tag).elim false (fun p => p.members.any fun m => m.1 = module) ||
  s.lends.any fun l => l.tag = tag && l.homeModule = module

/-- A message that asks for a part of a command: it joins the journal as a request of the Ringmaster's own, behind no mailbox. -/
def State.takeMessage (s : State) (f : Frame) (w : MsgWord) : State :=
  let body := slice w.data 64 (u32 w.data 4)
  if messageCommand (u16 w.data 0) && s.messageFrom f.srcModule (u16 body 0) then
    s.setRing { s.ring with
      messages := s.ring.messages + 1
      journal := s.ring.journal ++ [{
        seq := messageSeq + s.ring.messages, mailbox := messageBox, command := u16 w.data 0, fence := false
        requestId := w.requestId, srcPort := 0xFF, hchan := 0, tag := noTag, srcModule := f.srcModule, htag := 0, body := body
        released := true, acceptedAt := s.now }] }
  else s

/-- A member's answer to the command that a pitch coordinates (R321). -/
def State.takeAnswer (s : State) (f : Frame) (w : MsgWord) : State :=
  s.setPitches (s.pitches.map fun p =>
    if p.busyWith = some w.requestId && w.requestId < messageSeq && p.members.any (fun m => m.1 = f.srcModule) then
      { p with answers := insertKey p.answers f.srcModule (u16 w.data 22) }
    else p)

/-- A firmware message at the Ringmaster. -/
def State.message (s : State) (f : Frame) : State :=
  let w := parseMsg f
  if !s.boxesServe then s
  else if w.kind = 1 then s.takeMessage f w
  else if w.kind = 2 then s.takeAnswer f w
  else s

/-- MSG_ASSEMBLY_TIMEOUT: no segment for 100 ms (R372). -/
def execMsgAssemblyTimeout (mailbox : Nat) (s : State) : Host.Outcome State Fault Refusal :=
  .next (
    if (s.box mailbox).assembly.elim false fun a => due a.lastAt 2500000 s.now then
      s.updBox mailbox fun b => { b with assembly := none }
    else s)

/-! ### Acceptance (R376 to R382) -/

/-- The catalogue (R378): which mailboxes may send a command, 0 mailbox 0 only, 1 pitch mailboxes only, 2 either. -/
def catalogue (c : Nat) : Option Nat :=
  if [0x0101, 0x0102, 0x0103, 0x0104, 0x0105, 0x0601, 0x0602, 0x0603, 0x0604, 0x0701, 0x0702, 0x0801, 0x0802, 0x0803, 0x0804,
      0x0901].contains c then some 0
  else if [0x0106, 0x0107, 0x0703, 0x0704, 0x0902, 0x0903].contains c then some 2
  else if (0x0201 ≤ c && c ≤ 0x0205) || (0x0301 ≤ c && c ≤ 0x0307) || (0x0401 ≤ c && c ≤ 0x0405) ||
      (0x0501 ≤ c && c ≤ 0x0504) then some 1
  else none

/-- Step 1 of R376: the response fields and the reserved bits of the header are zero, and LENGTH is within bounds. -/
def headerOk (b : Bytes) : Bool :=
  (u16 b 2 = 0 || u16 b 2 = 4) && u16 b 22 = 0 && u64 b 32 = 0 && u8 b 21 = 0 && zeroRange b 26 6 && zeroRange b 40 24 &&
  u32 b 4 ≤ 4032 && 64 + u32 b 4 ≤ b.length

/-- What mailbox 0 admits in each module state (R376, R387, R410). -/
def operatorAdmits (mod : ModSt) (command op : Nat) : Bool :=
  match mod with
  | .booting => false
  | .ready => true
  | .recovery => command = 0x0701 || command = 0x0702 || command = 0x0704
  | .keeperOnly => [0x0902, 0x0903, 0x0106, 0x0107, 0x0102].contains command || (command = 0x0901 && (op = 0 || op = 7))

/-- What a pitch mailbox admits in each state of its pitch (R323, R325, R335). -/
def pitchAdmits (st : PitchSt) (command : Nat) : Bool :=
  match st with
  | .active => true
  | .suspending | .suspended | .resuming => [0x0106, 0x0107, 0x0703, 0x0503].contains command
  | .releasing => false
  | .failed => command = 0x0106 || command = 0x0107

/-- The status of the checks of R376 that a submission fails, if any. -/
def State.checkSubmission (s : State) (m : Nat) (x : Submission) : Option Nat :=
  let c := u16 x.bytes 0
  if !headerOk x.bytes then some stBadCommand
  else match catalogue c with
    | none => some stBadCommand
    | some who =>
      if (m = 0 && who = 1) || (m != 0 && who = 0) then some stNotPermitted
      else if m = 0 then (if operatorAdmits s.kpr.mod c (u8 x.bytes 68) then none else some stBusy)
      else if (s.pitch? x.tag).elim true fun p => pitchAdmits p.st c then none else some stBusy

/-- The request that a submission makes, with the next acceptance number (R379, R380). -/
def State.requestOf (s : State) (m : Nat) (x : Submission) : Request :=
  let fence := bit (u16 x.bytes 2) 2
  { seq := s.ring.acceptNext, mailbox := m, command := u16 x.bytes 0, fence := fence, requestId := u64 x.bytes 8
    srcPort := x.srcPort, hchan := x.hchan, tag := x.tag, srcModule := x.srcModule, htag := x.htag
    body := slice x.bytes 64 (u32 x.bytes 4), released := !fence || !s.boxPending m, acceptedAt := s.now }

/-- A request accepted: its acceptance number, its journal and window entries, one more outstanding (R373, R379, R381). -/
def State.accept (s : State) (m : Nat) (x : Submission) : State :=
  let r := s.requestOf m x
  let s := s.setRing { s.ring with acceptNext := s.ring.acceptNext + 1, journal := s.ring.journal ++ [r] }
  s.updBox m fun b =>
    { b with outstanding := b.outstanding + 1, refused := false, window := b.window ++ [⟨r.requestId, none, []⟩] }

/-- A duplicate of a request in the window (R382). -/
def State.duplicate (s : State) (m : Nat) (x : Submission) (e : WinEntry) : State :=
  match e.done with
  | some d => s.deliver m x.srcModule x.srcPort x.hchan x.htag e.requestId (asDuplicate d.1) false
  | none => s.updBox m fun b =>
    { b with window := b.window.map fun y =>
        if y.requestId = e.requestId then { y with dups := y.dups ++ [(x.srcModule, x.srcPort, x.hchan, x.htag)] } else y }

/-- A submission above 64 outstanding commands (R373). -/
def State.queueFull (s : State) (m : Nat) (x : Submission) : State :=
  let s := s.updBox m fun b => { b with refused := true, refusals := satInc b.refusals 0xFFFF }
  if m = 0 then s else s.refuseRequest m x stQueueFull

/-- A submitted request meets the checks of R376 in order. -/
def State.meetChecks (s : State) (m : Nat) (x : Submission) : State :=
  let b := s.box m
  if m != 0 && !s.boxesServe then s
  else if m != 0 && !b.admits x then s.turnAway m x
  else match b.window.find? fun e => e.requestId = u64 x.bytes 8 with
    | some e => s.duplicate m x e
    | none =>
      if 64 ≤ b.outstanding then s.queueFull m x
      else match s.checkSubmission m x with
        | some e => s.refuseRequest m x e
        | none => s.accept m x

/-- The submission of a mailbox leaves its buffer and is checked. -/
def State.submitBox (s : State) (m : Nat) : State :=
  match (s.box m).submitted with
  | none => s
  | some x =>
    ((s.updBox m fun b => { b with submitted := none }).setRing { s.ring with order := s.ring.order.erase m }).meetChecks m x

/-- No submission of another mailbox was complete before this mailbox's (R379). -/
def State.firstInLine (s : State) (m : Nat) : Bool := s.ring.order.head?.all (· = m)

/-- REQUEST_SUBMIT: requests are accepted one at a time in the order in which their submissions completed; while the Ringmaster
is held they wait (R368, R379, R389). -/
def execRequestSubmit (mailbox : Nat) (s : State) : Host.Outcome State Fault Refusal :=
  .next (if s.ring.holding || !s.firstInLine mailbox then s else s.submitBox mailbox)

/-- Held submissions are accepted in the order in which they came (R368, R389). -/
def State.releaseHeld (s : State) : State :=
  let l := s.ring.order
  l.foldl State.submitBox (s.setRing { s.ring with holding := false })

/-- FENCE_RELEASE: every earlier request of the mailbox has responded (R380). -/
def execFenceRelease (seq : Nat) (s : State) : Host.Outcome State Fault Refusal :=
  .next (match s.ring.journal.find? fun r => r.seq = seq with
    | none => s
    | some r =>
      if s.ring.journal.any fun x => x.mailbox = r.mailbox && x.seq < seq then s
      else s.setRing { s.ring with journal := s.ring.journal.map fun x => if x.seq = seq then { x with released := true } else x })

/-- REPLAY_ENTRY_EXPIRE: 10 s after its response a DONE entry leaves the window (R381). -/
def execReplayEntryExpire (mailbox requestId : Nat) (s : State) : Host.Outcome State Fault Refusal :=
  .next (s.updBox mailbox fun b =>
    { b with window := b.window.filter fun e =>
        !(e.requestId = requestId && e.done.elim false fun d => due d.2 250000000 s.now) })

/-! ### The Ringmaster complex (R367 to R369) -/

/-- A standby exists that follows the journal: not fenced, and not under test (R369, R422). -/
def State.hasStandby (s : State) : Bool :=
  s.ring.standby && (s.die (pairDie (1 - s.ring.primary))).test.elim true fun t => t.target != 4

/-- Every instance homed here notes a take-over as a cause of RESTRICTED (R221). -/
def State.boothCause (s : State) (c : Nat) : State :=
  s.setPitches (s.pitches.map fun p =>
    { p with models := p.models.map fun m => { m with booth := { m.booth with causes := m.booth.causes ++ [c] } } })

/-- Steps 3 and 4 of a hand-over (R389): the new image runs, with a new attestation key, under the former standby. -/
def State.completeHandover (s : State) (h : Handover) (fault : Bool) : State :=
  let old := s.fw.measurement
  let s := s.setFw { s.fw with
    running := some h.image, runningBytes := h.bytes, measurement := h.image.measurement, attestKey := some s.free
    handover := none, control := s.fw.writingControl, flashCode := 1, rewrite := some (h.bytes, h.raiseSvn) }
  let s := s.setRing { s.ring with
    primary := 1 - s.ring.primary, standby := !fault, fenced := if fault then some s.ring.primary else s.ring.fenced
    beats := s.ring.beats.set s.ring.primary s.now }
  s.draw.respond h.seq stOk old

/-- The service tasks go on on the cores that are left, and every instance notes the take-over (R221, R368). -/
def State.servicesMove (s : State) : State := (s.boothCause 2).rehome

/-- A fault of the primary pair (R368, R369, R392): the standby takes over, or the module enters keeper-only mode. -/
def State.primaryFault (s : State) : State :=
  if !s.hasStandby then s.keeperOnly 0
  else
    let hold := fun (s : State) => s.setRing { s.ring with holding := true, takeoverAt := some s.now }
    let swap := fun (s : State) => hold (s.setRing { s.ring with
      primary := 1 - s.ring.primary, standby := false, fenced := some s.ring.primary })
    match s.fw.handover with
    | some h =>
      if h.ready then (hold (s.completeHandover h true)).servicesMove
      else ((swap (s.setFw { s.fw with handover := none })).servicesMove).respond h.seq stBusy []
    | none => (swap s).servicesMove

/-- The Ringmaster runs. A fault of the new primary during a take-over meets no standby (R369). -/
def State.ringRuns (s : State) : Bool := s.ring.started

/-- RINGMASTER_TAKEOVER: the primary pair is faulty (R368). -/
def execRingmasterTakeover (s : State) : Host.Outcome State Fault Refusal :=
  .next (if s.ringRuns then s.primaryFault else s)

/-- The pair runs: it is the primary, or the standby. -/
def State.pairRuns (s : State) (pair : Nat) : Bool := pair < 2 && (s.ring.primary = pair || s.ring.standby)

/-- HEARTBEAT_TIMEOUT: no heartbeat for 10 ms makes a pair faulty (R368), so none does within 10 ms of its start; a faulty standby
is fenced. -/
def execHeartbeatTimeout (pair : Nat) (s : State) : Host.Outcome State Fault Refusal :=
  .next (
    if !s.ringRuns || !s.pairRuns pair || !due (s.ring.beats.getD pair 0) 250000 s.now then s
    else if s.ring.primary = pair then s.primaryFault
    else ((s.setRing { s.ring with standby := false, fenced := some pair }).rehome).logNote 5 "NO_STANDBY" none noDie noTag pair)

/-- SERVICE_CORE_FAULT: the core's tasks restart on another service core from their journaled state (R368). -/
def execServiceCoreFault (core : Nat) (s : State) : Host.Outcome State Fault Refusal :=
  .next (if core < 16 then (s.setRing { s.ring with deadCores := insertNat s.ring.deadCores core }).rehome else s)

/-- TAKEOVER_RESUME: 30 ms after the take-over, held requests are accepted, the alert is raised, and the fenced pair's test
begins, or waits for the window of R420 and for a test on its die (R368, R369); given again, it begins a test that waits. -/
def execTakeoverResume (s : State) : Host.Outcome State Fault Refusal :=
  .next (match s.ring.takeoverAt with
    | none => s.ring.fenced.elim s fun f => s.dueTest (pairDie f)
    | some t =>
      if !due t 750000 s.now then s
      else
        let s := (s.setRing { s.ring with takeoverAt := none }).releaseHeld
        let s := s.logNote 5 "TAKEOVER" (some 2) noDie noTag s.ring.primary
        match s.ring.fenced with
        | some f => (s.setRing { s.ring with testDue := true }).dueTest (pairDie f)
        | none => s)

end Sys2Proof.Machine
end

