-- ==== Sys2Proof/Machine/Fabric.lean ====
section
/-! DEFINITION. Mutik ports, links and the fabric (R336 to R366): link retry and credits, routing, end-to-end delivery, the
bridge, HELLO and the four operator commands. -/

namespace Sys2Proof.Machine

open Sys2Proof

/-! ### Frames and classes (R342 to R345) -/

/-- The adaptive channel of a type's class; the escape channel is the next one (R344). -/
def adaptiveVc (typ : Nat) : Option Nat :=
  if typ = 4 then some 0
  else if 1 ≤ typ && typ ≤ 3 then some 2
  else if 6 ≤ typ && typ ≤ 8 then some 4
  else if typ = 5 then some 6
  else none

/-- a follows b (R346). -/
def follows (a b : Nat) : Bool := let d := (a + 2 ^ 32 - b) % 2 ^ 32; 1 ≤ d && d < 2 ^ 31

/-- Offset of a die's control window, where queue q has page q (R163, notes/assumptions/60.md). -/
def dieControl : Nat := 2 ^ 41

/-! ### Port states (R339 to R341) -/

/-- A carrying port goes to DETECT, with an informational event (R340). -/
def State.portDown (s : State) (port : Nat) : State :=
  (s.updPort port fun p => { p with st := .detect, activeLanes := 0, spareInUse := false, mismatch := false, x4Pending := false }).logNote
    4 "PORT_DOWN" (some 0) (portDie port) noTag port

/-- PORT_DOWN: loss of signal or alignment (R340). -/
def execPortDown (port : Nat) (s : State) : Host.Outcome State Fault Refusal :=
  .next (if (s.port port).carrying then s.portDown port else s)

/-- The HELLO that this side sends on a port (R355). -/
def State.hello (s : State) (port : Nat) : Hello :=
  { serial := s.eeprom.serial, module := s.fab.moduleId, assigned := s.fab.assigned, port := port, adapter := false
    changes := (s.port port).changes, ack := (s.port port).lastIn }

/-- A HELLO sent on a port. -/
def State.sendHello (s : State) (port : Nat) : State :=
  (s.send (.hello port (s.hello port))).updPort port fun p => { p with lastHello := s.now }

/-- A HELLO sent on every port that is in TRAIN or carries (R355). -/
def State.sendHellos (s : State) (ok : Port → Bool) : State :=
  (List.range Config.ports).foldl (fun s i =>
    if ((s.port i).carrying || (s.port i).st = .train) && ok (s.port i) then s.sendHello i else s) s

/-- HELLO_TIMER: every 10 ms (R355). -/
def execHelloTimer (s : State) : Host.Outcome State Fault Refusal :=
  .next (s.sendHellos fun p => due p.lastHello 250000 s.now)

/-- The neighbour does not match the port: its expectation, or the kind of neighbour that its side of the host-facing set
calls for (R356). -/
def Port.mismatched (p : Port) (hostFacing : Bool) : Bool :=
  p.peer.elim false fun h =>
    if hostFacing then !h.adapter
    else h.adapter || (p.expectValid && (!h.assigned || h.module != p.expectModule ||
      (p.expectPort != 0xFF && h.port != p.expectPort)))

/-- A carrying port held or let up by its expectation (R356). -/
def State.checkPeer (s : State) (port : Nat) : State :=
  let p := s.port port
  let bad := p.mismatched (s.hostFacing port)
  if !p.carrying then s
  else if bad && p.st != .held then
    (s.updPort port fun p => { p with st := .held, mismatch := true }).logNote 4 "PORT_HELD" none (portDie port) noTag port
  else if !bad && p.st = .held then
    (s.updPort port fun p => { p with st := if p.activeLanes = 4 then .upX4 else .up, mismatch := false }).flushHost port
  else s.flushHost port

/-- Frames that an ACK covers leave the replay buffer. -/
def Port.acked (p : Port) (a : Nat) : Port :=
  let l := p.replay.filter fun f => follows f.lseq a
  if l.length = p.replay.length then p else { p with replay := l, failCount := 0 }

/-- The ACK of a frame that has come on a trained port (R346). -/
def State.takeAck (s : State) (port a : Nat) : State :=
  if (s.port port).carrying then (s.updPort port fun p => p.acked a).flushHost port else s

/-- HELLO_RECEIVE (R355, R356). -/
def execHelloReceive (port : Nat) (hello : Hello) (s : State) : Host.Outcome State Fault Refusal :=
  .next (
    if (s.port port).carrying || (s.port port).st = .train then
      ((s.takeAck port hello.ack).updPort port fun p => { p with peer := some hello, helloSeen := true }).checkPeer port
    else s)

/-- PORT_SIGNAL_DETECT: signal on at least 8 lanes puts the port into TRAIN, in which each side sends HELLO (R339, R355). -/
def execPortSignalDetect (port lanes : Nat) (s : State) : Host.Outcome State Fault Refusal :=
  .next (
    if (s.port port).st = .detect && 8 ≤ lanes then
      (s.updPort port fun p =>
        { p with st := .train, trainAt := s.now, trainTries := satInc p.trainTries 0xFFFFFFFF, laneFailed := 0, spareGood := true
                 helloSeen := false }.noted 4).sendHello port
    else s)

/-- A port as TRAIN leaves it: 8 lanes, link counts from 0, every credit back (R345, R346). -/
def Port.trained (p : Port) (hello : Hello) : Port :=
  { p with
    st := .up, activeLanes := 8, spareInUse := false, peer := some hello, helloSeen := true, txLseq := 0, rxLseq := 0
    failLseq := 0, failCount := 0, lastNak := none, credGranted := List.replicate 8 2048, credUsed := List.replicate 8 0
    credFreed := List.replicate 8 2048, credTold := List.replicate 8 2048 }

/-- What no ACK covers goes back into the router of the port's die, in LSEQ order (R347); out of a host-facing port, which is no
route's alternate, it waits for the port (R358, DESIGN CHOICE, notes/assumptions/42.md). -/
def State.takeBack (s : State) (port : Nat) : State :=
  if s.hostFacing port then
    s.updPort port fun p => { p with replay := [], hostOut := p.replay.map (fun f => (f.vc, f)) ++ p.hostOut }
  else
  let ws := (s.port port).replay.map fun f => (⟨f, f.vc % 2 = 1, s.now, none, true⟩ : Waiting)
  (s.updPort port fun p => { p with replay := [] }).updDie (portDie port) fun d => { d with router := d.router ++ ws }

/-- PORT_TRAIN_DONE: training and the HELLO exchange complete (R339, R356). Frames of the time before TRAIN that are not taken back
yet are taken back first (R347). -/
def execPortTrainDone (port : Nat) (hello : Hello) (s : State) : Host.Outcome State Fault Refusal :=
  .next (
    if (s.port port).st = .train then
      ((s.takeBack port).updPort port fun p => p.trained hello).checkPeer port
    else s)

/-- PORT_TRAIN_TIMEOUT: 2 s without success (R339). -/
def execPortTrainTimeout (port : Nat) (s : State) : Host.Outcome State Fault Refusal :=
  .next (
    if (s.port port).st = .train && due (s.port port).trainAt 50000000 s.now then
      s.updPort port fun p => { p with st := .detect }
    else s)

/-- The spare lane takes a failed lane's place, and the other end is told (R341). -/
def State.swapSpare (s : State) (port lane : Nat) : State :=
  (s.updPort port fun p => { p with spareInUse := true, spareGood := false, laneFailed := p.laneFailed ||| (1#9 <<< lane) }).control
    port (.laneMap lane)

/-- A lane of a port has failed (R341): the spare takes its place, or the failure is a second one. -/
def State.failLane (s : State) (port lane : Nat) : State :=
  let p := s.port port
  let mark := fun (s : State) => s.updPort port fun p => { p with laneFailed := p.laneFailed ||| (1#9 <<< lane) }
  if !p.carrying || 8 < lane || p.laneFailed.getLsbD lane then s
  else if p.st = .upX4 then (mark s).portDown port
  else if lane = 8 && !p.spareInUse then (mark s).updPort port fun p => { p with spareGood := false }
  else if p.spareGood then s.swapSpare port lane
  else if p.allowX4 && !p.x4Pending then (mark s).updPort port fun p => { p with x4Pending := true }
  else (mark s).portDown port

/-- LANE_FAIL (R341). -/
def execLaneFail (port lane : Nat) (s : State) : Host.Outcome State Fault Refusal := .next (s.failLane port lane)

/-- X4_RETRAIN_DONE: the 4 best lanes are trained (R341). -/
def execX4RetrainDone (port : Nat) (s : State) : Host.Outcome State Fault Refusal :=
  .next (
    if (s.port port).x4Pending && (s.port port).carrying then
      s.updPort port fun p =>
        { p with st := if p.st = .held then .held else .upX4, activeLanes := 4, spareInUse := false, x4Pending := false }
    else s)

/-! ### Sending and link retry (R345, R346) -/

/-- A NAK(n): every frame from LSEQ n on goes again, in order. -/
def State.resend (s : State) (port n : Nat) : State :=
  let p := s.port port
  let s := s.updPort port fun p =>
    { p with replays := satInc p.replays 0xFFFFFFFF, failLseq := n
             failCount := if p.failLseq = n then p.failCount + 1 else 1 }.noted 3
  (p.replay.filter fun f => f.lseq = n || follows f.lseq n).foldl (fun s f => s.onLink port f) s

/-- NAK_RECEIVE (R346). -/
def execNakReceive (port n : Nat) (s : State) : Host.Outcome State Fault Refusal :=
  .next (if (s.port port).traffic then s.resend port n else s)

/-- REPLAY_LIMIT: 16 consecutive replays of one LSEQ failed (R346). -/
def execReplayLimit (port : Nat) (s : State) : Host.Outcome State Fault Refusal :=
  .next (if (s.port port).carrying && 16 ≤ (s.port port).failCount then s.portDown port else s)

/-- Cumulative counts with the newer ones of a LINK_CTRL frame. -/
def newer (old new : List Nat) : List Nat :=
  List.zipWith (fun a b => if follows b a then b else a) old (new ++ old.drop new.length)

/-- LINK_CTRL_RECEIVE: its ACK, and credit counts, a NAK, or a lane map (R341, R345, R346). The other end's map of a failed active lane makes this
end do the same and send its own map back; a HELD port has no frame to send again (R339). -/
def execLinkCtrlReceive (port : Nat) (ctrl : LinkCtrl) (s : State) : Host.Outcome State Fault Refusal :=
  .next (
    if !(s.port port).carrying then s
    else
      let s := s.takeAck port ctrl.ack
      match ctrl.item with
      | .credits counts => (s.updPort port fun p => { p with credGranted := newer p.credGranted counts }).flushHost port
      | .nak n => if (s.port port).traffic then s.resend port n else s
      | .laneMap lane => if lane < 8 then s.failLane port lane else s)

/-- CREDIT_RETURN_TIMER: credits that the receiver has to return go out as cumulative counts (R345). -/
def execCreditReturnTimer (port : Nat) (s : State) : Host.Outcome State Fault Refusal :=
  .next (
    if (s.port port).carrying && (s.port port).credFreed != (s.port port).credTold then s.tellCredits port else s)

/-- The credits of a frame's receive buffer are free again. -/
def State.freeCredits (s : State) (w : Waiting) : State :=
  w.inPort.elim s fun x => s.updPort x.1 fun p =>
    { p with credFreed := p.credFreed.modify x.2 fun c => (c + frameCredits w.frame) % 2 ^ 32 }

/-! ### End-to-end transactions (R352, R353) -/

/-- A host transaction is over: its channel's stamped count and its port's open writes, and for a read the READ_DATA out of
the origin port (R318, R358, R359). A write that failed holds later ones back no longer (DESIGN CHOICE,
notes/assumptions/64.md). -/
def State.hostDone (s : State) (t : Txn) (status : Nat) (data : Bytes) : State :=
  let f := t.frame
  if f.srcPort = 0xFF then s
  else
    let s := s.updPort f.srcPort fun p =>
      { p with stamped := p.stamped.modify f.hchan (· - 1), openWrites := p.openWrites.filter (· != f.txn)
               heldWrites := p.heldWrites.map fun h => { h with after := h.after.filter (· != f.txn) } }
    if f.typ = 2 then
      s.sendHost f.srcPort f.hchan
        { typ := 7, vc := f.hchan, hchan := f.hchan, len := data.length, tag := f.tag, status := status, srcModule := s.fab.moduleId
          srcDie := portDie f.srcPort, htag := f.htag, payload := data }
    else s

/-- The release message to a lender has an outcome (R314, R392). -/
def State.lenderHeard (s : State) (f : Frame) (lost : Bool) : State :=
  s.updPitch f.tag fun p =>
    if f.typ = 4 && p.lenders.contains (f.dest / 2 ^ 48) then
      { p with lenders := p.lenders.erase (f.dest / 2 ^ 48), lenderLost := p.lenderLost || lost }
    else p

/-- A transaction of a work item has its response: what it read is there, or the item fails (R352). -/
def State.itemHeard (s : State) (k : ItemKey) (t : Txn) (status : Nat) (data : Bytes) : State :=
  if status != stOk then s.failItem k status
  else if t.frame.typ = 2 then s.setMem (memWrite s.mem (data.zipIdx.map fun x => (foreignKey t.frame + x.2, x.1)))
  else s

/-- The end of a transaction at its source, with a response or without (R352). -/
def State.outcome (s : State) (t : Txn) (status : Nat) (data : Bytes) (lost : Bool) : State :=
  match t.owner with
  | some k => s.itemHeard k t status data
  | none => if t.frame.srcKind = 1 then s.lenderHeard t.frame lost else s.hostDone t status data

/-- A response at its source die: the transaction with its TXN completes; a response without one is discarded. -/
def State.completeTxn (s : State) (die : Nat) (f : Frame) : State :=
  match (s.die die).txns.find? fun t => t.frame.txn = f.txn with
  | none => s
  | some t => (s.endTxn die f.txn).outcome t f.status f.payload false

/-- A response frame at a die (R352): a COLL_DOWN also has its effect on its collective (R343). -/
def State.response (s : State) (die : Nat) (f : Frame) : State :=
  (if f.typ = 8 then s.collDown f else s).completeTxn die f

/-- E2E_RESPONSE_RECEIVE (R352). -/
def execE2eResponseReceive (die : Nat) (frame : Frame) (s : State) : Host.Outcome State Fault Refusal :=
  .next (if 6 ≤ frame.typ && frame.typ ≤ 8 && !s.deaf then s.response die frame else s)

/-- The response to a request frame. -/
def State.responseTo (s : State) (die : Nat) (f : Frame) (typ status : Nat) (data : Bytes) : Frame :=
  { typ := typ, hchan := f.hchan, len := data.length, tag := f.tag, status := status, dest := f.srcModule * 2 ^ 48 + f.srcDie * 2 ^ 43
    srcModule := s.fab.moduleId, srcDie := die, txn := f.txn, htag := f.htag, payload := data }

/-- A response on its way: it enters the router of its die (R351). -/
def State.respondFrame (s : State) (die : Nat) (g : Frame) : State := s.toRouter die ⟨g, false, s.now, none, false⟩

/-- E2E_RESEND_TIMER: no response within the current interval; no copy goes later than 2 s after the first (R352). -/
def execE2eResendTimer (die txn : Nat) (s : State) : Host.Outcome State Fault Refusal :=
  .next (match (s.die die).txns.find? fun t => t.frame.txn = txn with
    | none => s
    | some t =>
      if due t.lastSent t.interval s.now && due s.now 0 (t.firstSent + 50000000) then
        (s.updDie die fun d =>
          { d with txns := d.txns.map fun x =>
              if x.frame.txn = txn then { x with lastSent := s.now, interval := min (2 * x.interval) 6400000 } else x }).toRouter
          die ⟨t.frame, false, s.now, none, false⟩
      else s)

/-- E2E_TRANSACTION_FAIL: no response within 3.6 s of the first send (R352). -/
def execE2eTransactionFail (die txn : Nat) (s : State) : Host.Outcome State Fault Refusal :=
  .next (match (s.die die).txns.find? fun t => t.frame.txn = txn with
    | none => s
    | some t =>
      if due t.firstSent 90000000 s.now then (s.endTxn die txn).outcome t stUncorrectable [] true else s)

/-- What a destination die keeps for a source die. -/
def Die.source? (d : Die) (f : Frame) : Option SourceState :=
  d.sources.find? fun x => x.srcModule = f.srcModule && x.srcDie = f.srcDie

/-- A frame from a further source waits while 16,384 are kept. -/
def Die.sourceRoom (d : Die) (f : Frame) : Bool := (d.source? f).isSome || d.sources.length < 16384

/-- An outcome stored for a source: the last 4,096. -/
def Die.remember (d : Die) (f g : Frame) (now : Nat) : Die :=
  let o := (d.source? f).elim [] (·.outcomes) ++ [(f.txn, g)]
  { d with sources := (d.sources.filter fun x => !(x.srcModule = f.srcModule && x.srcDie = f.srcDie)) ++
      [⟨f.srcModule, f.srcDie, now, o.drop (o.length - 4096)⟩] }

/-- A source has sent a frame. -/
def Die.seen (d : Die) (f : Frame) (now : Nat) : Die :=
  if (d.source? f).isNone then { d with sources := d.sources ++ [⟨f.srcModule, f.srcDie, now, []⟩] }
  else
    { d with sources := d.sources.map fun x =>
        if x.srcModule = f.srcModule && x.srcDie = f.srcDie then { x with lastSeen := now } else x }

/-- SOURCE_STATE_IDLE: 4 s without a frame of the source (R353). -/
def execSourceStateIdle (die srcModule srcDie : Nat) (s : State) : Host.Outcome State Fault Refusal :=
  .next (s.updDie die fun d =>
    { d with sources := d.sources.filter fun x =>
        !(x.srcModule = srcModule && x.srcDie = srcDie && due x.lastSeen 100000000 s.now) })

/-! ### Delivery at a die (R163, R320, R353, R358) -/

/-- The tag check of R320. A lending die takes no frame that a HOST port stamped: it does not come from a spoil engine. -/
def State.tagOk (s : State) (die : Nat) (f : Frame) : Bool :=
  f.srcKind = 1 || f.srcKind = 2 || s.dieTag? die = some f.tag ||
  (s.dieLend? die).elim false fun l => l.tag = f.tag && l.homeModule = f.srcModule && f.srcPort = 0xFF

/-- A frame discarded at a die under R320: counted on the die, and on the port of this module that it came in on, with an event. -/
def State.rejectFrame (s : State) (die : Nat) (f : Frame) (inPort : Option Nat) : State :=
  let s := inPort.elim (s.updDie die fun d => { d with foreign := d.foreign + 1 })
    (s.updDie die fun d => { d with foreign := d.foreign + 1 }).countDiscard
  s.logNote 6 "TAG_CHECK" none die f.tag f.dest

/-- The suspended pitch refuses a host access to SRAM windows and control pages (R323). -/
def State.suspendRefuses (s : State) (f : Frame) : Bool :=
  f.pitchAddr && f.srcPort != 0xFF && (s.pitch? f.tag).elim false fun p =>
    (p.st = .suspending || p.st = .suspended || p.st = .resuming) &&
    (kindAt s p (f.dest % 2 ^ 48) = some .sram || kindAt s p (f.dest % 2 ^ 48) = some .control)

/-- The place of an offset in a die's space (R163): a byte of memory, or of a queue's control page. Which of the window's pages a
queue has is not stated: the model takes the queue number as its index (notes/assumptions/60.md). -/
def dieLoc (die off : Nat) : Option Loc :=
  if off < 16 * Config.partitionBytes then some (.cell .dram (localKey die off))
  else if 2 ^ 40 ≤ off && off < 2 ^ 40 + 16 * Config.sramBytes then some (.cell .sram (localKey die off))
  else if dieControl ≤ off && off < dieControl + 0x80000 then some (.ctrl ((off - dieControl) / 4096) (off % 4096))
  else none

/-- The control page of a queue lies in the space of the die: the queue is open and homed there (R163). -/
def State.homedOn (s : State) (die tag q : Nat) : Bool :=
  (s.pitch? tag).elim false fun p => (p.queue? q).elim false fun x =>
    (p.ldie x.homeLdie).elim false fun e => e.module = s.fab.moduleId && e.die = die

/-- The pitch address of a byte of a partition's pitch-visible part, for its TOUCHED bit (R172). -/
def touchAddr (module : Nat) (p : Pitch) (die off : Nat) : Option Nat :=
  let c := off / Config.partitionBytes
  let o := off % Config.partitionBytes
  if 16 * Config.partitionBytes ≤ off || Config.windowBytes ≤ o then none
  else ((List.range p.lmap.length).find? fun l => p.lmap[l]? = some ⟨module, die, c⟩ &&
      (match p.pagesOf l with
      | none => true
      | some t => t.any fun x => x.1 = l && x.2.2 = o / Config.pageBytes)).map fun l =>
    l * 2 ^ 32 + (match p.pagesOf l with
      | none => o
      | some t => ((t.find? fun x => x.1 = l && x.2.2 = o / Config.pageBytes).elim 0 (·.2.1)) * Config.pageBytes +
          o % Config.pageBytes)

/-- A write that reaches the reserved area of a die where the saved context of a SUSPENDED pitch stands (R164, R322). -/
def State.noteContext (s : State) (die off n : Nat) : State :=
  match (s.dieTag? die).bind s.pitch? with
  | none => s
  | some p =>
    if p.st = .suspended && (List.range n).any fun i =>
        Config.windowBytes ≤ (off + i) % Config.partitionBytes && (off + i) < 16 * Config.partitionBytes &&
          Config.holdsContext p.tag (unitOf (localKey die (off + i))).1 then
      s.updPitch p.tag fun p => { p with contextWritten := true }
    else s

/-- What a write has done to the memory of a die's pitch: its pages that it reaches are TOUCHED, from whatever source it comes
(R172), and guarded memory that it reaches is undefined (R190, R272). -/
def State.touchDie (s : State) (die off n : Nat) : State :=
  match (s.dieTag? die).bind s.pitch? with
  | none => s
  | some p =>
    let as := (List.range n).filterMap fun i => touchAddr s.fab.moduleId p die (off + i)
    (s.updPitch p.tag fun p => p.touch as).spoilAddrs p.tag none as

/-- A write at a fabric address of a die. -/
def State.writeDie (s : State) (die tag off : Nat) (b : Bytes) : Except Nat State :=
  match dieLoc die off with
  | some (.cell _ k) =>
    match s.writeCells (b.zipIdx.map fun x => (k + x.2, x.1)) with
    | .error e => .error e
    | .ok s => .ok ((s.noteContext die off b.length).touchDie die off b.length)
  | some (.ctrl q o) => if s.homedOn die tag q then .ok (s.writePage tag q o b) else .error stOutOfRange
  | none => .error stOutOfRange

/-- A read at a fabric address of a die. -/
def State.readDie (s : State) (die tag off n : Nat) : Except Nat Bytes :=
  mapE (fun i => match dieLoc die (off + i) with
    | none => (.error stOutOfRange : Except Nat Byte)
    | some l =>
      if s.locBad l then .error stUncorrectable
      else match l with
        | .cell _ k => .ok (memGet s.mem k)
        | .ctrl q o =>
          if s.homedOn die tag q then .ok ((((s.pitch? tag).bind fun p => p.queue? q).elim [] controlPage).getD o 0)
          else .error stOutOfRange) (List.range n)

/-- A WRITE at its address; guarded memory that it reaches becomes undefined. -/
def State.frameWrite (s : State) (die : Nat) (f : Frame) : Except Nat State :=
  if f.pitchAddr then
    (pitchWriteAll s f.tag (f.dest % 2 ^ 48) f.payload).map fun s =>
      s.spoilGuarded f.tag none (f.dest % 2 ^ 48) (f.dest % 2 ^ 48 + f.payload.length)
  else s.writeDie die f.tag (f.dest % 2 ^ 43) f.payload

/-- A READ at its address. -/
def State.frameRead (s : State) (die : Nat) (f : Frame) : Except Nat Bytes :=
  if f.pitchAddr then (s.pitch? f.tag).elim (.error stOutOfRange) fun p => readBytes s p (f.dest % 2 ^ 48) f.len
  else s.readDie die f.tag (f.dest % 2 ^ 43) f.len

/-- An ATOMIC at the pitch's counters (R150, R343); its 16 bytes hold the operation, 0 ADD or 1 SET, the counter number at
offset 2 and the value at offset 8 (notes/assumptions/40.md). -/
def State.frameAtomic (s : State) (f : Frame) : State :=
  let n := u16 f.payload 2
  let v := u64 f.payload 8
  if Config.counters ≤ n then s
  else s.updPitch f.tag fun p => p.setCounter n
    (if u8 f.payload 0 = 1 then ⟨v, false, false⟩ else { p.counter n with value := min ((p.counter n).value + v) (2 ^ 64 - 1) })

/-- An uncorrectable unit met outside every pitch's window, by a read or by the read that merges a partial write, is reported with an
ALERT (R177). -/
def State.noteOperator (s : State) (die : Nat) (f : Frame) (e : Nat) : State :=
  if e = stUncorrectable && !f.pitchAddr && ((s.dieTag? die).bind s.pitch?).elim true (fun p =>
      (touchAddr s.fab.moduleId p die (f.dest % 2 ^ 43)).isNone && f.dest % 2 ^ 43 < 2 ^ 40) then
    s.logNote 3 "UNCORRECTABLE_OPERATOR" (some 2) die noTag (f.dest % 2 ^ 43)
  else s

/-! ### Host window (R360) -/

/-- The frame goes to the host window of a die (R163). -/
def hostWindow (f : Frame) : Bool := !f.pitchAddr && f.typ != 4 && f.typ < 6 && 2 ^ 42 ≤ f.dest % 2 ^ 43

/-- The host-facing ports of the bridge with a channel bound to a tag, ascending. -/
def State.hostPortsOf (s : State) (tag : Nat) : List Nat :=
  (List.range Config.ports).filter fun i => s.hostFacing i && (s.port i).roles.contains (.host tag)

/-- The port that a frame to the host window leaves through (R360). -/
def State.windowPort (s : State) (f : Frame) : Option Nat :=
  (s.hostPortsOf f.tag)[f.dest % 2 ^ 42 / 4096 % (s.hostPortsOf f.tag).length]?

/-- A frame to the host window leaves through its port, on the channel bound to its pitch, or it is refused (R360): the state after
it and its STATUS. -/
def State.egress (s : State) (die : Nat) (f : Frame) : State × Nat :=
  match s.windowPort f with
  | none => (s.logNote 6 "HOST_WINDOW" none die f.tag (f.dest % 2 ^ 42), stNotPermitted)
  | some port =>
    let vc := (s.port port).roles.idxOf (.host f.tag)
    (s.sendHost port vc { f with vc := vc }, stOk)

/-! ### Requests at a die (R343, R353, R358) -/

/-- A WRITE executed for the first time. -/
def State.executeWrite (s : State) (die : Nat) (f : Frame) : State × Nat :=
  match s.frameWrite die f with
  | .ok t => (t, stOk)
  | .error e =>
    (if e = stOutOfRange then s.logNote 6 "HOST_WRITE_REFUSED" none die f.tag f.dest else s.noteOperator die f e, e)

/-- A MSG frame of firmware: toward the adapter of a HOST port of this bridge, or a message to the Ringmaster (R321, R372). -/
def State.executeMessage (s : State) (f : Frame) : State :=
  if f.srcPort < Config.ports then s.sendHost f.srcPort f.hchan { f with vc := f.hchan } else s.message f

/-- A request executed for the first time: the state after it and its STATUS. -/
def State.executeFrame (s : State) (die : Nat) (f : Frame) : State × Nat :=
  if hostWindow f then s.egress die f
  else if f.typ = 1 then s.executeWrite die f
  else if f.typ = 3 then (s.frameAtomic f, stOk)
  else if f.typ = 4 then (s.executeMessage f, stOk)
  else (s.collUp die f, stOk)

/-- The port that a local bridge die's frame came in on, for its discard count. -/
def State.ownPort (s : State) (f : Frame) (inPort : Option Nat) : Option Nat :=
  if f.srcModule = s.fab.moduleId && f.srcPort < 72 then some f.srcPort else inPort

/-- A MSG frame of a reserved KIND is counted, on its port if it came in through one of this module (R372). -/
def State.countKind (s : State) (f : Frame) (inPort : Option Nat) : State :=
  if 1 ≤ (parseMsg f).kind && (parseMsg f).kind ≤ 4 then s
  else inPort.elim (s.setRing { s.ring with badKinds := s.ring.badKinds + 1 }) s.countDiscard

/-- Where the first die of a pitch forwards a frame with a pitch address (R358): the fabric address of its bytes where they stand
together in one die's space; `none` where the first die itself serves it, as for spoil regions. -/
def State.forwardDest (s : State) (f : Frame) : Option Nat :=
  if !f.pitchAddr || 3 ≤ f.typ then none
  else (s.pitch? f.tag).bind fun p =>
    let a := f.dest % 2 ^ 48
    let n := if f.typ = 2 then f.len else f.payload.length
    match translate s p a with
    | some (.cell w k) =>
      if w != .spoil && k < 2 ^ 80 && (List.range n).all fun i => translate s p (a + i) = some (.cell w (k + i)) then
        some (if k < 2 ^ 48 then s.fab.moduleId * 2 ^ 48 + k else k - 2 ^ 48)
      else none
    | some (.ctrl q o) => (p.queue? q).bind fun x => (p.ldie x.homeLdie).map fun e =>
        e.module * 2 ^ 48 + e.die * 2 ^ 43 + dieControl + 4096 * q + o
    | none => none

/-- A READ served at a die: it is executed however often it comes (R353). A READ of the host window is answered only where no port
qualifies. -/
def State.serveRead (s : State) (die : Nat) (f : Frame) : State :=
  let s := s.updDie die fun d => d.seen f s.now
  if hostWindow f then
    let r := s.egress die f
    if r.2 = stOk then r.1 else r.1.respondFrame die (r.1.responseTo die f 7 r.2 [])
  else match s.frameRead die f with
    | .ok b => s.respondFrame die (s.responseTo die f 7 stOk b)
    | .error e => (s.noteOperator die f e).respondFrame die (s.responseTo die f 7 e [])

/-- A WRITE, ATOMIC, COLL_UP or firmware message served at a die: executed once, and answered each time (R353). -/
def State.serveOnce (s : State) (die : Nat) (f : Frame) : State :=
  match ((s.die die).source? f).bind fun x => x.outcomes.find? fun o => o.1 = f.txn with
  | some o => (s.updDie die fun d => d.seen f s.now).respondFrame die o.2
  | none =>
    let r := s.executeFrame die f
    let g := r.1.responseTo die f 6 r.2 []
    (r.1.updDie die fun d => d.remember f g s.now).respondFrame die g

/-- A MSG of a mailbox: passed on however often it comes, and answered (R352, R353, R372). -/
def State.serveMsg (s : State) (die : Nat) (f : Frame) (inPort : Option Nat) : State :=
  let s := ((s.updDie die fun d => d.seen f s.now).mailboxFrame f).countKind f (s.ownPort f inPort)
  s.respondFrame die (s.responseTo die f 6 stOk [])

/-- A request frame at its destination die (R320, R353, R354, R358, R361). -/
def State.deliverFrame (s : State) (die : Nat) (f : Frame) (inPort : Option Nat) : State :=
  if s.deaf then s
  else if f.typ = 4 && f.srcKind != 1 then s.serveMsg die f inPort
  else if f.typ != 4 && !hostWindow f && (!s.tagOk die f || s.suspendRefuses f) then s.rejectFrame die f (s.ownPort f inPort)
  else match (s.forwardDest f).filter fun d => d / 2 ^ 43 != s.fab.moduleId * 32 + die with
    | some d => s.toRouter die ⟨{ f with pitchAddr := false, dest := d }, false, s.now, none, false⟩
    | none => if f.typ = 2 then s.serveRead die f else s.serveOnce die f

/-- Two frames of one host port to one module (R359), the first sent before the second. -/
def precedes (g f : Frame) : Bool :=
  g.ordered && f.ordered && g.srcPort != 0xFF && g.srcModule = f.srcModule && g.srcDie = f.srcDie && g.srcPort = f.srcPort &&
  g.dest / 2 ^ 48 = f.dest / 2 ^ 48 && isRequest g.typ && isRequest f.typ && follows f.txn g.txn

/-- An earlier frame of the same ordered flow is still in a router of this module, or in the replay buffer of a port that went down
(R171, R347, R359). -/
def State.overtakes (s : State) (f : Frame) : Bool :=
  s.dies.any (fun d => d.router.any fun w => precedes w.frame f) ||
  s.ports.any fun p => !p.carrying && p.replay.any fun g => precedes g f

/-- E2E_FRAME_DELIVER (R353). -/
def execE2eFrameDeliver (die : Nat) (frame : Frame) (s : State) : Host.Outcome State Fault Refusal :=
  .next (
    if isRequest frame.typ && (s.die die).sourceRoom frame && !s.overtakes frame then s.deliverFrame die frame none else s)

/-- HOST_WINDOW_EGRESS (R360). -/
def execHostWindowEgress (die : Nat) (frame : Frame) (s : State) : Host.Outcome State Fault Refusal :=
  .next (
    if isRequest frame.typ && hostWindow frame && (s.die die).sourceRoom frame then s.deliverFrame die frame none else s)

/-! ### Routing (R348 to R351) -/

/-- The ports of the VALID alternates of a destination module, with their index. -/
def State.alternates (s : State) (die module : Nat) : List (Nat × Nat) :=
  (((lookupD (s.die die).routes module []).zipIdx).filter fun x => x.1.testBit 7).map fun x => (x.2, x.1 % 128)

/-- An alternate is live for a channel (R349). -/
def State.live (s : State) (port vc : Nat) : Bool :=
  (s.port port).traffic && !s.hostFacing port && (s.port port).roles.getD vc .off = .fabric

/-- The one with the most free credits, ties to the lower index. -/
def mostCredits (s : State) (vc : Nat) : List (Nat × Nat) → Option (Nat × Nat)
  | [] => none
  | x :: l => match mostCredits s vc l with
    | none => some x
    | some y => some (if (s.port y.2).credits vc ≤ (s.port x.2).credits vc then x else y)

/-- The next hop of a frame, port and channel; `none` while it waits. -/
def State.nextHop (s : State) (die : Nat) (w : Waiting) : Option (Nat × Nat) :=
  let f := w.frame
  let alts := s.alternates die (f.dest / 2 ^ 48)
  (adaptiveVc f.typ).bind fun vc =>
    let esc := vc + 1
    if f.ordered || w.escape then
      match alts.find? fun x => s.live x.2 esc with
      | some x => if s.takes x.2 esc f then some (x.2, esc) else none
      | none => none
    else match mostCredits s vc (alts.filter fun x => s.live x.2 vc && s.takes x.2 vc f) with
      | some x => some (x.2, vc)
      | none => match alts.find? fun x => x.1 = 0 && s.live x.2 esc && s.takes x.2 esc f with
        | some x => some (x.2, esc)
        | none => none

/-- The die that a frame addressed to this module goes to: the die of its host port, the Ringmaster's, the first die of the pitch, or
that of its fabric address. -/
def State.localDie (s : State) (f : Frame) : Option Nat :=
  if f.typ = 4 then some (if f.srcKind = 1 && f.srcPort < Config.ports then portDie f.srcPort else s.ringDie)
  else if f.pitchAddr then ((s.pitch? f.tag).bind fun p => p.dies.head?).or (some 0)
  else if hostWindow f && (s.windowPort f).isSome then (s.windowPort f).map portDie
  else if f.dest / 2 ^ 43 % 32 < 24 then some (f.dest / 2 ^ 43 % 32) else none

/-- The frame is for this module. -/
def State.isLocal (s : State) (f : Frame) : Bool := s.fab.assigned && f.dest / 2 ^ 48 = s.fab.moduleId

/-- An ordered flow whose first live alternate has changed: a frame of it that its source has not sent yet waits for those that it
has sent (R349). -/
def State.flowWaits (s : State) (f : Frame) (port : Nat) : Bool :=
  f.ordered && f.srcModule = s.fab.moduleId &&
  ((s.die f.srcDie).txns.any fun t => t.frame.txn = f.txn && t.outPort.isNone) && (s.die f.srcDie).txns.any fun t =>
    t.frame.ordered && t.frame.txn != f.txn && t.frame.srcPort = f.srcPort && t.frame.dest / 2 ^ 48 = f.dest / 2 ^ 48 &&
    t.outPort.elim false (· != port)

/-- A frame leaves a router. -/
def State.takeFrame (s : State) (die index : Nat) (w : Waiting) : State :=
  (s.updDie die fun d => { d with router := d.router.eraseIdx index }).freeCredits w

/-- A frame sent to the next module: HOPS counts down unless the frame was taken back. -/
def State.sendOn (s : State) (die index : Nat) (w : Waiting) (port vc : Nat) : State :=
  let s := (s.takeFrame die index w).transmit port vc { w.frame with hops := if w.again then w.frame.hops else w.frame.hops - 1 }
  if w.frame.srcModule = s.fab.moduleId && isRequest w.frame.typ then
    s.updDie w.frame.srcDie fun d =>
      { d with txns := d.txns.map fun t => if t.frame.txn = w.frame.txn then { t with outPort := some port } else t }
  else s

/-- A frame at its own module: a response to its source die, or a request to its die. -/
def State.arrive (s : State) (die index : Nat) (w : Waiting) : State :=
  let f := w.frame
  match s.localDie f with
  | none => s
  | some d =>
    if s.deaf then s.takeFrame die index w
    else if 6 ≤ f.typ then (s.takeFrame die index w).response d f
    else if !(s.die d).sourceRoom f then s
    else (s.takeFrame die index w).deliverFrame d f (w.inPort.map (·.1))

/-- The neighbour of a die on the way to another: along the row to the column, and then along the column (R14, R351). The grid has
4 rows of 6 dies. -/
def haulNext (die target : Nat) : Nat :=
  if die % 6 < target % 6 then die + 1
  else if target % 6 < die % 6 then die - 1
  else if die / 6 < target / 6 then die + 6
  else die - 6

/-- A frame crosses one haul road, to the router of the next die. Its receive buffer is free, and it stays counted under the port it
came in on; 8 names no channel. -/
def State.haul (s : State) (die index : Nat) (w : Waiting) (target : Nat) : State :=
  (s.takeFrame die index w).toRouter (haulNext die target) { w with since := s.now, inPort := w.inPort.map fun x => (x.1, 8) }

/-- A die number that R163 reserves. -/
def reservedDie (f : Frame) : Bool := f.typ != 4 && !f.pitchAddr && 24 ≤ f.dest / 2 ^ 43 % 32

/-- ROUTE_FRAME (R349, R351): the frame goes to its own die or to the die of its port by haul roads, one at a time, and there it
arrives or leaves. -/
def execRouteFrame (die index : Nat) (s : State) : Host.Outcome State Fault Refusal :=
  .next (match (s.die die).router[index]? with
    | none => s
    | some w =>
      if w.frame.hops = 0 || reservedDie w.frame || s.overtakes w.frame then s
      else if s.isLocal w.frame then
        match s.localDie w.frame with
        | none => s
        | some d => if d = die then s.arrive die index w else s.haul die index w d
      else match s.nextHop die w with
        | none => s
        | some (port, vc) =>
          if s.flowWaits w.frame port then s
          else if portDie port = die then s.sendOn die index w port vc
          else s.haul die index w (portDie port))

/-- The conditions of R351 under which a frame is discarded, and a reserved die number (R163). -/
def State.routingFault (s : State) (die : Nat) (w : Waiting) : Bool :=
  w.frame.hops = 0 || reservedDie w.frame || due w.since 1250000 s.now ||
  (!s.isLocal w.frame && s.alternates die (w.frame.dest / 2 ^ 48) = [])

/-- ROUTING_FAULT_DISCARD (R351). -/
def execRoutingFaultDiscard (die index : Nat) (s : State) : Host.Outcome State Fault Refusal :=
  .next (match (s.die die).router[index]? with
    | none => s
    | some w =>
      if s.routingFault die w then
        let s := s.takeFrame die index w
        (s.setFab { s.fab with routingFaults := s.fab.routingFaults + 1 }).logNote 4 "ROUTING_FAULT" none die noTag w.frame.dest
      else s)

/-- REPLAY_TAKEBACK: the router takes back what no ACK covers, in LSEQ order (R347). -/
def execReplayTakeback (port : Nat) (s : State) : Host.Outcome State Fault Refusal :=
  .next (if (s.port port).carrying then s else s.takeBack port)

/-! ### Ingress (R316, R346, R358, R359) -/

/-- The control-page region of pitch addresses. -/
def isControlWrite (f : Frame) : Bool := f.typ = 1 && controlBase ≤ f.dest % 2 ^ 48 && f.dest % 2 ^ 48 < controlBase + 0x80000

/-- A host frame as the bridge stamps it. -/
def State.stampFrame (s : State) (port vc tag : Nat) (f : Frame) : Frame :=
  { f with ordered := true, hchan := vc, tag := tag, srcKind := 0, hops := 32, status := 0, srcModule := s.fab.moduleId
           srcDie := portDie port, srcPort := port }

/-- A stamped frame sent: a write is open on its port until it is acknowledged. -/
def State.launch (s : State) (port : Nat) (f : Frame) : State :=
  let txn := (s.die (portDie port)).nextTxn
  let s := s.originate (portDie port) f none
  if f.typ = 1 then s.updPort port fun p => { p with openWrites := p.openWrites ++ [txn] } else s

/-- The bridge die can take one more request. -/
def State.bridgeRoom (s : State) (port : Nat) : Bool := (s.die (portDie port)).txnRoom

/-- The oldest held frame of a port sent; the held control-page writes behind it wait for it if it is a write (R359). -/
def State.launchHead (s : State) (port : Nat) (f : Frame) : State :=
  let txn := (s.die (portDie port)).nextTxn
  (s.updPort port fun p =>
    { p with heldWrites := (p.heldWrites.drop 1).map fun x =>
        if f.typ = 1 && isControlWrite x.frame then { x with after := x.after ++ [txn] } else x }).launch port f

/-- The frames that arrived behind a held control-page write follow it, up to the next one (R171). -/
def State.drainHeld (port : Nat) : List HeldWrite → State → State
  | [], s => s
  | h :: l, s => if isControlWrite h.frame || !s.bridgeRoom port then s else State.drainHeld port l (s.launchHead port h.frame)

/-- A host adapter's frame on a channel (R316, R358). A control-page write is held behind the earlier writes, and a frame behind a
held one (R171, R359). A module without a module ID originates no frame (R354). -/
def State.ingress (s : State) (port vc : Nat) (f : Frame) : State :=
  match (s.port port).roles.getD vc .off with
  | .host tag =>
    if !([1, 2, 4].contains f.typ && f.pitchAddr) then s.countDiscard port
    else if !s.fab.assigned then s
    else
      let g := s.stampFrame port vc tag f
      let s := (s.updPort port fun p => { p with stamped := p.stamped.modify vc (· + 1) }).meterHost tag f.payload.length
      let p := s.port port
      if p.heldWrites != [] || (isControlWrite g && p.openWrites != []) then
        s.updPort port fun p => { p with heldWrites := p.heldWrites ++ [⟨g, if isControlWrite g then p.openWrites else []⟩] }
      else s.launch port g
  | _ => s.countDiscard port

/-- HOST_INGRESS (R358): a further transaction waits while 4,096 are outstanding (R352). -/
def execHostIngress (port vc : Nat) (frame : Frame) (s : State) : Host.Outcome State Fault Refusal :=
  .next (if (s.port port).traffic && s.hostFacing port && s.bridgeRoom port then s.ingress port vc frame else s)

/-- CONTROL_PAGE_WRITE_RELEASE (R359): the oldest held write goes once every earlier write of the port is acknowledged, and what
was held only for the order follows it. -/
def execControlPageWriteRelease (port : Nat) (s : State) : Host.Outcome State Fault Refusal :=
  .next (match (s.port port).heldWrites with
    | [] => s
    | h :: rest =>
      if h.after = [] && s.bridgeRoom port then State.drainHeld port rest (s.launchHead port h.frame) else s)

/-- A NAK of the expected LSEQ, at most once per µs (R346). -/
def State.sendNak (s : State) (port : Nat) : State :=
  let p := s.port port
  if p.lastNak.elim true fun t => t + 25 ≤ s.now then
    (s.updPort port fun p => { p with lastNak := some s.now }).control port (.nak p.rxLseq)
  else s

/-- A frame accepted on the link: into the router, to the bridge's ingress, or discarded with its credits free (R316, R343). -/
def State.acceptFrame (s : State) (port : Nat) (f : Frame) : State :=
  let s := s.updPort port fun p => { p with rxLseq := (p.rxLseq + 1) % 2 ^ 32 }
  let w : Waiting := ⟨f, f.vc % 2 = 1, s.now, some (port, f.vc), false⟩
  if s.hostFacing port then (s.ingress port f.vc f).freeCredits w
  else if (adaptiveVc f.typ).isNone || (s.port port).roles.getD f.vc .off != .fabric then (s.countDiscard port).freeCredits w
  else s.toRouter (portDie port) w

/-- What the FEC of a port did for a frame's codewords counts (R444). -/
def Port.fec (p : Port) (f : LinkFrame) : Port :=
  let p := if f.corrected = 0 then p else { p with fecCorr := min (p.fecCorr + f.corrected) 0xFFFFFFFF }.noted 0
  if f.uncorrectable = 0 then p else { p with fecUncorr := min (p.fecUncorr + f.uncorrectable) 0xFFFFFFFF }.noted 1

/-- A frame with a good CRC and its LSEQ (R346): the next expected one is accepted; a duplicate is discarded and acknowledged;
anything else makes a NAK. Of a link-local frame only its ACK is taken here (HELLO_RECEIVE, LINK_CTRL_RECEIVE). -/
def State.receive (s : State) (port : Nat) (f : Frame) : State :=
  let s := s.takeAck port f.ack
  let p := s.port port
  if linkLocal f.typ then s
  else if f.lseq = p.rxLseq then (if s.hostFacing port && !s.bridgeRoom port then s else s.acceptFrame port f)
  else if follows p.rxLseq f.lseq then s.tellCredits port
  else s.sendNak port

/-- LINK_FRAME_RECEIVE (R346). -/
def execLinkFrameReceive (port : Nat) (frame : LinkFrame) (s : State) : Host.Outcome State Fault Refusal :=
  .next (
    if !(s.port port).traffic then s
    else
      let s := s.updPort port fun p => p.fec frame
      if frameGood frame.frame then s.receive port frame.frame
      else (s.updPort port fun p => { p with crcErr := satInc p.crcErr 0xFFFFFFFF }.noted 2).sendNak port)

/-! ### Operator commands (R362 to R365) -/

/-- Port state codes (R362). -/
def PortSt.code : PortSt → Nat
  | .disabled => 0 | .detect => 1 | .train => 2 | .up => 3 | .upX4 => 4 | .held => 5 | .test => 6

/-- The fields of a FAB_PORT_SET body are acceptable. -/
def portSetOk (b : Bytes) : Bool :=
  (u8 b 0 ≤ 71 || u8 b 0 = 0xFF) && u8 b 1 ≤ 2 && u8 b 2 ≤ 1 && u8 b 3 ≤ 3 && (u8 b 6 ≤ 71 || u8 b 6 = 0xFF) && restZero b 7

/-- An instruction that drives pins (R457). -/
def drivesPins (t : TapInstr) : Bool :=
  match t with
  | .extest | .extestPulse | .extestTrain | .clamp | .highz => true
  | .bypass | .idcode | .samplePreload => false

/-- The TAP drives pins: such an instruction takes effect only while every port is DISABLED and no pitch or lending set
exists (R457). -/
def State.tapDrives (s : State) : Bool :=
  drivesPins s.tap && s.ports.all (fun p => p.st = .disabled) && s.pitches = [] && s.lends = []

/-- The instruction in effect at the test access port (R457). -/
def State.tapEffect (s : State) : TapInstr := if drivesPins s.tap && !s.tapDrives then .bypass else s.tap

/-- A port with the mode that FAB_PORT_SET gives it. -/
def State.setMode (s : State) (port mode : Nat) : State :=
  let s := if mode != 1 && (s.port port).carrying then s.portDown port else s
  s.updPort port fun p =>
    { p with st := if mode = 0 then .disabled else if mode = 2 then .test
               else if p.st = .disabled || p.st = .test then .detect else p.st }

/-- One port set (R356, R362). -/
def State.setPort (s : State) (b : Bytes) (port : Nat) : State :=
  let s := s.updPort port fun p =>
    { p with medium := u8 b 2, expectValid := bit (u8 b 3) 0, allowX4 := bit (u8 b 3) 1, expectModule := u16 b 4
             expectPort := u8 b 6 }
  (s.setMode port (u8 b 1)).checkPeer port

/-- The addressed ports, ascending. -/
def addressedPorts (b : Bytes) : List Nat := if u8 b 0 = 0xFF then List.range Config.ports else [u8 b 0]

/-- FAB_PORT_SET 0x0601. -/
def execFabPortSet (seq : Nat) (s : State) : Host.Outcome State Fault Refusal :=
  .next (s.onOperator seq 0x0601 fun r =>
    let b := r.body
    if !portSetOk b then s.respond seq stBadCommand []
    else if s.tapDrives && u8 b 1 != 0 then s.respond seq stBusy []
    else
      let s := (addressedPorts b).foldl (fun s i => s.setPort b i) s
      s.respond seq stOk ((addressedPorts b).flatMap fun i =>
        let p := s.port i
        le 1 p.st.code ++ le 1 p.activeLanes ++ le 1 p.spareInUse.toNat ++ le 1 0))

/-- The fields and entries of a FAB_ROUTE_SET body are acceptable (R348, R363). -/
def routeSetOk (b : Bytes) : Bool :=
  let n := u16 b 6
  u32 b 0 < 2 ^ 24 && u8 b 4 ≤ 1 && u8 b 5 = 0 && n ≤ 1000 && u16 b 8 + n ≤ 65536 && zeroRange b 10 6 &&
  (u8 b 4 = 0 || (n = 0 && u16 b 8 = 0 && restZero b 16)) &&
  (List.range (4 * n)).all fun i => let x := u8 b (16 + i); x < 128 || x % 128 ≤ 71

/-- The table of a die with entries written from FIRST_MODULE on; an entry without a VALID alternate is empty. -/
def setRoutes (first : Nat) (entries : List (List Nat)) (routes : List (Nat × List Nat)) : List (Nat × List Nat) :=
  entries.zipIdx.foldl (fun t x =>
    if x.1.any (128 ≤ ·) then insertKey t (first + x.2) x.1 else t.filter fun y => y.1 != first + x.2) routes

/-- FAB_ROUTE_SET 0x0602. -/
def execFabRouteSet (seq : Nat) (s : State) : Host.Outcome State Fault Refusal :=
  .next (s.onOperator seq 0x0602 fun r =>
    let b := r.body
    if !routeSetOk b then s.respond seq stBadCommand []
    else
      let es := (records b 16 4 (u16 b 6)).map fun e => (List.range 4).map (u8 e)
      ((maskBits (u32 b 0) 24).foldl (fun s d => s.updDie d fun d =>
        { d with routes := if u8 b 4 = 1 then [] else setRoutes (u16 b 8) es d.routes }) s).respond seq stOk [])

/-- The neighbour table (R364). -/
def State.discovery (s : State) : Bytes :=
  le 2 s.fab.moduleId ++ le 1 s.fab.assigned.toNat ++ le 5 0 ++ slice s.eeprom.serial 0 16 ++
  s.ports.flatMap fun p =>
    let h := p.peer.getD ⟨List.replicate 16 0, 0xFFFF, false, 0x7F, false, 0, 0⟩
    le 1 p.st.code ++ le 1 p.activeLanes ++ le 1 h.port ++
    le 1 (h.assigned.toNat + 2 * p.mismatch.toNat + 4 * p.spareInUse.toNat + 8 * h.adapter.toNat) ++ le 2 h.module ++
    le 2 h.changes ++ slice h.serial 0 16

/-- FAB_DISCOVER QUERY. -/
def execFabDiscoverQuery (seq : Nat) (s : State) : Host.Outcome State Fault Refusal :=
  .next (s.onOperatorOp seq 0x0603 0 3 0 fun r =>
    if !restZero r.body 1 then s.respond seq stBadCommand [] else s.respond seq stOk s.discovery)

/-- FAB_DISCOVER SET_ID: the ID holds on every die, and a HELLO goes out on every carrying port (R354). -/
def execFabDiscoverSetId (seq : Nat) (s : State) : Host.Outcome State Fault Refusal :=
  .next (s.onOperatorOp seq 0x0603 0 3 1 fun r =>
    let b := r.body
    if u8 b 1 != 0 || !restZero b 4 || u16 b 2 = 0xFFFF then s.respond seq stBadCommand []
    else if s.pitches != [] || s.lends != [] then s.respond seq stBusy []
    else
      let s := s.setFab { s.fab with moduleId := u16 b 2, assigned := true }
      let s := (s.setPorts (s.ports.map fun p => { p with changes := (p.changes + 1) % 2 ^ 32 })).sendHellos fun _ => true
      s.respond seq stOk s.discovery)

/-- FAB_DISCOVER REFRESH. -/
def execFabDiscoverRefresh (seq : Nat) (s : State) : Host.Outcome State Fault Refusal :=
  .next (s.onOperatorOp seq 0x0603 0 3 2 fun r =>
    if !restZero r.body 1 then s.respond seq stBadCommand []
    else
      let s := s.sendHellos fun _ => true
      s.respond seq stOk s.discovery)

/-- The fields of a FAB_BRIDGE_SET body are acceptable. -/
def bridgeSetOk (b : Bytes) : Bool :=
  let n := u8 b 0
  let l := (List.range n).map fun i => u8 b (2 + i)
  n ≤ 4 && u8 b 1 = 0 && restZero b 6 && l.all (· ≤ 71) && l.eraseDups.length = n &&
  (List.range 4).all fun i => i < n || u8 b (2 + i) = 0xFF

/-- The host-facing set in the layout of R365. -/
def State.bridgeAnswer (s : State) : Bytes :=
  let l := s.fab.hostPorts
  le 1 l.length ++ le 1 0 ++ ((List.range 4).flatMap fun i => le 1 (l.getD i 0xFF))

/-- A port that changes sides retrains through DETECT. -/
def State.changeSide (s : State) (port : Nat) : State :=
  if (s.port port).carrying then s.portDown port
  else s.updPort port fun p => { p with st := if p.st = .train then .detect else p.st }

/-- FAB_BRIDGE_SET 0x0604. -/
def execFabBridgeSet (seq : Nat) (s : State) : Host.Outcome State Fault Refusal :=
  .next (s.onOperator seq 0x0604 fun r =>
    let b := r.body
    let l := (List.range (u8 b 0)).map fun i => u8 b (2 + i)
    let moved := (List.range Config.ports).filter fun i => l.contains i != s.hostFacing i
    if !bridgeSetOk b then s.respond seq stBadCommand []
    else if moved.any fun i => (s.port i).roles.any (· != .off) then s.respond seq stBusy []
    else
      let s := moved.foldl State.changeSide (s.setFab { s.fab with hostPorts := l })
      s.respond seq stOk s.bridgeAnswer)

end Sys2Proof.Machine
end

