-- ==== Sys2Proof/Machine/Ecdsa.lean ====
section
/-! DEFINITION. ECDSA P-384 signature verification, which R384 uses by name; the curve is that of the published standard
(log entry 11). -/

namespace Sys2Proof.Machine

open Sys2Proof

/-- The field prime of P-384. -/
def p384P : Nat := 2 ^ 384 - 2 ^ 128 - 2 ^ 96 + 2 ^ 32 - 1

/-- The order of the base point. -/
def p384N : Nat := 0xFFFFFFFFFFFFFFFFFFFFFFFFFFFFFFFFFFFFFFFFFFFFFFFFC7634D81F4372DDF581A0DB248B0A77AECEC196ACCC52973

/-- The curve's b. -/
def p384B : Nat := 0xB3312FA7E23EE7E4988E056BE3F82D19181D9C6EFE8141120314088F5013875AC656398D8A2ED19D2A85C8EDD3EC2AEF

/-- The base point. -/
def p384Gx : Nat := 0xAA87CA22BE8B05378EB1C71EF320AD746E1D3B628BA79B9859F741E082542A385502F25DBF55296C3A545E3872760AB7
def p384Gy : Nat := 0x3617DE4A96262C6F5D9E98BF9292DC29F8F41DBD289A147CE9DA3113B5F0B8C00A60B1CE1D7E819D7A431D7C90EA0E5F

/-- Bits of a number from bit `n − 1` down to bit 0. -/
def bitsDown (n x : Nat) : List Bool := (List.range n).reverse.map fun i => x.testBit i

/-- b^e mod m for e below 2^384. -/
def powMod (b e m : Nat) : Nat :=
  (bitsDown 384 e).foldl (fun acc bt => let sq := acc * acc % m; if bt then sq * b % m else sq) 1

/-- The inverse of x modulo a prime. -/
def invMod (x m : Nat) : Nat := powMod x (m - 2) m

/-- A point in Jacobian coordinates; z = 0 is the point at infinity. -/
structure EcPoint where
  x : Nat
  y : Nat
  z : Nat
  deriving DecidableEq, Repr

/-- Difference modulo p. -/
def subP (a b : Nat) : Nat := (a + p384P - b % p384P) % p384P

/-- Doubling on the curve with a = −3. -/
def EcPoint.double (q : EcPoint) : EcPoint :=
  if q.z = 0 || q.y = 0 then ⟨1, 1, 0⟩
  else
    let d := q.z * q.z % p384P
    let g := q.y * q.y % p384P
    let b := q.x * g % p384P
    let a := 3 * (subP q.x d * ((q.x + d) % p384P)) % p384P
    let x := subP (a * a % p384P) (8 * b)
    let yz := (q.y + q.z) % p384P
    let z := subP (subP (yz * yz % p384P) g) d
    let y := subP (a * subP (4 * b) x % p384P) (8 * (g * g % p384P))
    ⟨x, y, z⟩

/-- Addition. -/
def EcPoint.add (q r : EcPoint) : EcPoint :=
  if q.z = 0 then r
  else if r.z = 0 then q
  else
    let z1 := q.z * q.z % p384P
    let z2 := r.z * r.z % p384P
    let u1 := q.x * z2 % p384P
    let u2 := r.x * z1 % p384P
    let s1 := q.y * r.z % p384P * z2 % p384P
    let s2 := r.y * q.z % p384P * z1 % p384P
    if u1 = u2 then (if s1 = s2 then q.double else ⟨1, 1, 0⟩)
    else
      let h := subP u2 u1
      let t := subP s2 s1
      let h2 := h * h % p384P
      let h3 := h * h2 % p384P
      let v := u1 * h2 % p384P
      let x := subP (subP (t * t % p384P) h3) (2 * v)
      let y := subP (t * subP v x % p384P) (s1 * h3 % p384P)
      ⟨x, y, h * q.z % p384P * r.z % p384P⟩

/-- A multiple of a point. -/
def EcPoint.mul (k : Nat) (q : EcPoint) : EcPoint :=
  (bitsDown 384 k).foldl (fun acc bt => let d := acc.double; if bt then d.add q else d) ⟨1, 1, 0⟩

/-- The point lies on the curve. -/
def onCurve (x y : Nat) : Bool :=
  x < p384P && y < p384P && y * y % p384P = subP (x * x % p384P * x + p384B) (3 * x)

/-- ECDSA P-384 verification of a 384-bit digest. -/
def ecdsaVerify (pubX pubY digest r s : Nat) : Bool :=
  if !onCurve pubX pubY || r = 0 || s = 0 || p384N ≤ r || p384N ≤ s then false
  else
    let w := invMod s p384N
    let u1 := digest * w % p384N
    let u2 := r * w % p384N
    let q := (EcPoint.mul u1 ⟨p384Gx, p384Gy, 1⟩).add (EcPoint.mul u2 ⟨pubX, pubY, 1⟩)
    if q.z = 0 then false
    else
      let zi := invMod q.z p384P
      q.x * (zi * zi % p384P) % p384P % p384N = r

end Sys2Proof.Machine
end

