-- ==== Sys2Proof/Machine/Firmware.lean ====
section
/-! DEFINITION. The firmware image, boot and recovery, live update and device identity (R383 to R391). -/

namespace Sys2Proof.Machine

open Sys2Proof

/-! ### The image (R383, R384) -/

/-- The limit of IMAGE_BYTES, 124 MiB. -/
def maxImage : Nat := 130023424

/-- The section table, entry by entry: TYPE, OFFSET, BYTES. -/
def sections (b : Bytes) : List (Nat × Nat × Nat) :=
  (records b 256 32 (u8 b 25)).map fun e => (u16 e 0, u64 e 8, u64 e 16)

/-- Sections lie between the table and the signature and do not overlap. -/
def sectionsOk (b : Bytes) : Bool :=
  let l := sections b
  let lo := 256 + 32 * u8 b 25
  (records b 256 32 (u8 b 25)).all (fun e => zeroRange e 2 6 && zeroRange e 24 8) &&
  l.all (fun x => 1 ≤ x.1 && x.1 ≤ 6 && lo ≤ x.2.1 && x.2.1 + x.2.2 ≤ b.length - 96) &&
  l.zipIdx.all fun x => l.zipIdx.all fun y =>
    y.2 ≤ x.2 || x.1.2.1 + x.1.2.2 ≤ y.1.2.1 || y.1.2.1 + y.1.2.2 ≤ x.1.2.1

/-- Check 1 of R384: the header and the section table meet R383. -/
def imageFormOk (b : Bytes) : Bool :=
  u32 b 0 = 0x52474D01 && u32 b 4 = 256 && u64 b 8 = b.length && b.length % 8 = 0 && b.length ≤ maxImage && 352 ≤ b.length &&
  u32 b 20 ≤ 63 && u8 b 24 ≤ 3 && 1 ≤ u8 b 25 && u8 b 25 ≤ 32 && zeroRange b 26 2 && zeroRange b 36 4 && u8 b 40 = 4 &&
  zeroRange b 137 119 && sectionsOk b

/-- Check 2: the key's digest is the fused one, and its slot is not revoked. -/
def keyOk (fw : Firmware) (b : Bytes) : Bool :=
  let i := u8 b 24
  sha384 (slice b 40 97) = fw.keyHashes.getD i [] && !(fw.revoked.getD i true)

/-- Check 3: the signature over all but the last 96 bytes. -/
def imageSigned (b : Bytes) : Bool :=
  let n := b.length - 96
  ecdsaVerify (numberBE (slice b 41 48)) (numberBE (slice b 89 48)) (numberBE (sha384 (b.take n))) (numberBE (slice b n 48))
    (numberBE (slice b (n + 48) 48))

/-- The fields of an image, and its measurement. -/
def imageFields (b : Bytes) : Image :=
  { bytes := b.length, version := BitVec.ofNat 32 (u32 b 16), svn := u32 b 20, stateFormat := u32 b 28
    minStateFormat := u32 b 32, measurement := sha384 b }

/-- Checks 1 to 4 of R384. -/
def verifyImage (fw : Firmware) (b : Bytes) : Option Image :=
  if imageFormOk b && keyOk fw b && imageSigned b && fw.svnMin ≤ u32 b 20 then some (imageFields b) else none

/-! ### Boot and recovery (R386, R387) -/

/-- The module enters recovery: MOD_STATUS shows it, ALERT_N is asserted, and the links are DISABLED and carry no transit. -/
def State.recover (s : State) : State :=
  let s := s.setPorts (s.ports.map fun p => { p with st := .disabled, activeLanes := 0, x4Pending := false })
  (s.setKpr { s.kpr with mod := .recovery }).logNote 5 "RECOVERY" (some 2) noDie noTag 0

/-- A Ringmaster pair passes its start-up test: its die is powered, and its outcome is free. -/
def State.pairStarts (s : State) (pair : Nat) : Bool :=
  (s.die (pairDie pair)).st != .fault && Config.lockstepPasses (2 * s.free + pair)

/-- A verified image started: the primary on D00 where it starts, else on D23, and the other as standby. -/
def State.startImage (s : State) (b : Bytes) (i : Image) : State :=
  let s := s.setFw { s.fw with
    running := some i, runningBytes := b, measurement := i.measurement, attestKey := some s.free, flashCode := 0 }
  let s := s.setRing { s.ring with
    started := true, beats := [s.now, s.now], primary := if s.pairStarts 0 then 0 else 1, standby := s.pairStarts 0 && s.pairStarts 1 }
  (s.setKpr { s.kpr with mod := .ready }).draw

/-- The boot ROM's work: the control record, the image, its checks, and the start (R386). -/
def State.bootNow (s : State) : State :=
  let b := s.fw.flash.take s.fw.imageBytes
  if !(s.pairStarts 0 || s.pairStarts 1) then s.keeperOnly 0
  else if s.fw.writing then (s.setFw { s.fw with flashCode := 1 }).recover
  else match verifyImage s.fw b with
    | none => s.recover
    | some i => s.startImage b i

/-- BOOT (R386). -/
def execBoot (s : State) : Host.Outcome State Fault Refusal :=
  .next (if s.power.phase = .up && s.kpr.mod = .booting then s.bootNow else s)

/-! ### FW_STAGE (R388) -/

/-- The response of FW_STAGE; the staged fields are open unless the stage is VERIFIED. -/
def State.stageAnswer (s : State) : Bytes :=
  let img := match s.fw.stageImage with
    | some i => if s.fw.stage = 2 then slice i.measurement 0 48 ++ le 4 i.version.toNat ++ le 4 i.svn else s.openBytes 56
    | none => s.openBytes 56
  le 1 s.fw.stage ++ le 1 s.fw.flashCode ++ le 6 0 ++ le 8 (8 * s.fw.stageWritten.length) ++ img ++ slice s.fw.measurement 0 48

/-- The answer of an FW_STAGE operation that was done. -/
def State.stageDone (s : State) (seq : Nat) : State := s.draw.respond seq stOk s.stageAnswer

/-- A hand-over or a flash rewrite is in progress. -/
def State.updating (s : State) : Bool := s.fw.handover.isSome || s.fw.rewrite.isSome

/-- The fields that every FW_STAGE operation but DATA leaves zero. -/
def stageFieldsOk (b : Bytes) (arg : Bool) : Bool :=
  zeroRange b 1 7 && (arg || u64 b 8 = 0) && u32 b 16 = 0 && restZero b 20

/-- FW_STAGE BEGIN. -/
def execFwStageBegin (seq : Nat) (s : State) : Host.Outcome State Fault Refusal :=
  .next (s.onOperatorOp seq 0x0701 0 5 0 fun r =>
    let b := r.body
    if !stageFieldsOk b true || u64 b 8 % 8 != 0 || u64 b 8 = 0 || maxImage < u64 b 8 then s.respond seq stBadCommand []
    else if s.updating then s.respond seq stBusy []
    else (s.setFw { s.fw with stage := 1, stageSize := u64 b 8, stageData := [], stageWritten := [], stageImage := none }).stageDone seq)

/-- FW_STAGE DATA. -/
def execFwStageData (seq : Nat) (s : State) : Host.Outcome State Fault Refusal :=
  .next (s.onOperatorOp seq 0x0701 0 5 1 fun r =>
    let b := r.body
    let off := u64 b 8
    let n := u32 b 16
    if !zeroRange b 1 7 || !zeroRange b 20 12 || off % 8 != 0 || n % 8 != 0 || n < 8 || 4000 < n then s.respond seq stBadCommand []
    else if s.updating then s.respond seq stBusy []
    else if s.fw.stageSize < off + n then s.respond seq stOutOfRange []
    else
      let cells := (slice b 32 n).zipIdx.map fun x => (off + x.2, x.1)
      (s.setFw { s.fw with
        stage := 1, stageImage := none, stageData := memWrite s.fw.stageData cells
        stageWritten := (List.range (n / 8)).foldl (fun l i => insertNat l (off / 8 + i)) s.fw.stageWritten }).stageDone seq)

/-- The staged bytes. -/
def State.stageBytes (s : State) : Bytes := (List.range s.fw.stageSize).map (memGet s.fw.stageData)

/-- FW_STAGE VERIFY (R384). -/
def execFwStageVerify (seq : Nat) (s : State) : Host.Outcome State Fault Refusal :=
  .next (s.onOperatorOp seq 0x0701 0 5 2 fun r =>
    if !stageFieldsOk r.body false then s.respond seq stBadCommand []
    else if s.updating then s.respond seq stBusy []
    else if s.fw.stageSize = 0 || 8 * s.fw.stageWritten.length < s.fw.stageSize then s.respond seq stBadCommand []
    else match verifyImage s.fw s.stageBytes with
      | none => (s.setFw { s.fw with stage := 3, stageImage := none }).respond seq stVerifyFailed []
      | some i => (s.setFw { s.fw with stage := 2, stageImage := some i }).stageDone seq)

/-- FW_STAGE DISCARD. -/
def execFwStageDiscard (seq : Nat) (s : State) : Host.Outcome State Fault Refusal :=
  .next (s.onOperatorOp seq 0x0701 0 5 3 fun r =>
    if !stageFieldsOk r.body false then s.respond seq stBadCommand []
    else (s.setFw { s.fw with stage := 0, stageSize := 0, stageData := [], stageWritten := [], stageImage := none }).stageDone seq)

/-- FW_STAGE QUERY. -/
def execFwStageQuery (seq : Nat) (s : State) : Host.Outcome State Fault Refusal :=
  .next (s.onOperatorOp seq 0x0701 0 5 4 fun r =>
    if !stageFieldsOk r.body false then s.respond seq stBadCommand [] else s.stageDone seq)

/-! ### FW_ACTIVATE (R389) -/

/-- The flash rewrite begins: the control record shows WRITING (step 5). -/
def State.startRewrite (s : State) (b : Bytes) (raise : Bool) : State :=
  s.setFw { s.fw with control := s.fw.writingControl, flashCode := 1, rewrite := some (b, raise) }

/-- Every Gulper instance is between token steps (step 2). -/
def State.atBoundary (s : State) : Bool := s.pitches.all fun p => p.models.all fun m => m.steps = []

/-- The next look at a hand-over in progress: the standby is ready and the primary holds submissions; then everything is at a
boundary and the new image takes over. A standby that has been fenced in the meantime does neither (R368). -/
def State.handoverStep (s : State) (h : Handover) : State :=
  if !s.hasStandby then s
  else if !h.ready then
    (s.setFw { s.fw with handover := some { h with ready := true, startedAt := s.now } }).setRing { s.ring with holding := true }
  else if s.atBoundary then (s.completeHandover h false).releaseHeld
  else s

/-- FW_ACTIVATE with a VERIFIED stage. -/
def State.activateStaged (s : State) (seq : Nat) (b : Bytes) (i : Image) : State :=
  let raise := bit (u8 b 48) 0
  let recovery := s.kpr.mod = .recovery
  if slice b 0 48 != i.measurement ||
      (!recovery && s.fw.running.elim false fun r => r.stateFormat < i.minStateFormat) then s.respond seq stVerifyFailed []
  else if s.updating || (!recovery && !s.hasStandby) then s.respond seq stBusy []
  else if recovery then s.startRewrite s.stageBytes raise
  else s.setFw { s.fw with
    handover := some ⟨seq, i, s.stageBytes, s.now, if u32 b 52 = 0 then 1000 else u32 b 52, raise, false⟩ }

/-- The FW_ACTIVATE whose flash rewrite recovery waits for. -/
def State.recoveryActivate (s : State) : Option Nat :=
  if s.kpr.mod = .recovery then (s.ring.journal.find? fun r => r.command = cmdActivate).map (·.seq) else none

/-- FW_ACTIVATE 0x0702. Given again for its own request, it goes on with the hand-over. -/
def execFwActivate (seq : Nat) (s : State) : Host.Outcome State Fault Refusal :=
  .next (s.onOperator seq 0x0702 fun r =>
    let b := r.body
    match s.fw.handover.filter fun h => h.seq = seq with
    | some h => s.handoverStep h
    | none =>
      if 2 ≤ u8 b 48 || !zeroRange b 49 3 || !restZero b 56 then s.respond seq stBadCommand []
      else if s.recoveryActivate = some seq && s.fw.rewrite.isSome then s
      else if s.fw.stage = 0 && s.fw.running.isSome && slice b 0 48 = s.fw.measurement then
        if s.updating then s.respond seq stBusy []
        else (s.startRewrite s.fw.runningBytes (bit (u8 b 48) 0)).respond seq stOk s.fw.measurement
      else match s.fw.stageImage with
        | some i => if s.fw.stage = 2 then s.activateStaged seq b i else s.respond seq stNotFound []
        | none => s.respond seq stNotFound [])

/-- A hand-over ends without the new image: the standby runs the old one again, and held requests are accepted. -/
def State.dropHandover (s : State) (h : Handover) (status : Nat) : State :=
  ((s.setFw { s.fw with handover := none }).releaseHeld).respond h.seq status []

/-- STANDBY_READY_TIMEOUT: 2 s without a ready standby (R389, step 1). -/
def execStandbyReadyTimeout (s : State) : Host.Outcome State Fault Refusal :=
  .next (match s.fw.handover with
    | some h => if !h.ready && due h.startedAt 50000000 s.now then s.dropHandover h stVerifyFailed else s
    | none => s)

/-- HANDOVER_BOUNDARY_TIMEOUT: the boundaries take longer than TIMEOUT_MS (R389, step 2). -/
def execHandoverBoundaryTimeout (s : State) : Host.Outcome State Fault Refusal :=
  .next (match s.fw.handover with
    | some h => if h.ready && due h.startedAt (25000 * h.timeoutMs) s.now then s.dropHandover h stBusy else s
    | none => s)

/-- FLASH_REWRITE_DONE: the image stands in flash and the record is CLEAN, or FLASH is FAILED with an alert (R389, step 5). In
recovery the image then boots, and FW_ACTIVATE is answered (R387). -/
def execFlashRewriteDone (good : Bool) (s : State) : Host.Outcome State Fault Refusal :=
  .next (match s.fw.rewrite with
    | none => s
    | some (b, raise) =>
      let req := s.recoveryActivate
      if good then
        let i := imageFields b
        let s := s.setFw { s.fw with
          flash := b, control := List.replicate 2 (controlCopy 0 b.length i.measurement), flashCode := 0
          rewrite := none, svnMin := if raise then max s.fw.svnMin i.svn else s.fw.svnMin }
        match req with
        | none => s
        | some q => if s.bootNow.kpr.mod = .ready then s.bootNow.respond q stOk [] else s.bootNow
      else
        let s := (s.setFw { s.fw with flashCode := 2, rewrite := none }).logNote 5 "FLASH_FAILED" (some 2) noDie noTag 0
        req.elim s fun q => s.respond q stVerifyFailed [])

/-! ### Device identity (R390, R391) -/

/-- The certificate of the attestation key, at most 1,800 bytes; none before a key is drawn. -/
def State.attestCert (s : State) : Bytes :=
  s.fw.attestKey.elim [] fun k =>
    (Config.attestCert k s.eeprom.serial s.fw.measurement (s.fw.running.elim 0 (·.svn)) s.eeprom.resetCount).take 1800

/-- The response of DEV_IDENTITY. -/
def State.identity (s : State) : Bytes :=
  let dev := s.eeprom.cert.take 1800
  let att := s.attestCert
  slice s.eeprom.serial 0 16 ++ le 2 s.fab.moduleId ++ le 2 0 ++ le 4 dev.length ++ le 4 att.length ++ le 4 s.fw.svnMin ++
  slice s.fw.measurement 0 48 ++ slice Config.devicePublicKey 0 97 ++ le 3 0 ++
  s.fw.attestKey.elim (s.openBytes 97) (fun k => slice (Config.publicKey k) 0 97) ++ le 11 0 ++ dev ++ att

/-- DEV_IDENTITY 0x0704. -/
def execDevIdentity (seq : Nat) (s : State) : Host.Outcome State Fault Refusal :=
  .next (s.onOperator seq 0x0704 fun r =>
    if !restZero r.body 0 then s.respond seq stBadCommand [] else s.draw.respond seq stOk s.identity)

end Sys2Proof.Machine
end

