-- ==== Sys2Proof/Machine/Codec.lean ====
section
/-! DEFINITION. The lossless coding of saved activations (R250 to R252): strips, chunks and streams. -/

namespace Sys2Proof.Machine

open Sys2Proof

/-- The `n` low bits of a number, bit 0 first. -/
def bitsOf (v n : Nat) : List Bool := (List.range n).map v.testBit

/-- The number that a bit list spells, bit 0 first. -/
def ofBits : List Bool → Nat
  | [] => 0
  | b :: l => b.toNat + 2 * ofBits l

/-- Bits packed into bytes from bit 0 upward, padded with zeros (R250). -/
def packBits (l : List Bool) : Bytes :=
  (List.range (ceilDiv l.length 8)).map fun i => BitVec.ofNat 8 (ofBits ((l.drop (8 * i)).take 8))

/-- The bits of bytes. -/
def unpackBits (b : Bytes) : List Bool := b.flatMap fun x => bitsOf x.toNat 8

/-- The exponent field of a code; the rest of the code with the exponent removed: mantissa first, sign last (R251). -/
def expField (f : Fmt) (c : Nat) : Nat := bits c f.mant f.expBits
def signMant (f : Fmt) (c : Nat) : Nat :=
  if f = .int8 then c else c % 2 ^ f.mant + c / 2 ^ (f.width - 1) * 2 ^ f.mant

/-- A code from its sign-and-mantissa bits and its exponent field. -/
def joinCode (f : Fmt) (sm e : Nat) : Nat :=
  if f = .int8 then sm
  else sm % 2 ^ f.mant + e % 2 ^ f.expBits * 2 ^ f.mant + sm / 2 ^ f.mant * 2 ^ (f.width - 1)

/-- The code of an exponent field after the previous one (R251). -/
def expBitsOf (x : Nat) (prev : Option Nat) (e : Nat) : List Bool :=
  match prev with
  | none => bitsOf e x
  | some p =>
    let d : Int := (e : Int) - p
    let s := decide (d < 0)
    if d = 0 then [false]
    else if d.natAbs = 1 then [true, false, s]
    else if d.natAbs ≤ 5 then [true, true, false, s] ++ bitsOf (d.natAbs - 2) 2
    else [true, true, true] ++ bitsOf e x

/-- The lanes of a CODED strip, in lane order (R251). -/
def codedLanes (f : Fmt) : Option Nat → List Nat → List Bool
  | _, [] => []
  | prev, c :: l =>
    if c = 0 then codedLanes f prev l
    else
      bitsOf (signMant f c) (f.width - f.expBits) ++
      (if f = .int8 then codedLanes f none l else expBitsOf f.expBits prev (expField f c) ++ codedLanes f (some (expField f c)) l)

/-- One strip: its scale byte where there is one, its tag and its content (R251, R252). -/
def codeStrip (f : Fmt) (scale : Option Nat) (cs : List Nat) : List Bool :=
  (scale.elim [] fun b => bitsOf b 8) ++
  (if cs.all (· = 0) then [false, false]
   else
    let coded := cs.map (fun c => decide (c ≠ 0)) ++ codedLanes f none cs
    if coded.length < 32 * f.width then [false, true] ++ coded
    else [true, false] ++ cs.flatMap fun c => bitsOf c f.width)

/-- One chunk: its byte length and its payload (R250). -/
def codeChunk (f : Fmt) (strips : List (Option Nat × List Nat)) : Bytes :=
  let body := packBits (strips.flatMap fun x => codeStrip f x.1 x.2)
  le 4 body.length ++ body

/-- The chunks of a stream. -/
def codeChunks (f : Fmt) : Nat → List (Option Nat × List Nat) → Bytes
  | 0, _ => []
  | fuel + 1, l => if l.isEmpty then [] else codeChunk f (l.take 64) ++ codeChunks f fuel (l.drop 64)

/-- The header of a stream (R250). -/
def codecHeader (fmt : Nat) (scaled : Bool) (nstrips payload : Nat) : Bytes :=
  le 4 0x41435A01 ++ le 1 fmt ++ le 1 scaled.toNat ++ le 2 0 ++ le 8 nstrips ++ le 8 payload ++ le 8 0

/-! ### Decoding -/

/-- `n` bits taken, or `none` where fewer remain. -/
def takeBits (n : Nat) (l : List Bool) : Option (Nat × List Bool) :=
  if l.length < n then none else some (ofBits (l.take n), l.drop n)

/-- The exponent field after the previous one. -/
def readExp (x : Nat) (prev : Option Nat) (l : List Bool) : Option (Nat × List Bool) :=
  match prev, l with
  | none, l => takeBits x l
  | some p, false :: l => some (p, l)
  | some p, true :: false :: s :: l => some ((if s then p + 2 ^ x - 1 else p + 1) % 2 ^ x, l)
  | some p, true :: true :: false :: s :: l =>
    (takeBits 2 l).map fun r => ((if s then p + 2 ^ x * 8 - (r.1 + 2) else p + (r.1 + 2)) % 2 ^ x, r.2)
  | some _, true :: true :: true :: l => takeBits x l
  | some _, _ => none

/-- The codes of a CODED strip, lanes of the mask in order. -/
def readLanes (f : Fmt) : List Bool → Option Nat → List Bool → Option (List Nat × List Bool)
  | [], _, l => some ([], l)
  | false :: m, prev, l => (readLanes f m prev l).map fun r => (0 :: r.1, r.2)
  | true :: m, prev, l =>
    (takeBits (f.width - f.expBits) l).bind fun sm =>
      if f = .int8 then (readLanes f m none sm.2).map fun r => (sm.1 :: r.1, r.2)
      else (readExp f.expBits prev sm.2).bind fun e =>
        (readLanes f m (some e.1) e.2).map fun r => (joinCode f sm.1 e.1 :: r.1, r.2)

/-- 32 codes of the element width. -/
def readRaw (w : Nat) : Nat → List Bool → Option (List Nat × List Bool)
  | 0, l => some ([], l)
  | n + 1, l => (takeBits w l).bind fun c => (readRaw w n c.2).map fun r => (c.1 :: r.1, r.2)

/-- One strip decoded: its scale byte and its codes; `none` for a reserved tag, too few bits, or a scale byte out of range,
which no stream of the M24 holds (R29, R31, R251, R252). -/
def readStrip (f : Fmt) (scaled : Bool) (l : List Bool) : Option ((Nat × List Nat) × List Bool) :=
  (takeBits (if scaled then 8 else 0) l).bind fun sc =>
    if !scaleOk sc.1 then none
    else match sc.2 with
    | false :: false :: l => some ((sc.1, List.replicate 32 0), l)
    | true :: false :: l => (readRaw f.width 32 l).map fun r => ((sc.1, r.1), r.2)
    | false :: true :: l => (readLanes f (l.take 32) none (l.drop 32)).bind fun r =>
        if l.length < 32 then none else some ((sc.1, r.1), r.2)
    | _ => none

/-- `n` strips of one chunk; fewer than eight bits may remain. -/
def readChunk (f : Fmt) (scaled : Bool) : Nat → List Bool → Option (List (Nat × List Nat))
  | 0, l => if l.length < 8 then some [] else none
  | n + 1, l => (readStrip f scaled l).bind fun r => (readChunk f scaled n r.2).map fun rs => r.1 :: rs

/-- The strips of a payload: chunks of 64 strips, the last with the rest. -/
def readChunks (f : Fmt) (scaled : Bool) : Nat → Nat → Bytes → Option (List (Nat × List Nat))
  | 0, _, _ => some []
  | fuel + 1, n, b =>
    if n = 0 then some []
    else if b.length < 4 || byteAt b 3 != 0 then none
    else
      let len := u32 b 0
      if b.length < 4 + len then none
      else (readChunk f scaled (min 64 n) (unpackBits ((b.drop 4).take len))).bind fun rs =>
        (readChunks f scaled fuel (n - min 64 n) (b.drop (4 + len))).map fun more => rs ++ more

/-- A stream of `nstrips` strips decoded against the raw side's FORMAT and SCALED (R252); `cap` bytes hold it. -/
def readStream (f : Fmt) (fmt : Nat) (scaled : Bool) (nstrips : Nat) (b : Bytes) : Option (List (Nat × List Nat)) :=
  if u32 b 0 != 0x41435A01 || u8 b 4 != fmt || u8 b 5 != scaled.toNat || !zeroRange b 6 2 || u64 b 8 != nstrips ||
      !zeroRange b 24 8 || b.length < 32 + u64 b 16 then none
  else readChunks f scaled (nstrips + 1) nstrips ((b.drop 32).take (u64 b 16))

end Sys2Proof.Machine
end

