-- ==== Sys2Proof/Machine/Movers.lean ====
section
/-! DEFINITION. The data movers (R156): copies, transposes (R75, R76), conversions (R460), copies of strip records, and the
CODEC moves (R249 to R252). -/

namespace Sys2Proof.Machine

open Sys2Proof

/-- The cluster runs the item on one of its data movers. -/
def runsMover (s : State) (p : Pitch) (i : Item) : Option Place :=
  (i.place? s p).bind fun pl =>
    let c := s.cluster pl
    if (c.onMover0 = some i.key || c.onMover1 = some i.key) && i.phase = .running && !i.latched then some pl else none

/-- The position in the source of an element of D: the same view position, or S's X and channel exchanged (R156). -/
def movePos (w : WDesc) (src dst : TDesc) (v : List Int) (l : Nat) : List Nat :=
  if w.c 0 1 = 1 then
    let y := dst.idxAt v l
    let x := w.c 1 3 - 1
    let d := dst.stripDim - 1
    src.posIdx ((y.set x (y.getD d 0)).set d (y.getD x 0))
  else
    v.zipIdx.map fun (z : Int × Nat) =>
      let y := (z.1 + ((dst.dim (z.2 + 1)).padLo : Int)).toNat
      if z.2 + 1 = dst.stripDim then 32 * y + l else y

/-- One strip of D on the copy path: bits, and the scale of the S strip at the same view index (R156). -/
def copyStrip (key : ItemKey) (p : Pitch) (w : WDesc) (src : TDesc) (o : Operand) (s : State) (v : List Int) :
    State × Option Nat :=
  match mapE (fun l => (readElem s p src (movePos w src o.desc v l)).map fun (c : Nat × Int) => (l, c)) (o.desc.lanesIn v) with
  | .error e => (s, some e)
  | .ok xs =>
    let scale := (xs.head?.elim 0 fun x => x.2.2)
    let s := s.updItem key fun i => i.wrote o.desc v
    kept s (writeStrip s key.tag o.desc v (xs.map fun x => (x.1, x.2.1)) scale)

/-- One strip of D on the conversion path (R156, R460). -/
def convertMove (key : ItemKey) (p : Pitch) (w : WDesc) (src : TDesc) (o : Operand) (m : OutMode) (s : State)
    (v : List Int) : State × Option Nat :=
  match mapE (fun l => (readNum s p src src.fmtE (movePos w src o.desc v l)).map fun (x : Num) => (l, x)) (o.desc.lanesIn v) with
  | .error e => (s, some e)
  | .ok xs =>
    let r := convertStrip o.desc o.frame o.desc.fmtE m v (byLane (.fin false 0 0) xs)
    let s := s.updItem key fun i => { i.wrote o.desc v with result := (i.wrote o.desc v).result.addFlags r.raised }
    kept s (writeOut s key.tag o.desc v r)

/-- A strip record as its elements by lane, its middle bytes and its per-lane bits; a pad record is zero with anchor −128
(R38, R45, R64). -/
def readRecord (s : State) (p : Pitch) (t : TDesc) (v : List Int) : Except Nat (List Nat × Bytes × List (List Bool)) :=
  let w := elemWidth t.fmt / 8
  let nf := if t.fmt = fcAcc then 2 else 1
  let mid := if t.fmt = fcAcc then [] else ([0x80, 0, 0, 0] : Bytes)
  if t.atPad v then .ok (List.replicate 32 0, mid, List.replicate nf (List.replicate 32 false))
  else match readBytes s p (t.stripAddr (t.stripOff v)) (stripBytes t.fmt) with
    | .error e => .error e
    | .ok b =>
      let lanes := (List.range 32).map fun l => (t.stored l, t.onTail v l)
      .ok (lanes.map fun x => if x.2 then 0 else number (slice b (w * x.1) w),
        slice b (32 * w) mid.length,
        (List.range nf).map fun k => lanes.map fun x => !x.2 && bit (u32 b (32 * w + mid.length + 4 * k)) x.1)

/-- One record of D (R156). -/
def copyRecord (key : ItemKey) (p : Pitch) (src : TDesc) (o : Operand) (s : State) (v : List Int) : State × Option Nat :=
  let sv := v.zipIdx.map fun (z : Int × Nat) =>
    z.1 + ((o.desc.dim (z.2 + 1)).padLo : Int) - ((src.dim (z.2 + 1)).padLo : Int)
  match readRecord s p src sv with
  | .error e => (s, some e)
  | .ok (els, mid, flags) =>
    let s := s.updItem key fun i => i.wrote o.desc v
    kept s (writeRecord s key.tag o.desc v (List.range 32) els mid flags)

/-! ### CODEC moves -/

/-- The strips of the raw side as the encoder takes them: scale byte and codes, tail lanes zero (R250, R251). -/
def rawStrips (s : State) (p : Pitch) (t : TDesc) : Except Nat (List (Option Nat × List Nat)) :=
  mapE (fun v =>
    match readScale s p t (t.stripOff v), mapE (fun l => (readCode s p t (t.stripOff v) l).map fun (c : Nat) => (l, c))
        (t.lanesIn v) with
    | .ok sc, .ok xs => .ok (if t.scaled then some (unsigned sc 8) else none, byLane 0 xs)
    | .error e, _ => .error e
    | _, .error e => .error e) t.boxStrips

/-- COMPRESS: the chunks, then the header with PAYLOAD_BYTES (R252). -/
def compressMove (s : State) (p : Pitch) (key : ItemKey) (src : TDesc) (o : Operand) : State × Option Nat :=
  match rawStrips s p src with
  | .error e => (s, some e)
  | .ok strips =>
    let body := codeChunks src.fmtE (strips.length + 1) strips
    let s := s.updItem key fun i =>
      { i with result := { i.result with range0 := growRange i.result.range0 o.desc.base (32 + body.length) } }
    let k := kept s (pitchWriteAll s key.tag (o.desc.base + 32) body)
    match k.2 with
    | some e => (k.1, some e)
    | none =>
      kept k.1 (pitchWriteAll k.1 key.tag o.desc.base (codecHeader src.fmt src.scaled strips.length body.length))

/-- DECOMPRESS: the stream's strips, or `none` where the stream is faulty. -/
def decompressMove (s : State) (p : Pitch) (src : TDesc) (dst : TDesc) : Except Nat (Option (List (Nat × List Nat))) :=
  let cap := packedBytes src
  match readBytes s p src.base 32 with
  | .error e => .error e
  | .ok h =>
    let n := min cap (32 + u64 h 16)
    (readBytes s p src.base n).map fun b => readStream dst.fmtE dst.fmt dst.scaled dst.boxStrips.length b

/-- One strip of D of a DECOMPRESS move: the stream's scale and codes. -/
def streamStrip (key : ItemKey) (o : Operand) (s : State) (x : List Int × (Nat × List Nat)) : State × Option Nat :=
  let s := s.updItem key fun i => i.wrote o.desc x.1
  kept s (writeStrip s key.tag o.desc x.1 ((List.range 32).zip x.2.2) (signed x.2.1 8))

/-- A faulty stream: BAD_DESCRIPTOR with FAIL_SLOT 0, and D's whole range undefined (R252). -/
def State.failCodec (s : State) (key : ItemKey) (o : Operand) : State :=
  let s := s.updItem key fun i => { i with result := { i.result with range0 := spanRange o.desc.elemSpan } }
  (s.failItem key stBadDescriptor).updItem key fun i => { i with result := { i.result with failSlot := 0 } }

/-- MOVE: the whole item (R156, R249). -/
def execMove (key : ItemKey) (s : State) : Host.Outcome State Fault Refusal :=
  .next (s.onItem key fun p i =>
    match runsMover s p i, i.operand? 0, i.dest? with
    | some pl, some a, some o =>
      let w := i.w
      let src := a.desc
      if w.typ != tyMove then s
      else if w.c 14 2 = 1 then State.endRun (compressMove s p key src o) pl key
      else if w.c 14 2 = 2 then
        match decompressMove s p src o.desc with
        | .error e => s.failMemory key e
        | .ok none => s.failCodec key o
        | .ok (some strips) =>
          State.endRun (foldKeep (streamStrip key o) s (o.desc.boxStrips.zip strips)) pl key
      else if isRecord src.fmt then State.endRun (foldKeep (copyRecord key p src o) s o.desc.boxStrips) pl key
      else match movePath w src o.desc with
        | .copy => State.endRun (foldKeep (copyStrip key p w src o) s o.desc.boxStrips) pl key
        | .convert => State.endRun (foldKeep (convertMove key p w src o i.outMode) s o.desc.boxStrips) pl key
    | _, _, _ => s)

end Sys2Proof.Machine
end

