-- ==== Sys2Proof/Machine/Mvp.lean ====
section
/-! DEFINITION. The matrix-vector path (R100 to R106): one output strip of 32 rows of W at a time for all vectors, in the
working bank, and its hand-off to the draining bank. -/

namespace Sys2Proof.Machine

open Sys2Proof

/-- The cluster runs the item on its MVP. -/
def runsMvp (s : State) (p : Pitch) (i : Item) : Option Place :=
  (i.place? s p).bind fun pl =>
    if (s.cluster pl).onMvp = some i.key && i.phase = .running && !i.latched then some pl else none

/-- The view index of output strip `t` of vector `j` (R104). -/
def mvpStrip (d : TDesc) (t j : Nat) : List Int := d.viewIndex [32 * t, j]

/-- The accumulators of output strip `t`, 32 for each vector, with the flags that its products raised. -/
def mvpAccs (s : State) (p : Pitch) (w : WDesc) (os : List Operand) (d : TDesc) (t : Nat) :
    Except Nat (List Acc × Bool × Bool) :=
  match os.find? fun o => o.slot = 0, os.find? fun o => o.slot = 1 with
  | some ow, some ox =>
    let k := lenOf w os 2 0
    let nv := lenOf w os 0 0
    let lanes := d.viewLanes (mvpStrip d t 0)
    match mapE (fun l =>
        (kVector s p ow.desc w.saturate false k ((d.idxAt (mvpStrip d t 0) l).getD 0 0) 0).map fun x => (l, x)) lanes,
      mapE (fun j => kVector s p ox.desc w.saturate false k j 0) (List.range nv),
      mapE (fun x =>
        match os.find? fun o => o.slot = 2 with
        | some oc => readAcc s p oc.desc [oc.desc.posOf 1 ((d.idxAt (mvpStrip d t 0) (x % 32)).getD 0 0), x / 32]
        | none => .ok {}) (List.range (32 * nv)) with
    | .ok ws, .ok xs, .ok cs =>
      let out := cs.zipIdx.map fun x =>
        let l := x.2 % 32
        if lanes.contains l then
          x.1.mac (s.free * 1024 + x.2) w.saturate (lookupD ws l []) (xs.getD (x.2 / 32) [])
        else (x.1, false, false)
      .ok (out.map (·.1), out.any (·.2.1), out.any (·.2.2))
    | .error e, _, _ => .error e
    | _, .error e, _ => .error e
    | _, _, .error e => .error e
  | _, _ => .error stBadDescriptor

/-- MVP: the whole K range of the next output strip passes through the working bank (R104). -/
def execMvp (key : ItemKey) (s : State) : Host.Outcome State Fault Refusal :=
  .next (s.onItem key fun p i =>
    match runsMvp s p i, i.dest? with
    | some pl, some o =>
      if (s.cluster pl).bank.isNone && i.tiles < (o.desc.dim 1).view then
        match mvpAccs s p i.w i.operands o.desc i.tiles with
        | .error e => s.failMemory key e
        | .ok (accs, bad, sat) =>
          (s.updCluster pl fun c => { c with bank := some ⟨key, i.tiles, accs, bad, sat⟩ }).draw
      else s
    | _, _ => s)

/-- An output strip is disposed of; after the last one the item is finished. -/
def State.stripDone (s : State) (pl : Place) (key : ItemKey) (total : Nat) (r : Raised) : State :=
  let s := s.updItem key fun i => { i with tiles := i.tiles + 1, result := i.result.addTile r }
  if ((s.item? key).elim 0 (·.tiles)) < total then s
  else (s.leaveEngine pl key).updItem key fun i => { i with phase := .finished, result := { i.result with status := stOk } }

/-- MVP_STRIP_HANDOFF: the strip passes to the draining bank, which frees the working bank, and is read out from there to
D, or written as ACC records, for every vector (R104, R106). -/
def execMvpStripHandoff (key : ItemKey) (s : State) : Host.Outcome State Fault Refusal :=
  .next (s.onItem key fun p i =>
    match runsMvp s p i, i.dest? with
    | some pl, some o => match (s.cluster pl).bank with
      | none => s
      | some x =>
        if x.key != key then s
        else
          let s := s.updCluster pl fun c => { c with bank := none, drain := some x }
          let r := foldKeep (fun acc j =>
              tileStrip key i.w o i.outMode (mvpStrip o.desc x.tile j)
                ((List.range 32).map fun l => (l, x.accs.getD (32 * j + l) {})) acc)
            (s, (⟨x.invalid, x.accSat, false⟩ : Raised)) (List.range (lenOf i.w i.operands 0 0))
          match r.2 with
          | some e => r.1.1.failMemory key e
          | none => r.1.1.stripDone pl key (o.desc.dim 1).view r.1.2
    | _, _ => s)

end Sys2Proof.Machine
end

