-- ==== Sys2Proof/Machine/Power.lean ====
section
/-! DEFINITION. Power, clocks, reset, keeper-only mode, telemetry and the event log (R393 to R414), the power warning (R439), and
the drain and return of dies (R167, R414). -/

namespace Sys2Proof.Machine

open Sys2Proof

/-! ### The supply (R395, R402, R407) -/

/-- The keepers run and serve. -/
def State.keepersRun (s : State) : Bool := s.power.phase = .started || s.power.phase = .up

/-- The input voltage as measured. -/
def State.setVin (s : State) (mv : Nat) : State :=
  s.setPower { s.power with vinMv := mv, vinHigh := decide (50000 < mv) && decide (mv ≤ 56000) }

/-- What a supply command does up to the absolute maximum of 60 V (R446). -/
def supply (mv : Nat) (s : State) (f : State → State) : Host.Outcome State Fault Refusal :=
  if 60000 < mv then .fault (.absoluteMaximum mv) else .next (f (s.setVin mv))

/-- The trip record as event data (R411). -/
def tripData (t : Nat × Int × Nat) : Nat := t.1 + unsigned t.2.1 16 * 2 ^ 8 + t.2.2 / 256 % 2 ^ 40 * 2 ^ 24

/-- The keeper domain starts: the cause comes from the EEPROM's records, which are erased; a thermal trip is reported
(R406, R437). -/
def State.keeperStart (s : State) : State :=
  let cause := if s.eeprom.trip.isSome then 6 else if s.eeprom.marker then 5 else 0
  let trip := s.eeprom.trip
  let s := (s.setEeprom { s.eeprom with trip := none, marker := false }).setKpr { s.kpr with resetCause := cause }
  let s := s.step3
  trip.elim s fun t => s.logEvent 0x0203 2 noDie noTag (tripData t)

/-- A die brought up at step 0 (R395, step 4). -/
def Die.bringUp (d : Die) : Die :=
  if d.st = .fault then d
  else { d with railsUp := true, step := 0, vddCoreMv := stepMv 0, clusters := d.clusters.map fun c => { c with st := .resting } }

/-- Steps 4 and 5 of R395. -/
def State.railsOn (s : State) : State :=
  (s.setDies (s.dies.map Die.bringUp)).setPower { s.power with phase := .up, pwrOk := true, railsAt := s.now }

/-- The input admits a start: 40.0 V, and below 50.0 V after an overvoltage reset (R395, R402); after a thermal trip MOD_ENABLE
or the input is cycled first (R406). -/
def State.mayStart (s : State) (mv : Nat) : Bool :=
  40000 ≤ mv && !s.power.tripped && (if s.power.phase = .inReset && s.kpr.resetCause = 2 then mv < 50000 else mv ≤ 56000)

/-- POWER_ON_SEQUENCE (R395). -/
def execPowerOnSequence (vinMv : Nat) (s : State) : Host.Outcome State Fault Refusal :=
  supply vinMv s fun s =>
    if !s.mayStart vinMv then s
    else match s.power.phase with
      | .off => s.keeperStart.railsOn
      | .inReset => s.step3.railsOn
      | .started => if s.kpr.mod = .keeperOnly then s else s.railsOn
      | .up => s

/-- RAIL_REGULATION_TIMEOUT: a rail not in regulation within 1 ms of its start makes its die FAULT (R395). The dies start in turn,
0.2 ms apart. -/
def execRailRegulationTimeout (die rail : Nat) (s : State) : Host.Outcome State Fault Refusal :=
  .next (
    if s.keepersRun && s.kpr.mod = .booting && die < 24 && (s.die die).st != .fault &&
        due (s.power.railsAt + 5000 * die) 25000 s.now then s.dieFault die rail
    else s)

/-- UNDERVOLTAGE_RESET: the input falls to 35.0 V; the keeper domain is kept while it stays at or above 30.0 V (R402). -/
def execUndervoltageReset (vinMv : Nat) (s : State) : Host.Outcome State Fault Refusal :=
  .next (
    if s.keepersRun && vinMv ≤ 35000 then
      let s := s.setVin vinMv
      if vinMv < 30000 then s.unpower else s.moduleReset 1 false
    else s)

/-- OVERVOLTAGE_RESET: the input exceeds 56.0 V (R402). -/
def execOvervoltageReset (vinMv : Nat) (s : State) : Host.Outcome State Fault Refusal :=
  supply vinMv s fun s => if s.keepersRun && 56000 < vinMv then s.moduleReset 2 false else s

/-- OVER_VOLTAGE: between 50.0 V and 56.0 V the module keeps running and writes an ALERT (R402). -/
def execOverVoltage (vinMv : Nat) (s : State) : Host.Outcome State Fault Refusal :=
  supply vinMv s fun s =>
    if s.keepersRun && 50000 < vinMv && vinMv ≤ 56000 then s.logEvent 0x0104 2 noDie noTag vinMv else s

/-- RESET_N_ASSERT: asserted for at least 10 µs, then released (R402, R453). -/
def execResetNAssert (us : Nat) (s : State) : Host.Outcome State Fault Refusal :=
  .next (if s.keepersRun && 10 ≤ us then s.moduleReset 3 (40000 ≤ s.power.vinMv) else s)

/-- MOD_ENABLE_DEASSERT: after the deglitch of 100 µs the marker is written and every rail goes off (R437, R452). On a module
that a thermal trip has switched off it ends the wait of R406. -/
def execModEnableDeassert (us : Nat) (s : State) : Host.Outcome State Fault Refusal :=
  .next (
    if us < 100 then s
    else if s.power.phase != .off then (s.setEeprom { s.eeprom with marker := true }).unpower
    else s.setPower { s.power with tripped := false })

/-- KEEPER_DOMAIN_LOSS: the input below 30.0 V, or the module pulled (R402, R449). -/
def execKeeperDomainLoss (vinMv : Nat) (s : State) : Host.Outcome State Fault Refusal :=
  .next (if vinMv < 30000 then (s.setVin vinMv).unpower else s)

/-- KEEPER_FAILOVER: the keeper of D23 serves keeper space (R434). -/
def execKeeperFailover (s : State) : Host.Outcome State Fault Refusal :=
  .next (if s.keepersRun then s.setKpr { s.kpr with serverD23 := true } else s)

/-! ### Dips (R407, R408) -/

/-- The cluster and Crusher clocks divided, or not; in keeper-only mode only the events are written. -/
def State.divide (s : State) (on : Bool) : State :=
  s.setDies (s.dies.map fun d => { d with divided := on && s.kpr.mod != .keeperOnly })

/-- DIP_BEGIN (R407, steps 1 and 2). -/
def execDipBegin (vinMv : Nat) (s : State) : Host.Outcome State Fault Refusal :=
  .next (
    if s.keepersRun && !s.power.dip && vinMv < 38500 && 35000 < vinMv then
      let s := (s.setVin vinMv).divide true
      (s.setPower { s.power with
        dip := true, dipStart := s.now, dipLow := vinMv, dipHold := none, dips := s.power.dips + 1 }).logEvent
        0x0102 1 noDie noTag vinMv
    else s)

/-- DIP_INPUT_RISE: the hold timer starts (R407, step 3). -/
def execDipInputRise (vinMv : Nat) (s : State) : Host.Outcome State Fault Refusal :=
  .next (
    if s.power.dip && 39500 ≤ vinMv then
      let s := s.setVin vinMv
      s.setPower { s.power with dipHold := some s.now }
    else s)

/-- DIP_INPUT_FALL: the hold timer waits for the input to rise again (R407, step 3). -/
def execDipInputFall (vinMv : Nat) (s : State) : Host.Outcome State Fault Refusal :=
  .next (
    if s.power.dip && vinMv < 39500 then
      let s := s.setVin vinMv
      s.setPower { s.power with dipHold := none, dipLow := min s.power.dipLow vinMv }
    else s)

/-- The duration of the dip so far, in local counts, saturating. -/
def State.dipLength (s : State) : Nat := min (s.now - s.power.dipStart) 0xFFFFFFFF

/-- DIP_END: 100 µs after the input rose, the divider is removed and ALERT_N pulses (R407, step 4); in keeper-only mode only the
event is written (R408). -/
def execDipEnd (vinMv : Nat) (s : State) : Host.Outcome State Fault Refusal :=
  .next (
    let s := s.setVin vinMv
    if s.power.dip && 39500 ≤ vinMv && s.power.dipHold.elim false (fun t => due t 2500 s.now) then
      let n := s.dipLength
      let low := s.power.dipLow
      ((s.divide false).setPower { s.power with
        dip := false, dipHold := none, lastDipMv := low, lastDipLen := n
        pulseUntil := if s.kpr.mod = .keeperOnly then s.power.pulseUntil else s.now + 250 }).logEvent
        0x0103 1 noDie noTag (n + low % 65536 * 2 ^ 32)
    else s)

/-! ### Module power control and steps (R398, R404) -/

/-- The input draws more than module power control admits. -/
def overLimit (power1ms currentMa : Nat) : Bool := 3200 < power1ms || 85000 < currentMa

/-- A die above step 0. -/
def Die.lowers (d : Die) : Bool := d.railsUp && 0 < d.allowed

/-- Every die above step 0 lowers its step by one. -/
def State.stepsDown (s : State) (currentMa : Nat) : State :=
  (s.setDies (s.dies.map fun d => { d with powerStep := if d.lowers then d.allowed - 1 else d.powerStep })).setPower
    { s.power with lastDown := some s.now, powerLimited := true, currentLimited := decide (85000 < currentMa) }

/-- The allowed step of every die rises by one, up to the cap. -/
def State.stepsUp (s : State) : State :=
  let s := s.setDies (s.dies.map fun d => { d with powerStep := if d.powerStep < d.cap then d.powerStep + 1 else d.powerStep })
  let limited := s.power.powerLimited && s.dies.any fun d => d.powerStep < d.cap
  s.setPower { s.power with lastUp := some s.now, powerLimited := limited, currentLimited := s.power.currentLimited && limited }

/-- `n` counts have passed since a time, if there was one. -/
def since (t : Option Nat) (n now : Nat) : Bool := t.elim true fun t => due t n now

/-- POWER_CONTROL_EVAL (R404), with the measurements of that moment. -/
def execPowerControlEval (power1ms power10ms currentMa : Nat) (s : State) : Host.Outcome State Fault Refusal :=
  .next (
    let s := s.sample
    let s := s.setPower { s.power with pinW := power1ms, iinMa := currentMa }
    if overLimit power1ms currentMa then
      if !since s.power.lastDown 2500 s.now then s
      else
        let floor := s.dies.all fun d => d.step = 0
        let s := if s.dies.any Die.lowers then s.stepsDown currentMa else s
        if floor && 3200 < power1ms then s.logEvent 0x0107 2 noDie noTag power1ms else s
    else if power10ms < 3100 && currentMa < 80000 && since s.power.lastDown 250000 s.now && since s.power.lastUp 25000 s.now then
      s.stepsUp
    else s)

/-- STEP_CHANGE_DONE: the die runs at its allowed step (R398). -/
def execStepChangeDone (die : Nat) (s : State) : Host.Outcome State Fault Refusal :=
  .next (if (s.die die).railsUp then s.updDie die Die.toAllowed else s)

/-! ### Temperature (R405, R406) -/

/-- THERMAL_CONTROL_EVAL (R405). -/
def execThermalControlEval (die : Nat) (tj : Int) (sensor : Nat) (s : State) : Host.Outcome State Fault Refusal :=
  .next (
    let s := s.updDie die fun d => { d with tj := tj, tjSensor := sensor % 8 }
    let d := s.die die
    if s.kpr.mod = .keeperOnly || !s.keepersRun || 24 ≤ die then s
    else if 880 ≤ tj then
      ((s.loseDie die).logEvent 0x0202 2 die noTag (unsigned tj 16)).keeperOnly 2
    else if 760 ≤ tj then
      let s := if d.hot then s else s.logEvent 0x0201 1 die noTag (unsigned tj 16)
      s.updDie die fun d =>
        if since d.thermAt 2500 s.now then { d with hot := true, thermStep := d.allowed - 1, thermAt := some s.now }
        else { d with hot := true }
    else if tj < 736 then
      s.updDie die fun d =>
        if since d.thermAt 25000 s.now && d.thermStep < d.cap then
          { d with hot := false, thermStep := d.thermStep + 1, thermAt := some s.now }
        else { d with hot := false }
    else s)

/-- THERMAL_TRIP: in keeper-only mode a junction at 120 °C leaves the trip record and removes every rail,
until MOD_ENABLE or the input is cycled (R406). -/
def execThermalTrip (die : Nat) (tj : Int) (s : State) : Host.Outcome State Fault Refusal :=
  .next (
    if s.kpr.mod = .keeperOnly && s.keepersRun && 960 ≤ tj then
      let s := (s.setEeprom { s.eeprom with trip := some (die, tj, s.now) }).unpower
      s.setPower { s.power with tripped := true }
    else s)

/-! ### Regulator phases and keeper-only mode (R394, R409) -/

/-- PHASE_LOST: the first loss on a rail warns; the second is a die fault, and on VDD_KPR, rail 0, a carrier fault (R394). -/
def execPhaseLost (die rail phase : Nat) (s : State) : Host.Outcome State Fault Refusal :=
  .next (
    let lost := (s.die die).phasesLost
    if !s.keepersRun || 24 ≤ die || 8 ≤ rail || lost.contains (rail, phase) then s
    else
      let second := if rail = 0 then s.power.kprPhaseLost else lost.any fun x => x.1 = rail
      let s := s.updDie die fun d => { d with phasesLost := d.phasesLost ++ [(rail, phase)] }
      if !second then
        let s := if rail = 0 then s.setPower { s.power with kprPhaseLost := true } else s
        s.logEvent 0x0105 1 die noTag (rail + 256 * phase)
      else if rail = 0 then (if s.kpr.mod = .keeperOnly then s else s.keeperOnly 1)
      else s.dieFault die rail)

/-- KEEPER_ONLY_ENTRY (R409). -/
def execKeeperOnlyEntry (cause : Nat) (s : State) : Host.Outcome State Fault Refusal :=
  .next (if s.keepersRun && s.kpr.mod != .keeperOnly && cause ≤ 3 then s.keeperOnly cause else s)

/-- PWARN_EVAL (R439). -/
def execPwarnEval (watts : Nat) (s : State) : Host.Outcome State Fault Refusal :=
  .next (
    let s := s.setPower { s.power with pinW := watts }
    let p := s.power
    if p.pwarnW != 0 && p.pwarnW < watts then
      let s := s.setPower { p with pwarn := true, pwarnBelow := none }
      if p.pwarn then s else s.logEvent 0x0108 1 noDie noTag watts
    else if !p.pwarn then s
    else match p.pwarnBelow with
      | none => s.setPower { p with pwarnBelow := some s.now }
      | some t => if due t 250000 s.now then s.setPower { p with pwarn := false, pwarnBelow := none } else s)

/-! ### PWR_DIE_STATE (R414) -/

/-- Die state codes. -/
def DieSt.code : DieSt → Nat
  | .inService => 0 | .draining => 1 | .drained => 2 | .off => 3 | .fault => 4

/-- The response records of the dies in a mask. -/
def State.dieRecords (s : State) (mask : Nat) : Bytes :=
  (maskBits mask 24).flatMap fun i =>
    let d := s.die i
    le 1 i ++ le 1 d.st.code ++ le 1 d.step ++ le 1 d.cap ++ le 4 d.dozeCycles ++ le 4 d.restUs ++ le 2 (unsigned d.tj 16) ++ le 2 0

/-- The fields of a PWR_DIE_STATE body are acceptable: those that the operation does not use are zero. -/
def dieStateOk (b : Bytes) (cap idle mask : Bool) : Bool :=
  (!mask || u32 b 0 < 2 ^ 24) && (if cap then u8 b 5 ≤ 9 else u8 b 5 = 0) && zeroRange b 6 2 &&
  (if idle then 64 ≤ u32 b 8 && u32 b 8 ≤ 1048576 && 10 ≤ u32 b 12 && u32 b 12 ≤ 10000000 else u32 b 8 = 0 && u32 b 12 = 0) &&
  restZero b 16

/-- A PWR_DIE_STATE operation on the dies of a mask. -/
def State.onDies (s : State) (seq op : Nat) (cap idle : Bool) (f : Bytes → List Nat → State) : State :=
  s.onOperatorOp seq 0x0901 4 8 op fun r =>
    if !dieStateOk r.body cap idle true then s.respond seq stBadCommand [] else f r.body (maskBits (u32 r.body 0) 24)

/-- The answer of an operation that was done. -/
def State.diesDone (s : State) (seq mask : Nat) : State := s.respond seq stOk (s.dieRecords mask)

/-- PWR_DIE_STATE QUERY. -/
def execPwrDieStateQuery (seq : Nat) (s : State) : Host.Outcome State Fault Refusal :=
  .next (s.onDies seq 0 false false fun b _ => s.diesDone seq (u32 b 0))

/-- PWR_DIE_STATE SET_CAP. -/
def execPwrDieStateSetCap (seq : Nat) (s : State) : Host.Outcome State Fault Refusal :=
  .next (s.onDies seq 1 true false fun b ds =>
    (ds.foldl (fun s d => s.updDie d fun d => { d with cap := u8 b 5 }) s).diesDone seq (u32 b 0))

/-- PWR_DIE_STATE SET_IDLE. -/
def execPwrDieStateSetIdle (seq : Nat) (s : State) : Host.Outcome State Fault Refusal :=
  .next (s.onDies seq 2 false true fun b ds =>
    (ds.foldl (fun s d => s.updDie d fun d => { d with dozeCycles := u32 b 8, restUs := u32 b 12 }) s).diesDone seq (u32 b 0))

/-! ### Drain and return (R161, R167, R173, R414) -/

/-- The physical clusters left to a pitch, those of given dies of this module added or taken away. -/
def State.physical (s : State) (p : Pitch) (plus minus : List Nat) : List LEntry :=
  (freshMap p.members).filter fun e =>
    e.module != s.fab.moduleId || (((s.die e.die).st = .inService || plus.contains e.die) && !minus.contains e.die)

/-- The touched pages of a pitch as a restore places them: logical cluster and window page. -/
def touchedPages (p : Pitch) : List (Nat × Nat) :=
  p.touched.map fun pg => (pg * Config.pageBytes / 2 ^ 32, pg * Config.pageBytes % 2 ^ 32 / Config.pageBytes)

/-- The placement onto a list of physical clusters, as a restore makes it; `none` where the clusters or pages do not fit. -/
def placement (p : Pitch) (ps : List LEntry) : Option (List LEntry × Option (List (Nat × Nat × Nat))) :=
  let n := p.lclusters
  if ps = [] || Config.spareImages + 1 < ceilDiv n ps.length then none
  else (restorePages (touchedPages p) n ps.length).map fun t => ((List.range n).map fun l => ps.getD (l % ps.length) ⟨0, 0, 0⟩, t)

/-- The logical clusters of this module that a placement moves. -/
def State.movers (s : State) (p : Pitch) (target : List LEntry) (pages : Option (List (Nat × Nat × Nat))) : List Nat :=
  (List.range p.lclusters).filter fun l =>
    (p.place? s l).isSome && (p.lmap[l]? != target[l]? || pages != p.pages)

/-- The key ranges of a logical cluster's touched pages and SRAM under a pitch map: start and bytes. -/
def clusterRanges (s : State) (p : Pitch) (l : Nat) (first : Bool) : List (Nat × Nat) :=
  let pages := (touchedPages p).filter fun x => x.1 = l
  let keys := pages.map fun x =>
    match translate s p (l * 2 ^ 32 + x.2 * Config.pageBytes) with
    | some (.cell _ k) => (k, Config.pageBytes)
    | _ => (0, 0)
  let sram := (p.lmap[l]?).elim (0, 0) fun e =>
    (if first then memKey s e (sramOff e.cluster 0) else imageKey p.tag l 0, Config.sramBytes)
  keys ++ [sram]

/-- The logical cluster is loaded in its physical cluster. -/
def State.isLoaded (s : State) (p : Pitch) (l : Nat) : Bool := (p.lmap[l]?).elim false fun e => loaded s e l

/-- What stands in one list of ranges, moved to another. -/
def moveRanges (m : List Host.Cell) (olds news : List (Nat × Nat)) : List Host.Cell :=
  let cells := (olds.zip news).flatMap fun x => (memCells m x.1.1 x.1.2).map fun c => (x.2.1 + c.1, c.2)
  memWrite ((olds ++ news).foldl (fun m r => memClear m r.1 r.2) m) cells

/-- The same of the uncorrectable units. -/
def moveBad (l : List Nat) (olds news : List (Nat × Nat)) : List Nat :=
  let out := l.filter fun u => (olds ++ news).all fun r => u < r.1 || r.1 + r.2 ≤ u
  (olds.zip news).foldl (fun acc x =>
    acc ++ (l.filter fun u => x.1.1 ≤ u && u < x.1.1 + x.1.2).map fun u => x.2.1 + (u - x.1.1)) out

/-- Dies that a drain leaves DRAINED with their clusters OFF, or that a return puts back IN_SERVICE (R400, R414). -/
def State.settleDies (s : State) (dies : Nat) (drain : Bool) : State :=
  (maskBits dies 24).foldl (fun s d => s.updDie d fun d =>
    if drain then { d.clustersOff with st := .drained }
    else { d with st := .inService, clusters := d.clusters.map fun c => { c with st := .resting } }) s

/-- A cluster whose loaded logical cluster moves away holds nothing loaded. -/
def Die.unload (ls : List Nat) (d : Die) : Die :=
  { d with clusters := d.clusters.map fun c =>
      if c.current.elim false ls.contains then { c with slots := [], current := none, lastSwitch := none } else c }

/-- A pitch with the new entries of some logical clusters in effect (R167). -/
def Pitch.movedTo (p : Pitch) (m : MovePlan) (ls : List Nat) : Pitch :=
  { p with
    lmap := p.lmap.mapIdx fun l e => if ls.contains l then m.target.getD l e else e
    move := some { m with stopped := m.stopped.filter (fun l => !ls.contains l), moved := m.moved ++ ls } }

/-- The new pages of logical cluster l lie where k still has pages. -/
def Pitch.clash (p : Pitch) (m : MovePlan) (l k : Nat) : Bool :=
  k != l && p.lmap[k]? = m.target[l]? &&
  match m.pages, p.pagesOf k with
  | some t, some u => t.any fun x => x.1 = l && u.any fun y => y.1 = k && y.2.2 = x.2.2
  | _, _ => true

/-- The stopped logical clusters that may move now: their new pages are free of every one that stays where it is. Those that take
each other's places move together. -/
def Pitch.mayMove (p : Pitch) (m : MovePlan) : List Nat :=
  let all := m.waiting ++ m.stopped
  (List.range m.stopped.length).foldl (fun ls _ =>
    ls.filter fun l => (all.filter fun k => !ls.contains k).all fun k => !p.clash m l k) m.stopped

/-- The logical clusters to load into the clusters of the pitch's dies that hold none, the lowest that is placed there. -/
def State.toLoad (s : State) (p : Pitch) : List Nat :=
  p.dies.flatMap fun d => (List.range Config.clusters).filterMap fun c =>
    if ((s.die d).cluster c).current.isNone then firstOn s.fab.moduleId p.lmap d c else none

/-- The slots of a logical cluster under a new map: in its physical cluster where it is loaded, else beside it. -/
def State.placeSlots (s : State) (p : Pitch) (loads : List Nat) (x : Nat × List (Nat × Acc)) : State :=
  match p.place? s x.1 with
  | none => s
  | some pl =>
    if loads.contains x.1 then s.updCluster pl fun c => { c with slots := x.2, current := some x.1, lastSwitch := none }
    else s.updPitch p.tag fun p => { p with swapped := p.swapped ++ [⟨x.1, x.2⟩] }

/-- Logical clusters of a drain or return move: their pages, SRAM images and slots, and with them their entries of the pitch map
(R161, R167). -/
def State.moveClusters (s : State) (p : Pitch) (m : MovePlan) (ls : List Nat) : State :=
  let q := p.movedTo m ls
  let u := p.dies.foldl (fun s d => s.updDie d (Die.unload ls)) s
  let loads := u.toLoad q
  let all := ls ++ loads.filter fun l => !ls.contains l
  let olds := all.flatMap fun l => clusterRanges s p l (s.isLoaded p l)
  let news := all.flatMap fun l => clusterRanges s q l (loads.contains l)
  let slots := all.map fun l => (l, s.slotsOf p l)
  let s := (u.setMem (moveRanges u.mem olds news)).setBad (moveBad u.bad olds news)
  let s := s.updPitch p.tag fun _ => { q with swapped := p.swapped.filter fun x => !all.contains x.lcluster }
  slots.foldl (fun s x => s.placeSlots q loads x) s

/-- A drain or return goes on: what may move moves, and with the last logical cluster the placement is complete (R167, R414). -/
def State.applyMove (s : State) (p : Pitch) (m : MovePlan) : State :=
  let s := s.moveClusters p m (p.mayMove m)
  if m.waiting != [] then s
  else
    (s.updPitch p.tag fun p => { p with pages := m.pages, move := none }).settleDies m.dies m.drain

/-- A drain or return answers once every pitch that it touches has moved. -/
def State.moveDone (s : State) (seq : Nat) : State :=
  if s.pitches.any fun p => p.move.elim false fun m => m.seq = seq then s
  else match s.ring.journal.find? fun r => r.seq = seq with
    | none => s
    | some r => s.diesDone seq (u32 r.body 0)

/-- The pitch has a drain or return in progress that belongs to a request. -/
def State.movingFor (s : State) (seq : Nat) : Bool := s.pitches.any fun p => p.move.elim false fun m => m.seq = seq

/-- The plan that moves a pitch of this module for a request; `none` where the clusters or pages do not fit. -/
def State.planMove (s : State) (seq : Nat) (p : Pitch) (dies : List Nat) (drain : Bool) : Option MovePlan :=
  let mine := dies.filter fun d => p.localDies.testBit d
  let ps := if drain then s.physical p [] mine else s.physical p mine []
  (placement p ps).map fun t =>
    { seq := seq, dies := maskOf mine, drain := drain, waiting := s.movers p t.1 t.2, stopped := [], target := t.1, pages := t.2 }

/-- A plan begins; one that moves nothing takes effect at once. The dies of a return are IN_SERVICE from then on. -/
def State.beginMove (s : State) (tag : Nat) (m : MovePlan) : State :=
  match s.pitch? tag with
  | none => s
  | some p =>
    if m.waiting = [] then s.applyMove p m
    else (if m.drain then s else s.settleDies m.dies false).updPitch tag fun p => { p with move := some m }

/-- The plans of every pitch that holds one of the dies, or `none` where one does not fit. -/
def State.planMoves (s : State) (seq : Nat) (dies : List Nat) (drain : Bool) : Option (List (Nat × MovePlan)) :=
  (s.pitches.filter fun p => dies.any fun d => p.localDies.testBit d).foldl (fun acc p =>
    acc.bind fun l => (s.planMove seq p dies drain).map fun m => l ++ [(p.tag, m)]) (some [])

/-- The logical die of a pitch that a die of this module is (R308). -/
def Pitch.ldieOf (p : Pitch) (module die : Nat) (l : Nat) : Bool := ((freshMap p.members)[16 * l]?).elim false fun e =>
  e.module = module && e.die = die

/-- The position of a die among the pitch's dies, for the home dies of its regions (R179). -/
def Pitch.homesPage (p : Pitch) (module die : Nat) : Bool :=
  match p.dies.idxOf? die with
  | none => false
  | some i => p.regions.any fun r => r.home = module && i < ceilDiv r.length (if r.lent then 2 ^ 21 else 2 ^ 30)

/-- A DRAIN of the die is BUSY (R414). -/
def State.drainBusy (s : State) (d : Nat) : Bool :=
  let st := (s.die d).st
  st = .draining || st = .off || st = .fault || (s.ring.started && d = pairDie s.ring.primary) ||
  s.pitches.any fun p => p.localDies.testBit d &&
    (p.move.isSome || p.homesPage s.fab.moduleId d || (p.queues.any fun q => !q.own && p.ldieOf s.fab.moduleId d q.homeLdie) ||
      p.runs.any fun r => (r.owners p).any fun l => p.ldieOf s.fab.moduleId d l)

/-- Gulper instances of a pitch enter RESTRICTED (R221, R414). -/
def Pitch.restrict (p : Pitch) : Pitch :=
  { p with models := p.models.map fun m => { m with booth := m.booth.changeMode true } }

/-- The dies of a drain that has been accepted: DRAINING in a pitch, DRAINED with their clusters OFF outside one. -/
def State.startDrain (s : State) (dies : List Nat) : State :=
  dies.foldl (fun s d =>
    if (s.dieTag? d).isSome then s.updDie d fun d => { d with st := .draining }
    else s.updDie d fun d => { d.clustersOff with st := .drained }) s

/-- PWR_DIE_STATE DRAIN. Given again for a drain in progress, it waits. -/
def execPwrDieStateDrain (seq : Nat) (s : State) : Host.Outcome State Fault Refusal :=
  .next (s.onDies seq 3 false false fun b ds =>
    if s.movingFor seq then s
    else
      let new := ds.filter fun d => (s.die d).st != .drained
      if new.any s.drainBusy then s.respond seq stBusy []
      else match s.planMoves seq new true with
        | none => s.respond seq stNoCapacity []
        | some plans =>
          let s := s.startDrain new
          let s := plans.foldl (fun s m => (s.updPitch m.1 Pitch.restrict).beginMove m.1 m.2) s
          if s.movingFor seq then s else s.diesDone seq (u32 b 0))

/-- An OFF die whose stack and clusters come on again: its pages are UNMARCHED (R326, R400). -/
def Die.switchOn (d : Die) : Die := { { d with st := .inService }.bringUp with marched := [], zeroed := [] }

/-- PWR_DIE_STATE RETURN. A die under test makes it BUSY (R422). -/
def execPwrDieStateReturn (seq : Nat) (s : State) : Host.Outcome State Fault Refusal :=
  .next (s.onDies seq 4 false false fun b ds =>
    if s.movingFor seq then s
    else if ds.any fun d => !((s.die d).st = .drained || (s.die d).st = .off) || (s.die d).testing ||
        s.pitches.any fun p => p.localDies.testBit d && p.move.isSome then s.respond seq stBusy []
    else match s.planMoves seq ds false with
      | none => s.respond seq stNoCapacity []
      | some plans =>
        let s := ds.foldl (fun s d =>
          if (s.dieTag? d).isSome then s
          else s.updDie d fun d =>
            if d.st = .off then d.switchOn
            else { d with st := .inService, clusters := d.clusters.map fun c => { c with st := .resting } }) s
        let s := plans.foldl (fun s m => s.beginMove m.1 m.2) s
        if s.movingFor seq then s else s.diesDone seq (u32 b 0))

/-- PWR_DIE_STATE OFF. -/
def execPwrDieStateOff (seq : Nat) (s : State) : Host.Outcome State Fault Refusal :=
  .next (s.onDies seq 5 false false fun b ds =>
    if ds.any fun d => (s.dieTag? d).isSome || (s.dieLend? d).isSome || (s.die d).st = .fault || (s.die d).testing then
      s.respond seq stBusy []
    else
      let new := ds.filter fun d => (s.die d).st != .off
      (new.foldl (fun s d => (s.loseDie d).updDie d fun d => { d with st := .off }) s).diesDone seq (u32 b 0))

/-- LOGICAL_CLUSTER_MOVE: a logical cluster of a pitch in a drain or return reaches its item boundary and moves; it waits there while
its new pages are not free (R167, R414). -/
def execLogicalClusterMove (tag lcluster : Nat) (s : State) : Host.Outcome State Fault Refusal :=
  .next (match s.pitch? tag with
    | none => s
    | some p => match p.move with
      | none => s
      | some m =>
        if !m.waiting.contains lcluster ||
            p.items.any (fun i => i.w.lcluster = lcluster && i.dispatched && i.phase != .finished) then s
        else
          let m := { m with waiting := m.waiting.filter (· != lcluster), stopped := m.stopped ++ [lcluster] }
          (s.applyMove p m).moveDone m.seq)

/-! ### Keeper-only mode by command, and its exit (R409, R410) -/

/-- PWR_DIE_STATE KEEPER_ONLY: answered first, for the entry loses the journal. -/
def execPwrDieStateKeeperOnly (seq : Nat) (s : State) : Host.Outcome State Fault Refusal :=
  .next (s.onOperatorOp seq 0x0901 4 8 6 fun r =>
    if !dieStateOk r.body false false false then s.respond seq stBadCommand []
    else if s.kpr.mod = .keeperOnly then s.respond seq stBusy []
    else (s.respond seq stOk []).keeperOnly 3)

/-- A port after an exit: it keeps its FABRIC channel roles, and no host traffic is under way (R403, R410). -/
def Port.exited (p : Port) : Port :=
  { p with
    roles := p.roles.map fun r => if r = .fabric then r else .off
    stamped := List.replicate 8 0, offs := [], hostOut := [], heldWrites := [], openWrites := [] }

/-- A die after an exit: as after a module reset, with its routes and its router's frames, and then brought up; a dip that
is still in progress divides its clocks from then on (R407, R408). -/
def Die.exited (dip : Bool) (d : Die) : Die :=
  { { d.reset with routes := d.routes, router := d.router }.bringUp with divided := dip }

/-- An accepted exit: steps 4 and 5 of R395, with what R410 keeps; all else is as R403 states. -/
def State.exitKeeperOnly (s : State) : State :=
  let s := s.setDies (s.dies.map (Die.exited s.power.dip))
  let s := s.setPorts (s.ports.map Port.exited)
  let s := (s.setRing {}).setBoxes ((List.range Config.mailboxes).map fun m =>
    { outstanding := if m = 0 then s.countedRsp else 0 })
  let s := s.setFw { s.fw with running := none, runningBytes := [], measurement := [], attestKey := none }
  let s := s.setPower { s.power with
    phase := .up, pwrOk := true, railsAt := s.now, pwarnW := 0, pwarn := false, pwarnBelow := none, powerLimited := false, currentLimited := false
    lastDown := none, lastUp := none }
  s.setKpr { s.kpr with mod := .booting }

/-- PWR_DIE_STATE EXIT. -/
def execPwrDieStateExit (seq : Nat) (s : State) : Host.Outcome State Fault Refusal :=
  .next (s.onOperatorOp seq 0x0901 4 8 7 fun r =>
    if !dieStateOk r.body false false false then s.respond seq stBadCommand []
    else if s.kpr.mod != .keeperOnly || s.pitches != [] || s.lends != [] || s.dies.any (fun d => 680 < d.tj) then
      s.respond seq stBusy []
    else (s.respond seq stOk []).exitKeeperOnly)

/-! ### Telemetry and the event log (R411 to R413) -/

/-- MOD_STATUS.STATE (R413, R436). -/
def ModSt.code : ModSt → Nat
  | .booting => 0 | .ready => 1 | .recovery => 2 | .keeperOnly => 3

/-- The module runs without a standby (R369). -/
def State.noStandby (s : State) : Bool := s.ring.started && !s.ring.standby

/-- Clusters WORKING, DOZING, RESTING and OFF (R413, R442). -/
def Die.clusterCounts (d : Die) : List Nat :=
  [ClusterSt.working, .dozing, .resting, .off].map fun x => (d.clusters.filter fun c => c.st = x).length

/-- One bit per rail that has lost a phase (R442). -/
def Die.lostRails (d : Die) : Nat := maskOf ((List.range 8).filter fun r => d.phasesLost.any fun x => x.1 = r)

/-- The module record of R413; supply and coolant read as zero for a pitch mailbox. -/
def State.moduleRecord (s : State) (operator : Bool) : Bytes :=
  let p := s.power
  let only := fun (n : Nat) => if operator then n else 0
  le 8 s.now ++ le 4 s.kpr.mod.code ++ le 4 (p.dip.toNat + 2 * p.powerLimited.toNat + 4 * s.noStandby.toNat) ++
  le 4 (only p.vinMv) ++ le 4 (only p.iinMa) ++ le 4 (only p.pinW) ++ le 2 (only (unsigned p.coolantIn 16)) ++
  le 2 (only (unsigned p.coolantOut 16)) ++ le 8 p.dips ++ le 24 0

/-- The die record of R413. -/
def Die.record (i : Nat) (d : Die) : Bytes :=
  le 1 i ++ le 1 d.st.code ++ le 1 d.step ++ le 1 d.allowed ++ le 2 (unsigned d.tj 16) ++ le 2 d.vddCoreMv ++ le 4 d.diePower ++
  d.clusterCounts.flatMap (le 1) ++ le 8 (totalOf d.corrDram) ++ le 8 (totalOf d.corrSram) ++ le 4 d.lostRails ++ le 28 0

/-- TELEMETRY_READ 0x0902. -/
def execTelemetryRead (seq : Nat) (s : State) : Host.Outcome State Fault Refusal :=
  .next (s.onOperator seq 0x0902 fun r =>
    let mask := u32 r.body 0
    let op := r.mailbox = 0
    if 2 ^ 24 ≤ mask || !restZero r.body 4 then s.respond seq stBadCommand []
    else if !op && (maskBits mask 24).any fun d => s.dieTag? d != some r.tag then s.respond seq stNotPermitted []
    else s.respond seq stOk (s.moduleRecord op ++ (maskBits mask 24).flatMap fun d => (s.die d).record d))

/-- The 32 bytes of an event-log entry (R411). -/
def Event.bytes (e : Event) : Bytes :=
  le 8 e.seq ++ le 8 e.time ++ le 2 e.code ++ le 1 e.severity ++ le 1 e.die ++ le 2 e.tag ++ le 2 0 ++ le 8 e.data

/-- OLDEST_SEQ. -/
def Log.oldest (l : Log) : Nat := l.entries.head?.elim l.next (·.seq)

/-- EVENT_LOG_READ 0x0903. -/
def execEventLogRead (seq : Nat) (s : State) : Host.Outcome State Fault Refusal :=
  .next (s.onOperator seq 0x0903 fun r =>
    let b := r.body
    if u32 b 8 < 1 || 120 < u32 b 8 || !restZero b 12 then s.respond seq stBadCommand []
    else
      let es := (s.log.entries.filter fun e => u64 b 0 ≤ e.seq && (r.mailbox = 0 || e.tag = r.tag)).take (u32 b 8)
      s.respond seq stOk (le 8 s.log.next ++ le 8 s.log.oldest ++ le 4 es.length ++ le 4 0 ++ es.flatMap Event.bytes))

end Sys2Proof.Machine
end

