-- ==== Sys2Proof/Machine/SelfTest.lean ====
section
/-! DEFINITION. Memory errors and their repair in service (R175, R176, R426), the marches of released memories (R326, R416, R421),
and the self-test and repair commands (R420 to R429). -/

namespace Sys2Proof.Machine

open Sys2Proof

/-! ### Corrected errors, patrol scrub and repair in service -/

/-- An offset in a die's space lies in cluster SRAM (R163). -/
def isSram (off : Nat) : Bool := 0x10000000000 ≤ off

/-- KIND and row of an offset in a die's space: a row of 64 words of SRAM counted over the die (R415), or a DRAM row as its
channel × 2^32 plus the row in the channel (R164, R429). -/
def rowOf (off : Nat) : Nat × Nat :=
  if isSram off then (0, (off - 0x10000000000) / 512)
  else (3, Config.dramChannel off * 2 ^ 32 + (Config.dramRow off).toNat)

/-- One more by key. -/
def countKey (l : List (Nat × Nat)) (k : Nat) : List (Nat × Nat) := insertKey l k (lookupD l k 0 + 1)

/-- Local counts of 24 hours (R426). -/
def dayCounts : Nat := 2160000000000

/-- A corrected error of a row, remembered for 24 hours (R426). -/
def Die.rowError (d : Die) (r : Nat × Nat) (now : Nat) : Die :=
  { d with rowErrors := (d.rowErrors.filter fun e => !due e.2.2 dayCounts now) ++ [(r.1, r.2, now)] }

/-- A corrected error counted by its die, per channel and per cluster SRAM, and remembered with its row (R175, R426). -/
def Die.corrected (d : Die) (off now : Nat) : Die :=
  { d.rowError (rowOf off) now with
    corrDram := if isSram off then d.corrDram else countKey d.corrDram (Config.dramChannel off)
    corrSram := if isSram off then countKey d.corrSram ((off - 0x10000000000) / Config.sramBytes) else d.corrSram }

/-- The code of a place: that of its offset's store, and SECDED of every other bank (R174). -/
def codeAt (die : Nat) : StorePlace → StoreCode
  | .space offset => codeOf (localKey die offset)
  | .bank _ _ => wordCode

/-- A corrected error at a place counted, and remembered with its row (R175, R426). -/
def Die.correctedAt (d : Die) (now : Nat) : StorePlace → Die
  | .space offset => d.corrected offset now
  | .bank kind row => d.rowError (kind, row) now

/-- CORRECTED_ERROR_WRITEBACK: an error that the store's code corrects; the corrected data are what the store holds, so memory is
unchanged (R174, R175). -/
def execCorrectedErrorWriteback (die : Nat) (place : ErrorAt) (s : State) : Host.Outcome State Fault Refusal :=
  .next (if (codeAt die place.place).decode place.symbols s.free s.now = .corrected then
      s.updDie die fun d => d.correctedAt s.now place.place
    else s)

/-- The pitch address of a byte of a die of a pitch: of its DRAM windows, or of the SRAM of the logical cluster loaded. -/
def State.pitchAddr? (s : State) (p : Pitch) (die off : Nat) : Option Nat :=
  if isSram off then
    let o := off - 0x10000000000
    ((s.die die).cluster (o / Config.sramBytes)).current.bind fun l =>
      if o % Config.sramBytes < sramMapped p then some (sramBase + l * 2 ^ 24 + o % Config.sramBytes) else none
  else if off % Config.partitionBytes < Config.windowBytes then touchAddr s.fab.moduleId p die off
  else none

/-- An uncorrectable unit that patrol scrub finds: pitch memory gets an entry with the tag and the pitch address, and
operator-owned memory an ALERT (R176, R177). -/
def State.scrubFound (s : State) (die off : Nat) : State :=
  let s := s.setBad (insertNat s.bad (unitOf (localKey die off)).1)
  match (s.dieTag? die).bind s.pitch? with
  | none => s.logNote 3 "UNCORRECTABLE_OPERATOR" (some 2) die noTag off
  | some p => match s.pitchAddr? p die off with
    | some a => s.logFact 3 "UNCORRECTABLE" none die p.tag a
    | none => s.logNote 3 "UNCORRECTABLE_OPERATOR" (some 2) die noTag off

/-- An uncorrectable unit at a place. Every bank that the die's space does not show is operator-owned but the accumulator buffer, KIND
1, whose word's pitch address does not exist (R177, R429). -/
def State.scrubFoundAt (s : State) (die : Nat) : StorePlace → State
  | .space offset => s.scrubFound die offset
  | .bank kind row =>
    if kind = 1 then s.logNote 3 "UNCORRECTABLE" none die ((s.dieTag? die).getD noTag) row
    else s.logNote 3 "UNCORRECTABLE_OPERATOR" (some 2) die noTag row

/-- PATROL_SCRUB (R176): a unit read, with the bad symbols that it holds. -/
def execPatrolScrub (die : Nat) (place : StorePlace) (symbols : Nat) (s : State) : Host.Outcome State Fault Refusal :=
  .next (
    if !(s.die die).railsUp then s
    else
      let s := match place with
        | .space offset => if isSram offset then s else s.dramNeed die
        | .bank _ _ => s
      match (codeAt die place).decode symbols s.free s.now with
      | .clean => s
      | .corrected => s.updDie die fun d => d.correctedAt s.now place
      | .uncorrectable => s.scrubFoundAt die place)

/-- Corrected errors of a row within the last 24 hours. -/
def Die.rowCount (d : Die) (kind row now : Nat) : Nat :=
  (d.rowErrors.filter fun e => e.1 = kind && e.2.1 = row && !due e.2.2 dayCounts now).length

/-- INSTANCE and row address of a failing row (R429): 256 rows of a bank of 16,384 words. -/
def rowInstance (kind row : Nat) : Nat × Nat := if kind = 3 then (row / 2 ^ 32, row % 2 ^ 32) else (row / 256, row % 256)

/-- The failure entry of a row repaired in service: no engine recorded a signature. -/
def State.rowFailure (s : State) (kind row : Nat) : Failure :=
  let i := rowInstance kind row
  let n := if kind = 0 then 64 else 8
  { kind := kind, cluster := if kind ≤ 1 || kind = 3 then i.1 / n else 0, unit := if kind ≤ 1 then i.1 % n else i.1, addr := i.2
    column := 0, observed := (Config.observedSignature s.free).toNat }

/-- A record of a repair in service (R429). -/
def State.recordRow (s : State) (die kind row : Nat) : State :=
  let id := s.tests.nextId
  let f := s.rowFailure kind row
  let s := s.openRecord ([0, 0, 2, 1, 0, 4, 5, 6].getD kind 0) 4 (2 ^ die) [] none
  let s := s.updRecord id fun r => { r with entries := [(die, 1, f)], repairsApplied := 1 }
  s.draw.logRepairs die [(1, f)]

/-- ROW_REPAIR_IN_SERVICE: a row with 4 corrected errors within 24 hours takes a spare row, or a WARN is written (R426). -/
def execRowRepairInService (die kind row : Nat) (s : State) : Host.Outcome State Fault Refusal :=
  .next (
    let d := s.die die
    let i := rowInstance kind row
    if d.rowCount kind row s.now < 4 then s
    else if !d.sparesTested then s.logNote 7 "ROW_NOT_REPAIRED" (some 1) die noTag row
    else match mendRow kind i.1 (some d) i.2 with
      | none => s.logNote 7 "ROW_NOT_REPAIRED" (some 1) die noTag row
      | some d' =>
        let s := s.updDie die fun _ =>
          { d' with rowErrors := d'.rowErrors.filter fun e => !(e.1 = kind && e.2.1 = row) }
        s.recordRow die kind row)

/-! ### Marches of released memories (R326, R421) -/

/-- UNMARCHED_FIRST_WRITE: the page is marched and zeroed before the write, or only zeroed, with an event, outside the
window (R326). -/
def execUnmarchedFirstWrite (die page : Nat) (s : State) : Host.Outcome State Fault Refusal :=
  .next (
    let d := s.die die
    if Config.diePages ≤ page || !d.railsUp then s else s.firstWrite die page)

/-- The lowest UNMARCHED page of a die. -/
def Die.nextPage (d : Die) : Option Nat := (List.range Config.diePages).find? fun g => !d.marched.contains g

/-- The record of the background march of a die, opened with its first page (R421, R429). -/
def State.beginMarch (s : State) (die : Nat) : State :=
  if (s.die die).march.isSome then s
  else
    let id := s.tests.nextId
    (s.openRecord 1 1 (2 ^ die) [die] none).updDie die fun d =>
      { d with march := some id, lastTest := some id, lastTarget := 1, lastStatus := stOk, lastUnrepaired := 0 }

/-- A page is marched: it ends as encoded zeros, the PLLs of its die run, and what the engines found is recorded without a
repair (R416, R420, R424). -/
def State.marchPage (s : State) (die page : Nat) (fs : List Failure) : State :=
  let held := (s.dieTag? die).isSome || (s.dieLend? die).isSome
  let d := s.die die
  let s := s.updDie die fun d =>
    { d.toAllowed with
      cpllOn := true, marched := insertNat d.marched page, zeroed := d.zeroed.filter (· != page), dpllOn := true
      dpllIdle := if held then none else some s.now, lastUnrepaired := d.lastUnrepaired + fs.length }
  match d.march with
  | none => s
  | some id =>
    let s := s.updRecord id fun r => r.found die d ⟨d, fs.map ((0, ·)), none⟩
    if fs != [] && d.lastUnrepaired = 0 then s.logEvent 0x0701 1 die noTag id else s

/-- BACKGROUND_MARCH_PAGE: pages are marched in ascending order, inside the window (R326, R416, R421). A page zeroed and written
outside the window keeps its data (notes/assumptions/62.md). With the last page the march's record is closed. -/
def execBackgroundMarchPage (die : Nat) (page : MarchedPage) (s : State) : Host.Outcome State Fault Refusal :=
  .next (
    let d := s.die die
    if d.nextPage = none then s.endMarch die false
    else if d.startable && d.test.isNone && d.nextPage = some page.page then
      let s := (s.beginMarch die).marchPage die page.page (recordedFailures page.failures)
      if (s.die die).nextPage = none then s.endMarch die false else s
    else s)

/-- UNMARCHED_SRAM_MARCH: the test of released SRAM-class memories that were only zeroed begins when the die is next in the window
and belongs to no pitch; TEST_COMPLETE ends it (R421). -/
def execUnmarchedSramMarch (die : Nat) (s : State) : Host.Outcome State Fault Refusal :=
  .next (
    let d := s.die die
    if d.sramUnmarched && d.startable && d.test.isNone && (s.dieTag? die).isNone then s.startTest 0 1 true [die] none 0 else s)

/-! ### Tests that end (R419, R420) -/

/-- TEST_WINDOW_LOST: the die has left the window (R420). -/
def execTestWindowLost (die : Nat) (s : State) : Host.Outcome State Fault Refusal :=
  .next (if (s.die die).inWindow then s else s.abandonTest die)

/-- TEST_COMPLETE, with the failures that the engines recorded (R419). -/
def execTestComplete (die : Nat) (failures : List Failure) (s : State) : Host.Outcome State Fault Refusal :=
  .next (match (s.die die).test with
    | none => s
    | some t => if (s.die die).inWindow then s.finishTest die t failures else s)

/-- SPARES_TEST_AFTER_POWER_ON: the first time that the die is in the window, its unused spares are tested (R421, R423). -/
def execSparesTestAfterPowerOn (die : Nat) (failures : List Failure) (s : State) : Host.Outcome State Fault Refusal :=
  .next (
    let d := s.die die
    if d.sparesTested || !d.startable || d.testing || 24 ≤ die then s
    else
      let s := s.startTest 3 2 false [die] none 0
      (s.die die).test.elim s fun t => s.finishTest die t failures)

/-! ### BIST_RUN (R422) -/

/-- The fields of a BIST_RUN body are acceptable. -/
def bistOk (b : Bytes) : Bool :=
  u32 b 0 < 2 ^ 24 && u8 b 4 ≤ 6 && u8 b 6 < 2 && restZero b 7 &&
  (if u8 b 4 = 5 then u8 b 5 ≤ 71 && u32 b 0 = 2 ^ (u8 b 5 / 3) else u8 b 5 = 0)

/-- The requirement of a target holds on a die (R422). -/
def State.bistReady (s : State) (target port d : Nat) : Bool :=
  !(s.die d).testing &&
  (if target ≤ 2 then (s.die d).st = .drained
   else if target = 4 then
     (d = 0 || d = 23) && (s.ring.fenced = some (pairOf d) || (s.ring.standby && s.ring.primary != pairOf d))
   else if target = 5 then (s.port port).st = .disabled
   else true)

/-- BIST_RUN 0x0801: it answers when every addressed die has finished. -/
def execBistRun (seq : Nat) (s : State) : Host.Outcome State Fault Refusal :=
  .next (s.onOperator seq 0x0801 fun r =>
    let b := r.body
    let ds := maskBits (u32 b 0) 24
    if s.tests.records.any fun t => t.request = some seq then s
    else if !bistOk b then s.respond seq stBadCommand []
    else if !(ds.all (s.bistReady (u8 b 4) (u8 b 5))) then s.respond seq stBusy []
    else s.startTest (u8 b 4) 0 (bit (u8 b 6) 0) ds (some seq) (u8 b 5))

/-! ### REPAIR_SOFT and REPAIR_FUSE (R427, R428) -/

/-- Failures of a record without a repair, on one die. -/
def TestRecord.open? (r : TestRecord) (die : Nat) : List Failure :=
  (r.entries.filter fun e => e.1 = die && (e.2.1 = 0 || e.2.1 = 4)).map (·.2.2)

/-- The dies of a record with a failure that has no repair. -/
def TestRecord.openDies (r : TestRecord) : List Nat := (List.range Config.dies).filter fun d => r.open? d != []

/-- The failures of one die of a record repaired: the machine, how many repairs that took, and how many failures are left. -/
def State.repairDie (id : Nat) (x : State × Nat × Nat) (die : Nat) : State × Nat × Nat :=
  let s := x.1
  match s.tests.records.find? fun r => r.testId = id with
  | none => x
  | some r =>
    let m := (s.die die).mend (r.open? die)
    let left := unrepaired m.done
    let n := m.die.repairs.length - (s.die die).repairs.length
    let mended := m.done.length - left
    let s := s.updDie die fun _ => { m.die with lastUnrepaired := left, lastStatus := if left = 0 then stOk else stDegraded }
    let s := s.updRecord id fun r =>
      { r with
        entries := (r.entries.filter fun e => !(e.1 = die && (e.2.1 = 0 || e.2.1 = 4))) ++ m.done.map fun y => (die, y.1, y.2)
        repairsApplied := r.repairsApplied + n, unrepaired := r.unrepaired - mended
        faulted := if m.exhausted.isSome then r.faulted ||| 2 ^ die else r.faulted }
    let s := s.logRepairs die m.done
    (m.exhausted.elim s fun k => s.exhaust die k, x.2.1 + n, x.2.2 + left)

/-- REPAIR_SOFT 0x0802. -/
def execRepairSoft (seq : Nat) (s : State) : Host.Outcome State Fault Refusal :=
  .next (s.onOperator seq 0x0802 fun r =>
    let id := u32 r.body 0
    if !restZero r.body 4 then s.respond seq stBadCommand []
    else match s.tests.records.find? fun t => t.testId = id with
      | none => s.respond seq stNotFound []
      | some t =>
        if t.openDies.any fun d => (s.die d).st != .drained || (s.die d).lastTest != some id || (s.die d).testing then
          s.respond seq stBusy []
        else
          let x := t.openDies.foldl (State.repairDie id) (s, 0, 0)
          x.1.respond seq (if x.2.2 = 0 then stOk else stDegraded) (le 2 x.2.1 ++ le 2 x.2.2))

/-- Soft repairs of a die that are not fused. -/
def Die.unfused (d : Die) : Nat := (d.repairs.filter fun r => !r.fused).length

/-- The first repair of a list that is not fused becomes so. -/
def fuseFirst : List Repair → List Repair
  | [] => []
  | r :: l => if r.fused then r :: fuseFirst l else { r with fused := true } :: l

/-- One soft repair of a die programmed into fuses: the oldest that is not fused. -/
def Die.fuse (d : Die) : Die := { d with repairs := fuseFirst d.repairs, fuseUsed := d.fuseUsed + 1 }

/-- The conditions of R428 hold: the input, no dip (R408), and the junctions. -/
def State.fusable (s : State) (ds : List Nat) : Bool :=
  40000 ≤ s.power.vinMv && s.power.vinMv ≤ 50000 && !s.power.dip && ds.all fun d => 160 ≤ (s.die d).tj && (s.die d).tj ≤ 680

/-- A REPAIR_FUSE has ended: an event for each die on which it programmed entries, and the response, which holds the counts
where it went to its end (R428). -/
def State.fuseEnd (s : State) (f : Fusing) (ds : List Nat) (status : Nat) : State :=
  let n := fun d => f.done.countP (· = d)
  let s := ds.foldl (fun s d => if n d = 0 then s else s.logEvent 0x0705 0 d noTag (n d)) (s.setTests { s.tests with fusing := none })
  s.respond f.seq status (if status = stOk then ds.flatMap fun d => le 2 (n d) ++ le 2 (512 - (s.die d).fuseUsed) else [])

/-- The next entry of a REPAIR_FUSE, after its conditions have been checked again; with the last one it ends. -/
def State.fuseNext (s : State) (f : Fusing) (ds : List Nat) : State :=
  if !s.fusable ds then s.fuseEnd f ds stOutOfRange
  else match f.todo with
    | [] => s.fuseEnd f ds stOk
    | d :: rest =>
      let f := { f with todo := rest, done := f.done ++ [d] }
      let s := s.updDie d Die.fuse
      if rest = [] then s.fuseEnd f ds stOk else s.setTests { s.tests with fusing := some f }

/-- REPAIR_FUSE 0x0803: it programs one entry each time that its row is given. -/
def execRepairFuse (seq : Nat) (s : State) : Host.Outcome State Fault Refusal :=
  .next (s.onOperator seq 0x0803 fun r =>
    let ds := maskBits (u32 r.body 0) 24
    if 2 ^ 24 ≤ u32 r.body 0 || !restZero r.body 4 then s.respond seq stBadCommand []
    else match s.tests.fusing with
      | some f => if f.seq = seq then s.fuseNext f ds else s.respond seq stBusy []
      | none =>
        if !s.fusable ds then s.respond seq stOutOfRange []
        else if ds.any fun d => 512 < (s.die d).fuseUsed + (s.die d).unfused then s.respond seq stNoCapacity []
        else s.fuseNext ⟨seq, ds.flatMap fun d => List.replicate (s.die d).unfused d, []⟩ ds)

/-! ### BIST_RESULT (R429) -/

/-- A failure entry. -/
def entryBytes (e : Nat × Nat × Failure) : Bytes :=
  let f := e.2.2
  le 1 e.1 ++ le 1 f.kind ++ le 1 e.2.1 ++ le 1 0 ++ le 4 (failInst f) ++ le 4 f.addr ++ le 4 0 ++ le 8 f.observed ++
  le 8 (goldenOf f.kind).toNat

/-- The 64-byte summary. -/
def TestRecord.summary (r : TestRecord) : Bytes :=
  le 4 r.testId ++ le 1 r.target ++ le 1 r.origin ++ le 2 r.status ++ le 4 r.dieMask ++ le 4 r.abandoned ++ le 8 r.startAt ++
  le 8 r.endAt ++ le 2 r.entries.length ++ le 2 r.repairsApplied ++ le 2 r.unrepaired ++ le 2 0 ++ le 4 r.faulted ++ le 20 0

/-- The record that a TEST_ID names. -/
def State.record? (s : State) (id : Nat) : Option TestRecord :=
  if id = 0xFFFFFFFF then s.tests.records.getLast? else s.tests.records.find? fun t => t.testId = id

/-- BIST_RESULT 0x0804. -/
def execBistResult (seq : Nat) (s : State) : Host.Outcome State Fault Refusal :=
  .next (s.onOperator seq 0x0804 fun r =>
    let b := r.body
    if u16 b 6 < 1 || 124 < u16 b 6 || !restZero b 8 then s.respond seq stBadCommand []
    else match s.record? (u32 b 0) with
      | none => s.respond seq stNotFound []
      | some t => s.respond seq stOk (t.summary ++ ((t.entries.drop (u16 b 4)).take (u16 b 6)).flatMap entryBytes))

end Sys2Proof.Machine
end

