-- ==== Sys2Proof/Machine/Registers.lean ====
section
/-! DEFINITION. The keeper port and keeper space (R430 to R445), mailbox 0's registers (R371), the test access port (R457), and what
happens at one local count. -/

namespace Sys2Proof.Machine

open Sys2Proof

/-! ### What the registers read (R435 to R444) -/

/-- A bit of a register. -/
def at_ (b : Bool) (i : Nat) : Nat := if b then 2 ^ i else 0

/-- ALERT_N is held low (R407, R440, R441). -/
def State.alertLow (s : State) : Bool := s.log.alertPend != 0 || s.now < s.power.pulseUntil

/-- MOD_STATUS (R436). -/
def State.modStatus (s : State) : Nat :=
  s.kpr.mod.code + at_ s.power.pwrOk 2 + s.ring.primary % 2 * 8 + at_ s.noStandby 4 + at_ s.kpr.serverD23 5 +
  s.fw.flashCode % 4 * 64 + at_ s.alertLow 8

/-- A little-endian word of a byte list. -/
def wordOf (b : Bytes) (off : Nat) : Nat := u32 b off

/-- Half of a 64-bit value: 0 the low, 1 the high. -/
def half (v i : Nat) : Nat := v / 2 ^ (32 * i) % 2 ^ 32

/-- Identity and control registers (R436). -/
def State.readIdentity (s : State) (a : Nat) : Nat :=
  if a < 0x10 then wordOf s.eeprom.serial a
  else match a with
    | 0x10 => s.fab.moduleId % 2 ^ 16 + at_ s.fab.assigned 16
    | 0x14 => 0x0024 + s.eeprom.stepping % 256 * 2 ^ 16
    | 0x18 => s.fw.running.elim 0 fun i => i.version.toNat
    | 0x1C => s.fw.svnMin % 64 + s.fw.running.elim 0 (fun i => i.svn % 64) * 256
    | 0x20 => s.modStatus
    | 0x24 => s.kpr.resetCause % 8
    | 0x28 => s.eeprom.resetCount % 2 ^ 32
    | 0x2C => at_ s.kpr.rstLock 1
    | 0x30 => half s.now 0
    | 0x34 => half s.now 1
    | 0x38 => s.kpr.scratch.toNat
    | _ => 0

/-- Power registers (R438). -/
def State.readPower (s : State) (o : Nat) : Nat :=
  let p := s.power
  match o with
  | 0x00 => p.vinMv
  | 0x04 => p.iinMa
  | 0x08 => p.pinW
  | 0x0C => 0x9A4C9664
  | 0x10 => 0x9C4088B8
  | 0x14 => 0x09C4
  | 0x18 => p.pwarnW
  | 0x1C => at_ p.dip 0 + at_ p.powerLimited 1 + at_ p.currentLimited 2 + at_ p.pwarn 3 + at_ p.vinHigh 4 + at_ p.kprPhaseLost 5
  | 0x20 => half p.dips 0
  | 0x24 => half p.dips 1
  | 0x28 => p.lastDipMv % 2 ^ 16
  | 0x2C => p.lastDipLen
  | 0x30 => unsigned p.coolantIn 16 + unsigned p.coolantOut 16 * 2 ^ 16
  | _ => 0

/-- The entry that the event log window shows (R440, R441). -/
def State.selected (s : State) : Option Event := s.log.entries.find? fun e => e.seq = s.kpr.sel

/-- Event log registers (R440). -/
def State.readLog (s : State) (o : Nat) : Nat :=
  if 0x20 ≤ o && o < 0x40 then s.selected.elim 0 fun e => wordOf e.bytes (o - 0x20)
  else match o with
    | 0x00 => half s.log.next 0
    | 0x04 => half s.log.next 1
    | 0x08 => half s.log.oldest 0
    | 0x0C => half s.log.oldest 1
    | 0x10 => s.kpr.selLo.toNat
    | 0x14 => half s.kpr.sel 1
    | 0x18 => at_ s.selected.isSome 0
    | 0x40 => s.log.alertPend.toNat
    | 0x44 => half s.log.lastAlert 0
    | 0x48 => half s.log.lastAlert 1
    | _ => 0

/-- A word of mailbox 0's request buffer. -/
def Mbx0.reqWord (m : Mbx0) (off : Nat) : Nat := number ((List.range 4).map fun i => memGet m.req (off + i))

/-- Mailbox 0's registers (R371). -/
def State.readMbx0 (s : State) (a : Nat) : Nat :=
  if a < 0x9000 then s.mbx0.reqWord (a - 0x8000)
  else if a < 0xA000 then s.mbx0.rsp.head?.elim 0 fun r => wordOf r.1 (a - 0x9000)
  else if a = 0xA004 then s.boxStatus 0
  else 0

/-- Keeper state and self-test status of a die (R442, R443). -/
def State.readDie' (s : State) (i o : Nat) : Nat :=
  let d := s.die i
  let tag := (s.dieTag? i).orElse fun _ => (s.dieLend? i).map (·.tag)
  let count := fun k => (d.repairs.filter fun r => r.kind = k).length
  match o with
  | 0x000 => d.st.code + d.step * 16 + d.allowed * 256 + d.cap * 4096 + at_ d.cpllOn 16 + at_ d.dpllOn 17 +
      at_ (decide (d.thermStep < d.cap)) 18 + at_ d.divided 19
  | 0x004 => tag.getD 0 + at_ (s.dieTag? i).isSome 12 + at_ (s.dieLend? i).isSome 13
  | 0x008 => unsigned d.tj 16 + d.tjSensor % 8 * 2 ^ 16
  | 0x00C => d.vddCoreMv
  | 0x010 => d.diePower
  | 0x014 => number (d.clusterCounts.map (BitVec.ofNat 8))
  | 0x018 => d.dozeCycles
  | 0x01C => d.restUs
  | 0x020 => d.lostRails
  | 0x024 => d.spareFor.getD 0x1F + count 4 * 256 + count 8 * 2 ^ 16
  | 0x028 => (512 - d.fuseUsed) + d.fuseUsed * 2 ^ 16
  | 0x030 => half s.now 0
  | 0x034 => half s.now 1
  | 0x038 => half (totalOf d.corrDram) 0
  | 0x03C => half (totalOf d.corrDram) 1
  | 0x040 => half (totalOf d.corrSram) 0
  | 0x044 => half (totalOf d.corrSram) 1
  | 0x100 => at_ d.testing 0 + d.lastTarget * 2 + at_ d.inWindow 4 + at_ (d.sparesTested && d.badSpares = []) 5 +
      at_ d.sramUnmarched 6
  | 0x104 => d.lastTest.getD 0xFFFFFFFF
  | 0x108 => d.lastStatus + d.lastUnrepaired * 2 ^ 16
  | 0x10C => (Config.diePages - d.marched.length) + (d.repairs.filter fun r => !r.fused).length * 2 ^ 16
  | _ => 0

/-- A channel's role code and its HOST_TAG half-word (R444). -/
def Role.code : Role → Nat
  | .off => 0 | .fabric => 1 | .host _ => 2
def Role.tagField : Role → Nat
  | .host t => t + 0x8000
  | _ => 0

/-- Registers of one port (R444). -/
def State.readPort (s : State) (i o : Nat) : Nat :=
  let p := s.port i
  match o with
  | 0x00 => p.st.code + p.activeLanes * 8 + at_ p.spareInUse 7 + p.laneFailed.toNat * 256 + at_ (s.hostFacing i) 17 +
      at_ p.mismatch 18 + at_ p.allowX4 19 + p.medium % 2 * 2 ^ 20
  | 0x04 => p.peer.elim 0x7FFFFF (fun h => h.module % 2 ^ 16 + h.port % 128 * 2 ^ 16 + at_ h.adapter 23 + at_ h.assigned 24) +
      at_ p.helloSeen 25
  | 0x08 => (p.roles.zipIdx.map fun x => x.1.code * 4 ^ x.2).foldl (· + ·) 0
  | 0x1C => p.fecCorr
  | 0x20 => p.fecUncorr
  | 0x24 => p.crcErr
  | 0x28 => p.replays
  | 0x2C => p.trainTries
  | 0x30 => p.discards
  | _ =>
    if 0x0C ≤ o && o ≤ 0x18 then
      let j := (o - 0x0C) / 4
      (p.roles.getD (2 * j) .off).tagField + (p.roles.getD (2 * j + 1) .off).tagField * 2 ^ 16
    else 0

/-- The live value of a register; an unassigned address reads zero (R4, R435). -/
def State.readLive (s : State) (a : Nat) : Nat :=
  if a < 0x1000 then s.readIdentity a
  else if a < 0x2000 then s.readPower (a - 0x1000)
  else if a < 0x3000 then s.readLog (a - 0x2000)
  else if a < 0x8000 then 0
  else if a < 0x10000 then s.readMbx0 a
  else if a < 0x190000 then
    let d := a / 0x10000 - 1
    let o := a % 0x10000
    if 0x200 ≤ o && o < 0x2C0 then s.readPort (3 * d + (o - 0x200) / 0x40) (o % 0x40) else s.readDie' d o
  else 0

/-- The _LO registers of 64-bit values (R435). -/
def isLo (a : Nat) : Bool :=
  [0x30, 0x1020, 0x2000, 0x2008, 0x2010, 0x2044].contains a ||
  (0x10000 ≤ a && a < 0x190000 && [0x30, 0x38, 0x40].contains (a % 0x10000))

/-- The value that a READ returns: a latched upper half, or the live value (R435). -/
def State.readReg (s : State) (a : Nat) : BitVec 32 := lookupD s.kpr.latches a (BitVec.ofNat 32 (s.readLive a))

/-- What a READ does besides: a _LO register latches the upper half; the latch of a _HI register ends (R435). -/
def State.afterRead (s : State) (a : Nat) : State :=
  s.setKpr { s.kpr with
    latches := if isLo a then insertKey s.kpr.latches (a + 4) (BitVec.ofNat 32 (s.readLive (a + 4)))
      else s.kpr.latches.filter fun x => x.1 != a }

/-! ### Keeper frames (R431 to R433) -/

/-- TYPE, TAG, ADDR and DATA as data bytes, symbols 2 to 5 (R431): WRITE, READ_RSP, ERROR and ANNOUNCE carry DATA. -/
def kprBody (f : KprFrame) : Bytes :=
  le 1 f.typ ++ le 1 f.ktag ++ le 4 f.addr ++ if [0x02, 0x81, 0x8F, 0x90].contains f.typ then le 4 f.data.toNat else []

/-- The symbols of a frame: a control symbol or a data byte each, from SOF, K27.7, to EOF, K29.7 (R431). -/
def kprSymbols (f : KprFrame) : List (Bool × Byte) :=
  [(true, 0xFB)] ++ ((kprBody f) ++ le 4 f.crc.toNat).map ((false, ·)) ++ [(true, 0xFD)]

/-- The CRC of a frame is right (R432). -/
def kprGood (f : KprFrame) : Bool := f.crc = crc32c (kprBody f)

/-- A frame that the module sends, with its CRC. -/
def kprSent (typ ktag addr : Nat) (data : BitVec 32) : Sent :=
  let f : KprFrame := { typ := typ, ktag := ktag, addr := addr, data := data }
  .kpr { f with crc := crc32c (kprBody f) }

/-- An ERROR frame with a status. -/
def State.kprError (s : State) (ktag addr status : Nat) : State := s.send (kprSent 0x8F ktag addr (BitVec.ofNat 32 status))

/-- A frame has come: it may be unanswered for 2 µs (R432). -/
def State.arrived (s : State) : State :=
  s.setKpr { s.kpr with arrivals := (s.now :: s.kpr.arrivals.filter fun t => !due t 50 s.now).take 8 }

/-- Eight frames may still be unanswered (R432). -/
def State.keeperFull (s : State) : Bool := 8 ≤ (s.kpr.arrivals.filter fun t => !due t 50 s.now).length

/-- A READ frame. -/
def State.kprRead (s : State) (ktag addr : Nat) : State :=
  if !s.keepersRun then s
  else
  let s := s.arrived
  if addr % 4 != 0 then s.kprError ktag addr stBadCommand
  else (s.afterRead addr).send (kprSent 0x81 ktag addr (s.readReg addr))

/-- REGISTER_LO_READ, and any other READ (R432, R435). -/
def execRegisterLoRead (ktag addr : Nat) (s : State) : Host.Outcome State Fault Refusal := .next (s.kprRead ktag addr)

/-! ### Writes (R435 to R445) -/

/-- The write of RESET, RST_LOCK and KEY: the reset takes effect 10 µs later (R436, R437). Where one write sets RESET and
RST_LOCK, the reset starts under the lock as it was before (DESIGN CHOICE, notes/assumptions/64.md). -/
def State.writeReset (s : State) (d : BitVec 32) : State :=
  let k := s.kpr
  let go := d.getLsbD 0 && (d >>> 16).toNat = 0xA55A && !k.rstLock
  s.setKpr { k with
    resetDue := if go && k.resetDue.isNone then some (s.now + 250) else k.resetDue
    rstLock := k.rstLock || d.getLsbD 1 }

/-- The bytes of a register value. -/
def dataBytes (d : BitVec 32) : Bytes := le 4 d.toNat

/-- A write into mailbox 0's request buffer (R371). -/
def State.writeReq (s : State) (off : Nat) (d : BitVec 32) : State :=
  if (s.box 0).submitted.isSome then s
  else s.setMbx0 { s.mbx0 with req := memWrite s.mbx0.req ((dataBytes d).zipIdx.map fun x => (off + x.2, x.1)) }

/-- The request buffer as it is submitted, with the stamps of the keeper port (R375). -/
def State.bufferSubmission (s : State) : Submission :=
  { srcPort := 0xFF, hchan := 0, tag := noTag, srcModule := 0xFFFF, htag := 0
    bytes := (List.range 4096).map fun i => memGet s.mbx0.req i, viaHost := false }

/-- The doorbell: the buffer is submitted; while a request is held it has no effect (R371). -/
def State.ringDoorbell (s : State) (d : BitVec 32) : State :=
  if d.getLsbD 0 && (s.box 0).submitted.isNone then s.submitTo 0 s.bufferSubmission else s

/-- The release of MBX0_RSP: the next response moves in, and a counted command is outstanding no more (R371, R373). -/
def State.releaseRsp (s : State) (d : BitVec 32) : State :=
  match s.mbx0.rsp with
  | [] => s
  | r :: rest =>
    if d.getLsbD 0 then
      let s := s.setMbx0 { s.mbx0 with rsp := rest }
      if r.2 then s.updBox 0 fun b => { b with outstanding := b.outstanding - 1 } else s
    else s

/-- The W1C write of ALERT_PEND; an ALERT entry of the same keeper cycle keeps its group's bit (R440, R441). -/
def State.clearAlerts (s : State) (d : BitVec 32) : State :=
  s.setLog { s.log with alertPend := s.log.alertPend &&& ~~~(d.setWidth 9 &&& 0x1FE#9 &&& ~~~s.log.fresh) }

/-- The write of CNT_CLR of a port: a counter that has counted in the same keeper cycle reads 1 (R444, R445). -/
def State.clearCounters (s : State) (port : Nat) (d : BitVec 32) : State :=
  if d.getLsbD 0 then
    s.updPort port fun p =>
      let left := fun i => if p.counted.contains i then 1 else 0
      { p with fecCorr := left 0, fecUncorr := left 1, crcErr := left 2, replays := left 3, trainTries := left 4, discards := left 5 }
  else s

/-- The address of a port's CNT_CLR (R444). -/
def cntClrAddr (port : Nat) : Nat := 0x10000 * (port / 3 + 1) + 0x200 + 0x40 * (port % 3) + 0x34

/-- The port whose CNT_CLR lies at an address. -/
def cntClrPort? (a : Nat) : Option Nat := (List.range Config.ports).find? fun p => cntClrAddr p = a

/-- The effect of a write; a field that cannot be written, and an unassigned address, take none (R4, R435). -/
def State.writeReg (s : State) (a : Nat) (d : BitVec 32) : State :=
  if a = 0x2C then s.writeReset d
  else if a = 0x38 then s.setKpr { s.kpr with scratch := d }
  else if a = 0x1018 then s.setPower { s.power with pwarnW := min (d.toNat % 4096) 3200 }
  else if a = 0x2010 then s.setKpr { s.kpr with selLo := d }
  else if a = 0x2014 then s.setKpr { s.kpr with sel := d.toNat * 2 ^ 32 + s.kpr.selLo.toNat }
  else if a = 0x2040 then s.clearAlerts d
  else if 0x8000 ≤ a && a < 0x9000 then s.writeReq (a - 0x8000) d
  else if a = 0xA000 then s.ringDoorbell d
  else if a = 0xA008 then s.releaseRsp d
  else match cntClrPort? a with
    | some p => s.clearCounters p d
    | none => s

/-- A WRITE frame: one whose TAG is among those of the last 8 performed is acknowledged and not performed again (R433). -/
def State.kprWrite (s : State) (ktag addr : Nat) (d : BitVec 32) : State :=
  if !s.keepersRun then s
  else
  let s := s.arrived
  if addr % 4 != 0 then s.kprError ktag addr stBadCommand
  else if s.kpr.writeTags.contains ktag then s.send (kprSent 0x82 ktag addr 0)
  else
    let s := s.writeReg addr d
    (s.setKpr { s.kpr with writeTags := (ktag :: s.kpr.writeTags).take 8 }).send (kprSent 0x82 ktag addr 0)

/-- REGISTER_WRITE: a WRITE to any register. -/
def execRegisterWrite (ktag addr : Nat) (data : BitVec 32) (s : State) : Host.Outcome State Fault Refusal :=
  .next (s.kprWrite ktag addr data)

/-- RESET: a WRITE to 0x0000_002C (R436). -/
def execReset (ktag : Nat) (data : BitVec 32) (s : State) : Host.Outcome State Fault Refusal := .next (s.kprWrite ktag 0x2C data)

/-- RST_LOCK: a WRITE to 0x0000_002C (R436). -/
def execRstLock (ktag : Nat) (data : BitVec 32) (s : State) : Host.Outcome State Fault Refusal := .next (s.kprWrite ktag 0x2C data)

/-- MBX0_DOORBELL: a WRITE to 0x0000_A000 (R371). -/
def execMbx0Doorbell (ktag : Nat) (data : BitVec 32) (s : State) : Host.Outcome State Fault Refusal :=
  .next (s.kprWrite ktag 0xA000 data)

/-- MBX0_RSP_RELEASE: a WRITE to 0x0000_A008 (R371). -/
def execMbx0RspRelease (ktag : Nat) (data : BitVec 32) (s : State) : Host.Outcome State Fault Refusal :=
  .next (s.kprWrite ktag 0xA008 data)

/-- ALERT_PEND: a WRITE to 0x0000_2040 (R440, R441). -/
def execAlertPend (ktag : Nat) (data : BitVec 32) (s : State) : Host.Outcome State Fault Refusal :=
  .next (s.kprWrite ktag 0x2040 data)

/-- CNT_CLR: a WRITE to a port's CNT_CLR (R444, R445). -/
def execCntClr (ktag port : Nat) (data : BitVec 32) (s : State) : Host.Outcome State Fault Refusal :=
  .next (s.kprWrite ktag (cntClrAddr port) data)

/-- KEEPER_FRAME_REJECT: a frame with a bad CRC is discarded; a misaligned or reserved one, and one that comes while 8 frames may
be unanswered, is answered with ERROR (R432). Any other is no frame to reject. -/
def execKeeperFrameReject (frame : KprFrame) (s : State) : Host.Outcome State Fault Refusal :=
  .next (
    if !s.keepersRun || !kprGood frame then s
    else if frame.addr % 4 != 0 || !(frame.typ = 1 || frame.typ = 2) then s.arrived.kprError frame.ktag frame.addr stBadCommand
    else if s.keeperFull then s.kprError frame.ktag frame.addr stQueueFull
    else s)

/-- RECOVERY_ANNOUNCE: once per second (R434). -/
def execRecoveryAnnounce (s : State) : Host.Outcome State Fault Refusal :=
  .next (
    if s.keepersRun && s.kpr.mod = .recovery && s.kpr.announced.elim true (fun t => due t 25000000 s.now) then
      (s.draw.setKpr { s.kpr with announced := some s.now }).send (kprSent 0x90 (Config.announceTag s.free).toNat 0x20 (BitVec.ofNat 32 s.modStatus))
    else s)

/-! ### Sideband: the identity EEPROM, the pins and the test access port (R454 to R457) -/

/-- The 16 bytes of the thermal trip record (R406). -/
def tripBytes (t : Nat × Int × Nat) : Bytes := le 1 t.1 ++ le 1 0 ++ le 2 (unsigned t.2.1 16) ++ le 4 0 ++ le 8 t.2.2

/-- The byte at an address of the 8 KiB of the EEPROM (R454); what stands between the assigned fields is free. -/
def Eeprom.byte (e : Eeprom) (a : Nat) : Byte :=
  if a < 0x10 then e.serial.getD a 0
  else if a < 0x12 then (le 2 0x0024).getD (a - 0x10) 0
  else if a = 0x12 then BitVec.ofNat 8 e.stepping
  else if 0x20 ≤ a && a < 0x24 then (le 4 e.resetCount).getD (a - 0x20) 0
  else if 0x40 ≤ a && a < 0x50 then e.trip.elim 0 fun t => (tripBytes t).getD (a - 0x40) 0
  else if 0x50 ≤ a && a < 0x54 then (if e.marker then (le 4 Config.enableMarker.toNat).getD (a - 0x50) 0 else 0)
  else if 0x100 ≤ a && a < 0x102 then (le 2 (min e.cert.length 1800)).getD (a - 0x100) 0
  else if 0x102 ≤ a && a < 0x80A then e.cert.getD (a - 0x102) 0xFF
  else if 0x80A ≤ a then 0xFF
  else Config.eepromGap a

/-- The auxiliary rail of the sideband is present (R451). -/
def State.sidebandOn (s : State) : Bool := 30000 ≤ s.power.vinMv

/-- A read on the slot's I²C bus: the byte at an address of the EEPROM, or no acknowledgement (R454). -/
def State.slotRead (s : State) (device a : Nat) : Option Byte :=
  if s.sidebandOn && device = 0x50 then some (s.eeprom.byte (a % 8192)) else none

/-- A write there is acknowledged and discarded (R454). -/
def State.slotWrite (s : State) (device : Nat) : Bool × State := (s.sidebandOn && device = 0x50, s)

/-- What drives a pin of the module (R456). -/
inductive Drive where
  | highZ
  | low
  | high
  | operating
  deriving DecidableEq, Repr

/-- The pins (R456): a link transmitter, the keeper port, PWR_OK, ALERT_N, which is open-drain, and I2C_SDA and TDO. -/
def State.linkPin (s : State) (port : Nat) : Drive :=
  if s.power.pwrOk && (s.port port).st != .disabled then .operating else .highZ
def State.keeperPin (s : State) : Drive := if s.power.phase = .off then .highZ else .operating
def State.pwrOkPin (s : State) : Drive := if s.power.pwrOk then .high else .low
def State.alertPin (s : State) : Drive := if s.power.phase != .off && s.alertLow then .low else .highZ
def State.sdaPin (s : State) : Drive := if s.sidebandOn then .operating else .highZ
def State.tdoPin (s : State) : Drive := s.sdaPin

/-- IDCODE (R457). -/
def State.idcode (s : State) : BitVec 32 :=
  BitVec.ofNat 32 (s.eeprom.stepping % 16 * 2 ^ 28 + 0x0024 * 2 ^ 12 + Config.vendorCode.toNat * 2 + 1)

/-- The data register that the instruction in effect puts between TDI and TDO, where it is not the boundary scan register:
IDCODE's 32 bits, or the one bit of BYPASS, which CLAMP and HIGHZ select too (IEEE 1149.1). -/
def State.tapRegister (s : State) : Option (Nat × Nat) :=
  match s.tapEffect with
  | .idcode => some (32, s.idcode.toNat)
  | .bypass | .clamp | .highz => some (1, 0)
  | .samplePreload | .extest | .extestPulse | .extestTrain => none

/-- TAP_INSTRUCTION: the instruction is loaded while the TAP works, from an input of 30.0 V on; what it does then is
`State.tapEffect` (R457). -/
def execTapInstruction (instr : TapInstr) (s : State) : Host.Outcome State Fault Refusal :=
  .next (if s.power.vinMv < 30000 then s else { s with tap := instr })

/-! ### One local count -/

/-- One local count passes while the keepers run; a register reset whose time has come takes effect (R401, R437). -/
def idle (s : State) : State :=
  if !s.keepersRun then s
  else
    let s := tick s
    if s.kpr.resetDue.elim false (· ≤ s.now) then s.moduleReset 4 true else s

end Sys2Proof.Machine
end

