-- ==== Sys2Proof/Machine/Sampling.lean ====
section
/-! DEFINITION. On-device sampling (R120 to R123): SAMPLE and LOGSOFTMAX. -/

namespace Sys2Proof.Machine

open Sys2Proof

/-- A row's tempered logits under the non-finite mode, or `none` where the row is invalid (R121). -/
def temperedRow (sat : Bool) (temp : W32) (ls : List W32) : Option (List W32) :=
  let y := ls.map fun l => if f32IsZero temp then l else fdiv l temp
  let y' := if sat then y.map fun x => if f32IsNan x then f32NegInf else if x = f32Inf then f32MaxFinite else x else y
  if (!sat && y.any fun x => f32IsNan x || x = f32Inf) || y'.all (· = f32NegInf) then none else some y'

/-- rne(EXP(z) × 2^40) (R121). -/
def sampleWeight (z : W32) : Nat :=
  match f32Num (fexp z) with
  | .fin neg man exp => (rneInt neg man (exp + 40)).toNat
  | _ => 0

/-- 2^−40 in FP32. -/
def k2m40 : W32 := 0x2B800000

/-- The weights of a row: z, w and lz (R121). -/
structure RowWeights where
  y : List W32
  z : List W32
  w : List Nat
  lz : W32
  deriving DecidableEq, Repr

def rowWeights (y : List W32) : RowWeights :=
  let m := y.tail.foldl fmax (y.headD 0)
  let z := y.map fun x => fadd x (f32Negate m)
  let w := z.map sampleWeight
  { y := y, z := z, w := w, lz := flog (fmul (f32OfNat (w.foldl (· + ·) 0)) k2m40) }

/-- The log-probability of entry `i` (R121, R123). -/
def RowWeights.logp (r : RowWeights) (i : Nat) : W32 := fadd (r.z.getD i 0) (f32Negate r.lz)

/-- Indices in the order of R121: higher y first, ties to the lower index. -/
def RowWeights.order (r : RowWeights) : List Nat :=
  sortBy (fun i j => f32Lt (r.y.getD j 0) (r.y.getD i 0) || (!f32Lt (r.y.getD i 0) (r.y.getD j 0) && i ≤ j))
    (List.range r.y.length)

/-- ⌈TOP_P × n⌉ (R121). -/
def topPSum (topP : W32) (n : Nat) : Nat :=
  match f32Num topP with
  | .fin _ man exp => if 0 ≤ exp then man * n * 2 ^ exp.toNat else ceilDiv (man * n) (2 ^ (-exp).toNat)
  | _ => n

/-- The shortest prefix whose weights reach `t` (R121). -/
def keepUpTo (w : List Nat) (t : Nat) : Nat → List Nat → List Nat
  | _, [] => []
  | sum, i :: l => if t ≤ sum + w.getD i 0 then [i] else i :: keepUpTo w t (sum + w.getD i 0) l

/-- The index at which the running sum first exceeds `u` (R121). -/
def firstAbove (w : List Nat) (u : Nat) : Nat → List Nat → Nat
  | _, [] => 0
  | sum, i :: l => if u < sum + w.getD i 0 then i else firstAbove w u (sum + w.getD i 0) l

/-- The chosen index (R121, R122); `seed` is the item's sampling seed. -/
def RowWeights.choose (r : RowWeights) (seed : BitVec 128) (q : Params) : Nat :=
  let ord := r.order
  if f32IsZero q.temp then ord.headD 0
  else
    let n := r.y.length
    let cand := (ord.take (if q.topK = 0 then n else min q.topK n)).filter fun i => 0 < r.w.getD i 0
    let wk := (cand.map fun i => r.w.getD i 0).foldl (· + ·) 0
    let keep := keepUpTo r.w (topPSum q.topP wk) 0 cand
    let wkept := (keep.map fun i => r.w.getD i 0).foldl (· + ·) 0
    let u := sampleDraw seed q.stream q.position * wkept / 2 ^ 64
    firstAbove r.w u 0 (sortBy (fun i j => i ≤ j) keep)

/-- The rows of an item, as positions with RDIM's entry zero, in ascending logical row order (R120). -/
def rowPositions (t : TDesc) (rd : Nat) : List (List Nat) :=
  (boxIndices ((List.range t.ndim).map fun d => if d + 1 = rd then 1 else t.positions (d + 1))).map fun v => v.map Int.toNat

/-- The parameter record of a row, checked again as it is read: one that is out of range by then fails the item (DESIGN
CHOICE, notes/assumptions/64.md). -/
def rowParams (s : State) (p : Pitch) (w : WDesc) (row : Nat) : Except Nat Params :=
  match readBytes s p (w.param + 32 * row) 32 with
  | .error e => .error e
  | .ok b => if paramsOk w.isLsm b then .ok (parseParams b) else .error stBadDescriptor

/-- The logits of a row, over the positions of RDIM. -/
def rowLogits (s : State) (p : Pitch) (t : TDesc) (rd : Nat) (x : List Nat) : Except Nat (List W32) :=
  mapE (fun j => readF32 s p t (x.set (rd - 1) j)) (List.range (t.positions rd))

/-- The item's INVALID flag for an invalid row (R121). -/
def State.flagRow (s : State) (key : ItemKey) (bad : Bool) : State :=
  s.updItem key fun i => { i with result := i.result.addFlags ⟨bad, false, false⟩ }

/-- One row of a SAMPLE item: its output record. -/
def sampleRow (key : ItemKey) (p : Pitch) (w : WDesc) (a : TDesc) (s : State) (x : List Nat × Nat) :
    State × Option Nat :=
  match rowParams s p w x.2, rowLogits s p a (w.c 16 3) x.1 with
  | .error e, _ => (s, some e)
  | _, .error e => (s, some e)
  | .ok q, .ok ls =>
    let r := (temperedRow w.saturate q.temp ls).map rowWeights
    let rec8 := match r with
      | none => le 4 0xFFFFFFFF ++ le 4 f32Nan.toNat
      | some r =>
        let c := r.choose w.seed q
        le 4 c ++ le 4 (r.logp c).toNat
    let s := (s.flagRow key r.isNone).updItem key fun i => i.wroteRow x.2 rec8
    kept s (pitchWriteAll s key.tag (w.addr 3 + 8 * x.2) rec8)

/-- SAMPLE: the whole item, row by row (R120, R124). -/
def execSample (key : ItemKey) (s : State) : Host.Outcome State Fault Refusal :=
  .next (s.onItem key fun p i =>
    match runsVector s p i, i.operand? 0 with
    | some pl, some a =>
      if i.w.isSample then
        State.endRun (foldKeep (sampleRow key p i.w a.desc) s (rowPositions a.desc (i.w.c 16 3)).zipIdx) pl key
      else s
    | _, _ => s)

/-- The lanes of D's strip at view index v that belong to the row of A at position x: those of equal indices outside RDIM. -/
def lsmLanes (a d : TDesc) (rd : Nat) (x : List Nat) (v : List Int) : List Nat :=
  (d.lanesIn v).filter fun l => (a.posIdx (d.idxAt v l)).set (rd - 1) 0 = x.set (rd - 1) 0

/-- One row of a LOGSOFTMAX item written to D exactly as computed (R120, R121). -/
def lsmRow (key : ItemKey) (p : Pitch) (w : WDesc) (a d : TDesc) (s : State) (x : List Nat × Nat) :
    State × Option Nat :=
  let rd := w.c 16 3
  match rowParams s p w x.2, rowLogits s p a rd x.1 with
  | .error e, _ => (s, some e)
  | _, .error e => (s, some e)
  | .ok q, .ok ls =>
    let r := (temperedRow w.saturate q.temp ls).map rowWeights
    foldKeep (fun s v =>
      let cs := (lsmLanes a d rd x.1 v).map fun l =>
        (l, (r.elim f32Nan fun r => r.logp ((a.posIdx (d.idxAt v l)).getD (rd - 1) 0)).toNat)
      if cs = [] then (s, none)
      else
        let s := s.updItem key fun i => i.wrote d v
        kept s (writeStrip s key.tag d v cs 0)) (s.flagRow key r.isNone) d.boxStrips

/-- LOGSOFTMAX: the whole item, row by row. -/
def execLogsoftmax (key : ItemKey) (s : State) : Host.Outcome State Fault Refusal :=
  .next (s.onItem key fun p i =>
    match runsVector s p i, i.operand? 0, i.dest? with
    | some pl, some a, some o =>
      if i.w.isLsm then
        State.endRun (foldKeep (lsmRow key p i.w a.desc o.desc) s (rowPositions a.desc (i.w.c 16 3)).zipIdx) pl key
      else s
    | _, _, _ => s)

end Sys2Proof.Machine
end

