-- ==== Sys2Proof/Machine/Programs.lean ====
section
/-! DEFINITION. Programs that the M24 instantiates itself (R189, R298, R302): the list of descriptors with their patches, the
fields that a patch fills, and the queues that a Gulper instance or a cycle orchestrator owns on the pitch. DESIGN CHOICE and DEDUCED: the
numbers and parameters of these queues, and which field a patch fills (notes/assumptions/12.md, 58.md). -/

namespace Sys2Proof.Machine

open Sys2Proof

/-! ### Lists and patches (R189) -/

/-- The descriptors of a program with their patch entries (R189); where a list ends is open (notes/assumptions/58.md). -/
def programItems (prog : Bytes) : Nat → Nat → Nat → List (Bytes × List Nat)
  | 0, _, _ => []
  | fuel + 1, i, off =>
    if prog.length < off + 128 then []
    else
      let n := Config.patchCount prog i
      (slice prog off 128, (List.range n).map fun k => u64 prog (off + 128 + 8 * k)) ::
        programItems prog fuel (i + 1) (off + 128 + 8 * n)

/-- A whole program. -/
def parseProgram (prog : Bytes) : List (Bytes × List Nat) := programItems prog (prog.length / 128 + 1) 0 0

/-- Byte offset, SOURCE and reserved bits of a patch entry. -/
def patchOffset (w : Nat) : Nat := bits w 0 16
def patchSource (w : Nat) : Nat := bits w 16 8

/-- The field of a work descriptor that begins in a byte: its lowest bit and its width (R146). -/
def workField (w : WDesc) (o : Nat) : Option (Nat × Nat) :=
  if o = 12 || o = 16 || o = 18 then some (8 * o, 16)
  else if o = 24 || o = 32 || o = 40 || o = 72 || o = 80 then some (8 * o, 64)
  else if o = 48 then some (8 * o, if w.typ = tyVec then 48 else 64)
  else if o = 56 then some (8 * o, 128)
  else if o = 96 || o = 104 || o = 112 || o = 120 then some (8 * o, 48)
  else none

/-- The field of a tensor descriptor that begins in a byte: BASE, SCALE_BASE, a STRIDE or an EXTENT (R57). -/
def tensorField (o : Nat) : Option (Nat × Nat) :=
  if o = 0 || o = 8 then some (8 * o, 48)
  else if 16 ≤ o && o < 58 && (o - 16) % 6 = 0 then some (8 * o, 30)
  else if 16 ≤ o && o < 58 && (o - 16) % 6 = 3 then some (8 * o + 6, 18)
  else none

/-- The field of a block reference record that begins in a byte (R267). -/
def blockField (o : Nat) : Option (Nat × Nat) :=
  if o = 0 || o = 4 || o = 8 then some (8 * o, 32)
  else if o = 12 || o = 14 || o = 16 || o = 18 then some (8 * o, 16)
  else if o = 24 then some (8 * o, 64)
  else none

/-- The bits [lo, lo + n) of a byte string set. -/
def fillBits (b : Bytes) (lo n v : Nat) : Bytes :=
  let w := field b 0 b.length
  le b.length (w - bits w lo n * 2 ^ lo + v % 2 ^ n * 2 ^ lo)

/-- The patches whose offset lies in [base, base + the length of b) fill their fields of b. -/
def fillPatches (src : Nat → Option Nat) (fieldAt : Nat → Option (Nat × Nat)) (base : Nat) (patches : List Nat) (b : Bytes) :
    Bytes :=
  patches.foldl (fun b w =>
    if base ≤ patchOffset w && patchOffset w < base + b.length then
      match src (patchSource w), fieldAt (patchOffset w - base) with
      | some v, some f => fillBits b f.1 f.2 v
      | _, _ => b
    else b) b

/-- A patch reaches the tensor descriptor of slot i, which follows the 128 bytes of the descriptor in patch offsets. -/
def reachesSlot (patches : List Nat) (i : Nat) : Bool :=
  patches.any fun w => 128 + 64 * i ≤ patchOffset w && patchOffset w < 192 + 64 * i

/-- One instance of a descriptor of a program: its own fields filled, and the tensor descriptors that its patches reach. -/
def fillWork (s : State) (p : Pitch) (index : Nat) (it : Bytes × List Nat) (src : Nat → Option Nat) : Work :=
  let wd := fillPatches src (workField (parseWork it.1)) 0 it.2 it.1
  let w := parseWork wd
  { index := index, wd := wd
    descs := [0, 1, 2, 3].filterMap fun i =>
      if w.present i && !(i = 3 && w.isSample) && reachesSlot it.2 i then
        match readBytes s p (w.addr i) 64 with
        | .ok b =>
          let at_ := if w.typ = tyColl && i = 3 && w.c 2 2 = 2 then blockField else tensorField
          some (w.addr i, fillPatches src at_ (128 + 64 * i) it.2 b)
        | .error _ => none
      else none }

/-! ### Owned queues -/

/-- The queue that the orchestrator of a run owns; no control page reaches it, nor the Gulper's of an instance. -/
def orchestratorQueue (run : Nat) : Nat := 2 ^ 33 + run

/-- A queue of its owner's: weight and age limit as of a queue opened with 1 and 0 (R162). -/
def ownedQueue (id home : Nat) : Queue :=
  { id := id, ringBase := 0, compBase := 0, notifyAddr := 0, ringSize := 1, homeLdie := home, weight := 1, ageLimit := 25000
    own := true }

/-- The pitch with an owned queue. -/
def Pitch.withOwned (p : Pitch) (id home : Nat) : Pitch :=
  if (p.queue? id).isSome then p else { p with queues := p.queues ++ [ownedQueue id home] }

/-- An owned queue goes with its owner once nothing of it is in flight. -/
def Pitch.dropOwned (p : Pitch) (id : Nat) : Pitch :=
  { p with queues := p.queues.filter fun q => q.id != id || q.head < q.tail || p.items.any fun i => i.key.queue = id }

/-- The owner submits descriptors. -/
def Queue.submitWork (q : Queue) (ws : List Work) : Queue :=
  { q with tail := q.tail + ws.length, held := q.held ++ ws.map fun w => (w.wd, w.descs) }

/-- The next SEQ of a queue. -/
def Pitch.nextSeq (p : Pitch) (id : Nat) : Nat := (p.queue? id).elim 0 (·.tail)

/-- The completed items of a queue among some SEQs. -/
def Pitch.endings (p : Pitch) (id : Nat) (seqs : List Nat) : List (Nat × Nat) :=
  (p.queue? id).elim [] fun q => q.ended.filter fun e => seqs.contains e.1

/-- The item with a SEQ has completed. -/
def Pitch.seqEnded (p : Pitch) (id n : Nat) : Bool := (p.endings id [n]) != []

/-- The first status among some items that is neither OK nor DEGRADED. -/
def Pitch.firstFailure (p : Pitch) (id : Nat) (seqs : List Nat) : Option Nat :=
  ((p.endings id seqs).find? fun e => !(e.2 = stOk || e.2 = stDegraded)).map (·.2)

/-- Every one of some items has completed. -/
def Pitch.allEnded (p : Pitch) (id : Nat) (seqs : List Nat) : Bool := seqs.all (p.seqEnded id)

/-- The owner has used the outcome of some items. -/
def Pitch.useEndings (p : Pitch) (id : Nat) (seqs : List Nat) : Pitch :=
  p.updQueue id fun q =>
    { q with ended := q.ended.filter (fun e => !seqs.contains e.1), sampled := q.sampled.filter fun e => !seqs.contains e.1 }

end Sys2Proof.Machine
end

