-- ==== Sys2Proof/Machine/Sessions.lean ====
section
/-! DEFINITION. Serving: model instances (R185 to R190), sessions (R192 to R196), SVC_SUBMIT with its admission and its
rollouts (R195, R213, R295, R296), token steps (R197 to R209), block errors (R210) and closing (R211). The work items of a step
program are submitted to a queue of Gulper's own; a step's samples, where its program has no SAMPLE item, are the operands of its
commit (notes/assumptions/12.md). -/

namespace Sys2Proof.Machine

open Sys2Proof

/-! ### Model packages (R186 to R190) -/

/-- The base of the tensor of slot `i` is patched with a block's slot address. -/
def perBlockSlot (patches : List Nat) (i : Nat) : Bool :=
  patches.any fun w => bits w 16 8 = 6 && 128 + 64 * i ≤ bits w 0 16 && bits w 0 16 < 192 + 64 * i

/-- The item writes the KV pool: its D lies in a pool, or is patched with a block's address. -/
def writesPool (s : State) (p : Pitch) (pools : List Nat) (bytes : Nat) (it : Bytes × List Nat) : Bool :=
  let w := parseWork it.1
  w.present 3 && !w.isSample &&
  (perBlockSlot it.2 3 ||
   let t := parseDesc (rawBytes s p (w.addr 3) 64)
   pools.any fun a => a ≤ t.base && t.base < a + bytes)

/-- [a, a + n) lies in mapped SRAM windows, where operands other than weights may lie (R169). -/
def sramSpan (s : State) (p : Pitch) (a n : Nat) : Bool :=
  kindAt s p a = some .sram && kindAt s p (a + n - 1) = some .sram

/-- Every strip of a tensor's valid box, and its scale byte, pass a test of an address and a length; a gap between strips may be
unmapped (R170). -/
def TDesc.stripsAll (t : TDesc) (ok : Nat → Nat → Bool) : Bool :=
  (t.spans.all fun r => decide (0 ≤ r.1)) && t.boxStrips.all fun v =>
    let o := t.stripOff v
    ok (t.stripAddr o) (stripBytes t.fmt) && (!t.scaled || ok (t.scaleAddr o) 1)

/-- A patch fills the field of a work descriptor that begins in this byte. -/
def fillsAt (patches : List Nat) (o : Nat) : Bool := patches.any fun w => patchOffset w = o

/-- The rows of a SAMPLE or LOGSOFTMAX item as its package gives them; at least one where a patch reaches its logits. -/
def packageRows (s : State) (p : Pitch) (w : WDesc) (patches : List Nat) : Nat :=
  if fillsAt patches 96 || reachesSlot patches 0 then 1 else rowCount (parseDesc (rawBytes s p (w.addr 0) 64)) (w.c 16 3)

/-- What a slot of an item refers to lies in mapped bonded DRAM: a tensor descriptor with its frame record, a block reference
record or SAMPLE output records, and the strips of a tensor that no patch reaches, but for those held in SRAM; an MVP item's W
is always a weight (R169, R187). -/
def slotMapped (s : State) (p : Pitch) (it : Bytes × List Nat) (i : Nat) : Bool :=
  let w := parseWork it.1
  if !w.present i || fillsAt it.2 (96 + 8 * i) then true
  else if i = 3 && w.isSample then dramSpan s p (w.addr 3) (8 * packageRows s p w it.2)
  else if i = 3 && w.typ = tyColl && w.c 2 2 = 2 then dramSpan s p (w.addr 3) 64
  else dramSpan s p (w.addr i) (if w.framed i then 128 else 64) &&
    (reachesSlot it.2 i || (parseDesc (rawBytes s p (w.addr i) 64)).stripsAll fun a n =>
      (sramSpan s p a n && !(w.typ = tyMvp && i = 0)) || dramSpan s p a n)

/-- The references of an item lie in mapped bonded DRAM: its four slots, and the parameter records of SAMPLE and LOGSOFTMAX
(R169, R187). -/
def refsMapped (s : State) (p : Pitch) (it : Bytes × List Nat) : Bool :=
  let w := parseWork it.1
  [0, 1, 2, 3].all (slotMapped s p it) &&
  (!(w.isSample || w.isLsm) || fillsAt it.2 48 || dramSpan s p w.param (32 * packageRows s p w it.2))

/-- The die table: logical die and pool address. -/
def packageDies (b : Bytes) : List (Nat × Nat) :=
  (List.range (u16 b 10)).map fun i => let o := u64 b 24 + 16 * i; (u16 b o, u64 b (o + 8))

/-- The header of a package is well-formed (R188). -/
def packageOk (p : Pitch) (b : Bytes) : Bool :=
  u32 b 0 = 0x47504B01 && 1 ≤ u32 b 4 && u32 b 4 ≤ 4194304 && 1 ≤ u16 b 8 && u16 b 8 ≤ 1024 && 1 ≤ u16 b 10 &&
  u16 b 10 ≤ 1024 && u32 b 12 != 0 && u32 b 12 % 64 = 0 && 64 ≤ u32 b 16 && u32 b 16 ≤ 262144 && u32 b 16 % 64 = 0 &&
  1 ≤ u16 b 20 && u16 b 20 ≤ 16 && zeroRange b 22 2 && zeroRange b 96 32 &&
  u64 b 24 + 16 * u16 b 10 ≤ b.length && u64 b 32 + u64 b 40 ≤ b.length &&
  (packageDies b).all (fun d => d.1 < p.dieCount) && decide ((packageDies b).map (·.1)).Nodup

/-- A pool lies in the DRAM window of one logical cluster of its die (R190). -/
def poolOk (s : State) (p : Pitch) (d : Nat × Nat) (n : Nat) : Bool :=
  windowOk s p d.1 d.2 n

/-- The instance of a load request and its package. -/
def loadedModel (b pkg : Bytes) : Model :=
  { id := u32 b 0, reuse := bit (u16 b 4) 1, staleReuse := bit (u16 b 4) 2, spec := bit (u16 b 4) 3, draftLen := u8 b 6
    draftModel := u32 b 8, epoch := u32 b 12, seed := BitVec.ofNat 128 (field b 32 16), nblocks := u32 b 48
    maxStepTokens := u32 b 52, prefillChunk := u16 b 56, vocab := u32 pkg 4, layers := u16 pkg 8, dies := packageDies pkg
    kvPosBytes := u32 pkg 12, maxLen := u32 pkg 16, depth := u16 pkg 20 }

/-- The request's own fields are acceptable (R186). -/
def loadFieldsOk (b : Bytes) : Bool :=
  let f := u16 b 4
  let spec := bit f 3
  1 ≤ u32 b 0 && u32 b 0 ≤ 0xFFFFFFFE && f < 16 && !bit f 0 && (bit f 1 || !bit f 2) &&
  (if spec then 1 ≤ u8 b 6 && u8 b 6 ≤ 7 else u8 b 6 = 0 && u32 b 8 = 0) && zeroRange b 7 1 && u64 b 16 % 64 = 0 &&
  128 ≤ u64 b 24 && 1 ≤ u32 b 48 && u32 b 48 ≤ 16777216 && 1 ≤ u32 b 52 && u32 b 52 ≤ 16384 && 64 ≤ u16 b 56 &&
  u16 b 56 ≤ 8192 && u16 b 56 % 64 = 0 && restZero b 58

/-- The status that turns a load away, or the instance (R187). -/
def checkLoad (s : State) (p : Pitch) (b : Bytes) : Except Nat Model :=
  if !loadFieldsOk b then .error stBadCommand
  else if (p.model? (u32 b 0)).isSome then .error stBusy
  else if 16 ≤ p.models.length then .error stNoCapacity
  else if bit (u16 b 4) 3 && (p.model? (u32 b 8)).isNone then .error stNotFound
  else if !dramSpan s p (u64 b 16) (u64 b 24) then .error stOutOfRange
  else match readBytes s p (u64 b 16) (u64 b 24) with
    | .error e => .error e
    | .ok pkg =>
      let m := loadedModel b pkg
      let items := parseProgram (slice pkg (u64 pkg 32) (u64 pkg 40))
      if slice pkg 48 48 != sha384 (pkg.take 48 ++ List.replicate 48 0 ++ pkg.drop 96) then .error stVerifyFailed
      else if !packageOk p pkg then .error stBadCommand
      else if !(m.dies.all (poolOk s p · (m.nblocks * m.blockBytes)) && items.all (refsMapped s p)) then .error stOutOfRange
      else if m.spec && (p.model? m.draftModel).any (fun d => d.vocab != m.vocab) then .error stBadCommand
      else if m.reuse && items.any (fun it => (parseWork it.1).round = 2 &&
          writesPool s p (m.dies.map (·.2)) (m.nblocks * m.blockBytes) it) then .error stBadCommand
      else .ok { m with prog := items }

/-- SVC_MODEL_LOAD 0x0301. Gulper owns a queue on the pitch for the instance (R189). -/
def execSvcModelLoad (seq : Nat) (s : State) : Host.Outcome State Fault Refusal :=
  .next (s.onRequest seq 0x0301 fun r p =>
    let b := r.body
    if bit (u16 b 4) 0 then
      if u16 b 4 != 1 || !restZero b 6 then s.respond seq stBadCommand []
      else match p.model? (u32 b 0) with
        | none => s.respond seq stNotFound []
        | some m =>
          if m.sessions != [] || p.models.any (fun t => t.spec && t.draftModel = m.id) then s.respond seq stBusy []
          else
            (s.updPitch p.tag fun p =>
              ({ p with models := p.models.filter fun t => t.id != m.id }).dropOwned (gulperQueue m.id)).respond seq stOk
              (le 4 m.id ++ le 4 m.blockBytes)
    else match checkLoad s p b with
      | .error e => s.respond seq e []
      | .ok m =>
        (s.updPitch p.tag fun p =>
          ({ p with models := p.models ++ [{ m with core := s.pickCore }] }).withOwned (gulperQueue m.id) (m.dies.headD (0, 0)).1).respond seq stOk
          (le 4 m.id ++ le 4 m.blockBytes))

/-! ### Sessions (R194) -/

/-- The first ID at or above `n` that no session of the pitch has; looks at most `fuel` further. -/
def freeId (used : List Nat) : Nat → Nat → Nat
  | 0, n => n
  | fuel + 1, n => if (n % 2 ^ 32) ∈ used then freeId used fuel (n + 1) else n

/-- The fields of SVC_SESSION_OPEN are acceptable. -/
def openFieldsOk (m : Model) (b : Bytes) : Bool :=
  u32 b 4 < 4 && paramsOk false (slice b 16 12 ++ le 4 0 ++ le 16 0) && u32 b 28 ≤ m.maxLen && u64 b 32 % 64 = 0 &&
  [64, 128, 256, 512, 1024, 2048, 4096, 8192, 16384, 32768, 65536].contains (u32 b 40) && zeroRange b 44 4 && restZero b 80

/-- SVC_SESSION_OPEN 0x0302. -/
def execSvcSessionOpen (seq : Nat) (s : State) : Host.Outcome State Fault Refusal :=
  .next (s.onRequest seq 0x0302 fun r p =>
    let b := r.body
    match p.model? (u32 b 0) with
    | none => s.respond seq stNotFound []
    | some m =>
      if !openFieldsOk m b then s.respond seq stBadCommand []
      else if !dramSpan s p (u64 b 32) (64 + 32 * u32 b 40) then s.respond seq stOutOfRange []
      else if 65536 ≤ m.sessions.length then s.respond seq stNoCapacity []
      else
        let used := p.models.flatMap fun m => m.sessions.map (·.id)
        let n := freeId used used.length ((p.models.map (·.nextSession)).foldl max 0)
        let x : Session :=
          { id := n % 2 ^ 32, pinned := bit (u32 b 4) 0, noPrefix := bit (u32 b 4) 1, stream := u64 b 8
            temp := BitVec.ofNat 32 (u32 b 16), topP := BitVec.ofNat 32 (u32 b 20), topK := u32 b 24, maxLen := u32 b 28
            outBase := u64 b 32, outSlots := u32 b 40, openBytes := slice b 0 80
            stop := ((List.range 8).map fun i => u32 b (48 + 4 * i)).filter (· != 0xFFFFFFFF) }
        ((s.updModel p.tag m.id fun m => { m with sessions := m.sessions ++ [x], nextSession := n + 1 }).tryWrite p.tag
          (u64 b 32) (le 8 0)).respond seq stOk (le 4 x.id ++ le 4 0))

/-! ### Rollouts at admission (R295, R296) -/

/-- A 64-byte rollout entry (R296). What its request's end gives it is zero until then. -/
def rolloutEntry (r : Rollout) : Bytes :=
  let fin := fun (n : Nat) => if r.ended then n else 0
  le 8 r.reqTag ++ le 4 r.session ++ le 4 r.firstPos ++ le 4 (fin r.nGen) ++
  le 4 (fin 1 + (if r.rewarded then 2 else 0) + fin (if r.mixed then 4 else 0) + (if r.pinned then 8 else 0) +
    fin (r.endReason * 16 + r.status * 65536)) ++
  le 4 (fin r.epochLo) ++ le 4 (fin r.epochHi) ++ le 4 r.reward.toNat ++ le 4 0 ++ le 8 r.dataAddr ++ le 8 r.admitSeq ++ le 8 0

/-- The table address of an entry. -/
def Plan.entryAddr (x : Plan) (no : Nat) : Nat := x.table + 64 * (no % x.slots)

/-- The rollout's entry as the table holds it. -/
def State.writeEntry (s : State) (tag : Nat) (x : Plan) (r : Rollout) : State :=
  s.tryWrite tag (x.entryAddr r.admitSeq) (rolloutEntry r)

/-- The earliest running ROLLOUT phase that still accepts. -/
def Plan.accepting (x : Plan) : Option RunPhase :=
  if x.state != 1 then none
  else x.running.find? fun r => (x.phases[r.index]?).elim false fun f => f.kind = 0 && r.done < f.count

/-- The offset of the next data area of `n` bytes in the ring: at the head, or at the start where it would pass the end;
none while it meets an unconsumed area. -/
def Plan.dataSpace (x : Plan) (n : Nat) : Option Nat :=
  let clear := fun (o : Nat) => decide (o + n ≤ x.dataBytes) && x.rollouts.all fun r =>
    decide (r.dataAddr - x.dataBase + r.dataBytes ≤ o) || decide (o + n ≤ r.dataAddr - x.dataBase)
  if x.dataHead + n ≤ x.dataBytes then (if clear x.dataHead then some x.dataHead else none)
  else if clear 0 then some 0 else none

/-- The orchestrator's checks of a rollout candidate: a refusal's status, or the data area. -/
def Plan.candidate (x : Plan) (reqTag n : Nat) : Except Nat Nat :=
  if x.slots ≤ x.rollouts.length then .error stNoCapacity
  else match x.dataSpace n with
    | none => .error stNoCapacity
    | some o => if x.rollouts.any (fun r => r.reqTag = reqTag) then .error stBadCommand else .ok o

/-- An admitted candidate becomes the next rollout of the earliest accepting phase. -/
def Plan.enter (x : Plan) (r : Rollout) (off n : Nat) : Plan :=
  let first := (x.accepting).map (·.index)
  { x with
    rollouts := x.rollouts ++ [r], admitted := x.admitted + 1, dataHead := off + n
    running := x.running.map fun f => if some f.index = first then { f with done := f.done + 1, mark := if f.done = 0 then r.admitSeq else f.mark } else f }

/-! ### SVC_SUBMIT (R195) -/

/-- The fields of SVC_SUBMIT are acceptable, but for the tokens. -/
def submitFieldsOk (x : Session) (b : Bytes) : Bool :=
  u8 b 4 < 4 && u8 b 5 < 2 && zeroRange b 6 2 && u32 b 24 ≤ 131072 && restZero b 40 &&
  (if bit (u8 b 5) 0 then 1 ≤ u32 b 28 && 1 ≤ x.committed + u32 b 24 else u32 b 28 = 0)

/-- The candidate of a request (R214, R215). -/
def submitCandidate (p : Pitch) (m : Model) (x : Session) (b : Bytes) : Candidate :=
  let len := x.committed + u32 b 24
  let n := m.blocksFor x.maxLen (min (len + u32 b 28) x.maxLen)
  ⟨u8 b 4, u32 b 32, u32 b 36, bit (u8 b 5) 0, len - x.kvValid, u32 b 28, n - x.table.length,
   if m.spec && (p.model? m.draftModel).isSome then n - x.shadowTable.length else 0⟩

/-- An admitted request: the tokens are appended and the session prefills; a request without work is over at once. -/
def State.admitRequest (s : State) (p : Pitch) (m : Model) (x : Session) (b : Bytes) (toks : List Nat) (c : Candidate)
    (rollout : Option Nat) : State :=
  let req : ActiveReq :=
    { prio := c.cls, generate := c.generate, reqTag := u64 b 8, remaining := u32 b 28, ttft := c.ttft, tpot := c.tpot
      order := m.booth.nextOrder, reserved := c.need, afterSwap := p.opened m.id, rollout := rollout, bytes := slice b 0 40
      shadowReserved := c.shadowNeed }
  let s := s.updModel p.tag m.id fun m =>
    { (m.updSession x.id fun x => { x with tokens := x.tokens ++ toks, st := .prefill, req := some req, drafts := [] }) with
      booth := { m.booth with nextOrder := m.booth.nextOrder + 1 } }
  if !c.generate && x.committed + toks.length ≤ x.kvValid + 1 then s.endRequest p.tag m.id x.id 0 0 else s

/-- A refusal with its retry hint. -/
def State.refuse (s : State) (seq committed hint : Nat) : State := s.respond seq stNoCapacity (le 4 committed ++ le 4 hint)

/-- A submit after its field checks: as a rollout where a ROLLOUT phase accepts, else as an ordinary request. -/
def State.submit (s : State) (seq : Nat) (p : Pitch) (m : Model) (x : Session) (b : Bytes) (toks : List Nat) : State :=
  let c := submitCandidate p m x b
  let len := x.committed + u32 b 24
  let plan := if c.generate then (p.planOf? m.id).filter fun pl => pl.accepting.isSome else none
  let size := roundUp (4 * min (len + u32 b 28) x.maxLen + 12 * u32 b 28) 64
  match (plan.map fun pl => pl.candidate (u64 b 8) size : Option (Except Nat Nat)) with
  | some (.error e) =>
    if e = stNoCapacity then s.refuse seq x.committed m.booth.hintMinUs else s.respond seq e (le 4 x.committed ++ le 4 0)
  | area =>
    match boothHint p m c with
    | some h => s.refuse seq x.committed h
    | none =>
      let s := s.admitRequest p m x b toks c (plan.map (·.admitted))
      let s := match plan, area with
        | some pl, some (.ok o) =>
          let r : Rollout :=
            { admitSeq := pl.admitted, reqTag := u64 b 8, session := x.id, firstPos := len, nGen := 0, ended := false
              rewarded := false, mixed := false, pinned := x.pinned, endReason := 0, status := 0, epochLo := 0, epochHi := 0
              reward := 0, dataAddr := pl.dataBase + o, dataBytes := size, closing := false }
          (s.updPlan p.tag pl.run fun pl => pl.enter r o size).writeEntry p.tag pl r
        | _, _ => s
      s.respond seq stOk (le 4 len ++ le 4 0)

/-- SVC_SUBMIT 0x0303. -/
def execSvcSubmit (seq : Nat) (s : State) : Host.Outcome State Fault Refusal :=
  .next (s.onRequest seq 0x0303 fun r p =>
    let b := r.body
    let sid := u32 b 0
    if p.expired sid then s.respond seq stExpired []
    else match p.session? sid with
      | none => s.respond seq stNotFound []
      | some (m, x) =>
        if !s.mayEvaluate p m.id r then s
        else if x.pastDue r.acceptedAt then (s.expireSession p.tag m.id sid).respond seq stExpired []
        else if x.st != .idle || x.pause.isSome then s.respond seq stBusy []
        else if x.maxLen < x.committed + u32 b 24 then s.respond seq stOutOfRange []
        else if !submitFieldsOk x b then s.respond seq stBadCommand []
        else if !dramSpan s p (u64 b 16) (4 * u32 b 24) then s.respond seq stOutOfRange []
        else match readBytes s p (u64 b 16) (4 * u32 b 24) with
          | .error e => s.respond seq e []
          | .ok t =>
            let toks := (List.range (u32 b 24)).map fun i => u32 t (4 * i)
            if toks.any fun k => m.vocab ≤ k then s.respond seq stBadCommand [] else s.submit seq p m x b toks)

/-- SVC_SESSION_CLOSE 0x0306 (R211, R231). Given again, it answers once the last record is visible. -/
def execSvcSessionClose (seq : Nat) (s : State) : Host.Outcome State Fault Refusal :=
  .next (s.onRequest seq 0x0306 fun r p =>
    let sid := u32 r.body 0
    if !restZero r.body 4 then s.respond seq stBadCommand []
    else match p.models.findSome? fun m => (m.session? sid).bind fun x => if x.closing = some (some seq) then some m.id else none with
      | some m => s.finishClosing p.tag m sid
      | none =>
        if p.expired sid then s.respond seq stExpired []
        else match p.session? sid with
          | none => s.respond seq stNotFound []
          | some (m, x) =>
            if x.pastDue r.acceptedAt then (s.expireSession p.tag m.id sid).respond seq stExpired []
            else if x.st = .paused then (s.closePaused p.tag m.id sid endClosed 0).respond seq stOk (le 4 x.committed)
            else if x.pause.isSome then s
            else s.startClosing p.tag m.id sid (some seq))

/-! ### Forming a step (R197, R198, R202, R203) -/

/-- The session may join a step (R197, R301). -/
def Session.ready (s : State) (p : Pitch) (x : Session) : Bool :=
  x.inStep.isNone && x.closing.isNone && x.pause.isNone && (x.req.elim false fun r => !r.afterSwap) && !x.held s p

/-- Sessions of a state that may join, in the order of R197: higher class first, then the longest wait since their last
record. -/
def Model.joiners (s : State) (p : Pitch) (m : Model) (st : SessSt) : List Nat :=
  (sortBy (fun (a b : Session) =>
      let ca := a.req.elim 0 (·.prio)
      let cb := b.req.elim 0 (·.prio)
      decide (cb < ca) || (ca = cb && decide (a.lastRecord ≤ b.lastRecord)))
    (m.sessions.filter fun x => x.st = st && x.ready s p)).map (·.id)

/-- Blocks taken so that a session's table covers a position (R190, R215). -/
def Model.cover (m : Model) (sid last : Nat) : Model :=
  let n := (m.session? sid).elim 0 fun x => last / 64 + 1 - x.table.length
  (List.range n).foldl (fun m _ =>
    match m.takeBlock sid with
    | (m, none) => m
    | (m, some b) => m.updSession sid fun x =>
      { x with table := x.table ++ [b], req := x.req.map fun r => { r with reserved := r.reserved - 1 } }) m

/-- The same for the session's shadow in the draft instance (R206). -/
def Pitch.coverShadow (p : Pitch) (m : Model) (sid last : Nat) : Pitch :=
  if !m.spec then p
  else
    let n := (m.session? sid).elim 0 fun x => last / 64 + 1 - x.shadowTable.length
    (List.range n).foldl (fun p _ =>
      match p.model? m.draftModel with
      | none => p
      | some d => match d.takeBlock sid with
        | (_, none) => p
        | (d', some b) =>
          (p.updModel d.id fun _ => d').updModel m.id fun m => m.updSession sid fun x =>
            { x with shadowTable := x.shadowTable ++ [b]
                     req := x.req.map fun r => { r with shadowReserved := r.shadowReserved - 1 } }) p

/-- Blocks that the step completes for certain stand PENDING (R203). -/
def Model.markPending (m : Model) (p : Pitch) (sid last : Nat) : Model :=
  match m.session? sid with
  | none => m
  | some x =>
    (List.range (last / 64 + 1)).foldl (fun m j =>
      let own := (m.session? sid).bind fun x => (x.table[j]?).bind m.block?
      if 64 * j + 63 < x.kvValid || min last (x.committed - 1) < 64 * j + 63 then m
      else if 64 * j < x.kvValid && !m.staleReuse && (own.elim true fun b => b.epochLo != m.epoch || b.epochHi != m.epoch) then m
      else (m.session? sid).elim m fun x => m.enter p x bsPending m.epoch j) m

/-- A block of the index attached to a session at block j (R202). -/
def Model.attach (m : Model) (sid j id : Nat) : Model :=
  match m.session? sid with
  | none => m
  | some x =>
    let m := match x.table[j]? with
      | some old => m.releaseBlock old
      | none => m
    (m.updBlock id fun b => { b with refcount := b.refcount + 1, state := bsHashed }).updSession sid fun x =>
      { x with
        kvValid := 64 * j + 64
        table := if j < x.table.length then x.table.set j id else x.table ++ [id]
        req := x.req.map fun r => if j < x.table.length then r else { r with reserved := r.reserved - 1 } }

/-- The prefix look-up of a session (R202); the flag says that it met a PENDING entry and waits (R203). -/
def Model.walkPrefix (p : Pitch) (sid : Nat) : Nat → Model → Model × Bool
  | 0, m => (m, false)
  | fuel + 1, m =>
    match m.session? sid with
    | none => (m, false)
    | some x =>
      let j := x.kvValid / 64
      if !m.reuse || x.noPrefix || x.kvValid % 64 != 0 || x.committed < x.kvValid + 65 then (m, false)
      else match Model.chainHash p m x j with
        | none => (m, false)
        | some parent =>
          let toks := blockTokens x.tokens j
          let h := blockHash p.prefixKey parent m.id (m.hashEpoch m.epoch) toks
          if m.blocks.any fun b => b.state = bsPending && b.hash = h then (m, true)
          else match m.lookup h parent toks m.epoch with
            | none => (m, false)
            | some b => walkPrefix p sid fuel (m.attach sid j b.id)

/-- A session takes positions [kvValid, kvValid + n) of a step: its blocks, its PENDING entries and its part. -/
def State.joinStep (s : State) (tag model sid n : Nat) (decode : Bool) (step : Nat) : State × Option StepPart :=
  match s.session? tag model sid with
  | none => (s, none)
  | some x =>
    let last := x.kvValid + n - 1
    let s := s.updPitch tag fun p =>
      let p := (p.model? model).elim p fun m => p.coverShadow m sid last
      p.updModel model fun m =>
        ((m.cover sid last).markPending p sid last).updSession sid fun x => { x with inStep := some step }
    let drafts := if decode then n - 1 else 0
    (s, some ⟨sid, x.kvValid, last, decode, drafts, if last + 1 < x.committed then 0 else drafts + 1⟩)

/-- A step in formation: the state, what is left of the budget, and the parts so far. -/
structure Forming where
  s : State
  left : Nat
  parts : List StepPart

/-- The drafts that a session's verify step takes (R206). -/
def Model.draftCount (m : Model) (x : Session) : Nat := if m.spec then min m.draftLen (x.maxLen - x.committed) else 0

/-- One DECODE session taken (R197, R206): with drafts, once its shadow has proposed them. -/
def formDecode (tag model step : Nat) (f : Forming) (sid : Nat) : Forming :=
  match f.s.model? tag model, f.s.session? tag model sid with
  | some m, some x =>
    let n := 1 + m.draftCount x
    if f.left < n || x.drafts.length != m.draftCount x then f
    else
      let r := f.s.joinStep tag model sid n true step
      ⟨r.1, f.left - n, f.parts ++ r.2.toList⟩
  | _, _ => f

/-- One PREFILL session taken, after its prefix look-up (R197, R198, R202). -/
def formPrefill (tag model step : Nat) (f : Forming) (sid : Nat) : Forming :=
  if f.left = 0 then f
  else match f.s.pitch? tag, f.s.model? tag model, f.s.session? tag model sid with
    | some p, some m, some x =>
      let w := Model.walkPrefix p sid (x.committed / 64 + 1) m
      let s := f.s.updModel tag model fun _ => w.1
      if w.2 then { f with s := s }
      else match s.session? tag model sid with
        | none => { f with s := s }
        | some x =>
          let gen := x.req.elim false (·.generate)
          let work := (if gen then x.committed else x.committed - 1) - x.kvValid
          if work = 0 then { f with s := s.endRequest tag model sid 0 0 }
          else
            let n := min (min work m.prefillChunk) f.left
            let r := s.joinStep tag model sid n false step
            ⟨r.1, f.left - n, f.parts ++ r.2.toList⟩
    | _, _, _ => f

/-- How a session names a draft step that its shadow is in: the steps of its own instance have other numbers. -/
def draftStep (step : Nat) : Nat := 2 ^ 64 + step

/-- One shadow of a target session taken into a draft step (R206): the positions from the shadow's KV_VALID up to the last token or
draft, as far as a chunk and the budget go; where it reaches that, the step samples the next draft. -/
def formDraft (tag target step : Nat) (d : Model) (f : Forming) (sid : Nat) : Forming :=
  match f.s.model? tag target, f.s.session? tag target sid with
  | some m, some x =>
    let work := x.committed + x.drafts.length - x.shadowKv
    let n := min (min work d.prefillChunk) f.left
    if n = 0 then f
    else
      let last := x.shadowKv + n - 1
      let s := f.s.updPitch tag fun p =>
        (p.coverShadow m sid last).updModel target fun m => m.updSession sid fun x =>
          { x with inStep := some (draftStep step) }
      ⟨s, f.left - n, f.parts ++ [⟨sid, x.shadowKv, last, false, 0, if n = work then 1 else 0⟩]⟩
  | _, _ => f

/-- A session whose shadow has drafts to propose. -/
def Model.wantsDrafts (m : Model) (sid : Nat) : Bool :=
  (m.session? sid).elim false fun x => x.drafts.length < m.draftCount x

/-- A draft step of a draft instance: for the first target instance that has a DECODE session which waits for drafts; the target, and
the step in formation. A step takes the shadows of one target and no session of the instance's own (DESIGN CHOICE,
notes/assumptions/67.md). -/
def State.formDrafts (s : State) (tag : Nat) (p : Pitch) (d : Model) : Option (Nat × Forming) :=
  (p.models.filter fun t => t.spec && t.draftModel = d.id).findSome? fun t =>
    let f := ((t.joiners s p .decode).filter t.wantsDrafts).foldl (formDraft tag t.id d.nextStep d) ⟨s, d.maxStepTokens, []⟩
    if f.parts = [] then none else some (t.id, f)

/-- A step boundary: waiting records are written as the rings have room, and closes go on (R196, R211). -/
def State.boundary (s : State) (tag model : Nat) : State :=
  ((s.model? tag model).elim [] fun m => m.sessions.map (·.id)).foldl
    (fun s sid => (s.flushRecords tag model sid).finishClosing tag model sid) s

/-! ### The step program (R189, R302) -/

/-- The positions that a step samples, parts in step order: the session, with the STREAM that it draws from, and the position (R198,
R206). The parts are sessions of `own`, or their shadows. -/
def samplePositions (own : Model) (shadow : Bool) (parts : List StepPart) : List (Session × Nat) :=
  parts.flatMap fun q => (own.session? q.session).elim [] fun x =>
    if shadow then (List.range q.rows).map fun i => ({ x with stream := x.stream ^^^ 2 ^ 63 }, x.committed + x.drafts.length + i)
    else (List.range q.rows).map fun i => (x, x.committed + i)

/-- The SAMPLE parameter record of a sampled position (R120, R198). -/
def sampleRecord (x : Session × Nat) : Bytes :=
  le 4 x.1.temp.toNat ++ le 4 x.1.topP.toNat ++ le 4 x.1.topK ++ le 4 0 ++ le 8 x.1.stream ++ le 8 x.2

/-- The input positions of a step, in step order. -/
def stepPositions (parts : List StepPart) : List Nat :=
  parts.flatMap fun q => (List.range (q.last + 1 - q.first)).map (q.first + ·)

/-- The KV blocks that the step's input positions attend to, session by session. -/
def stepBlocks (own : Model) (shadow : Bool) (parts : List StepPart) : List Nat :=
  parts.flatMap fun q => (own.session? q.session).elim [] fun x =>
    (if shadow then x.shadowTable else x.table).take (q.last / 64 + 1)

/-- The values of the patch sources of a step program (R189). -/
def stepSource (parts : List StepPart) (epoch posAddr parAddr slot : Nat) : Nat → Option Nat
  | 1 => some (stepPositions parts).length
  | 2 => some parts.length
  | 3 => some epoch
  | 4 => some posAddr
  | 5 => some parAddr
  | 6 => some slot
  | _ => none

/-- The slot address of a block on the die that executes a descriptor (R190). -/
def Model.slotAddr (m : Model) (wd : Bytes) (block : Nat) : Nat :=
  lookupD m.dies ((parseWork wd).lcluster / 16) 0 + block * m.blockBytes

/-- The projection item that item i of a program is the MVP variant of, where it is one: an MVP item and an MMA item. Which items
belong together the spec leaves to the program (notes/assumptions/58.md). -/
def Model.variantOf (m : Model) (i : Nat) : Option Nat :=
  (Config.mvpVariant (m.prog.flatMap (·.1)) i).filter fun j =>
    (m.prog[i]?).elim false (fun x => (parseWork x.1).typ = tyMvp) && (m.prog[j]?).elim false (fun x => (parseWork x.1).typ = tyMma)

/-- The arrays of a logical cluster hold ready work: ready MMA items, as they stand when the step is instantiated (R107;
DESIGN CHOICE, notes/assumptions/64.md). -/
def arraysBusy (p : Pitch) (lcluster : Nat) : Bool :=
  p.items.any fun i => i.phase = .ready && i.w.typ = tyMma && i.w.lcluster = lcluster

/-- Gulper uses the MVP for a step of this many positions, by the format of W (R107). -/
def usesMvp (s : State) (p : Pitch) (wd : Bytes) (positions : Nat) : Bool :=
  let w := parseWork wd
  match fmtOf (parseDesc (rawBytes s p (w.addr 0) 64)).fmt with
  | some .e2m1 => decide (positions ≤ 4)
  | some .e3m2 => decide (positions ≤ 8) && arraysBusy p w.lcluster
  | _ => decide (positions ≤ 8)

/-- Item i of the program is instantiated: a variant where the MVP is used, a projection item where no variant of it is (R189). -/
def takesItem (s : State) (p : Pitch) (m : Model) (positions i : Nat) : Bool :=
  let used := fun k => (m.prog[k]?).elim false fun x => usesMvp s p x.1 positions
  if (m.variantOf i).isSome then used i
  else !((List.range m.prog.length).any fun k => m.variantOf k = some i && used k)

/-- A SAMPLE item draws with the instance's SAMPLE_SEED (R186). -/
def Model.seedWork (m : Model) (w : Work) : Work :=
  if (parseWork w.wd).isSample then { w with wd := fillBits w.wd 448 128 m.seed.toNat } else w

/-- The descriptors of one step: an item patched with PER_BLOCK once for each block, every other item once. -/
def stepWork (s : State) (p : Pitch) (m own : Model) (shadow : Bool) (parts : List StepPart) (posAddr parAddr : Nat) : List Work :=
  let items := m.prog.zipIdx.filter fun x => takesItem s p m (stepPositions parts).length x.2
  (items.flatMap fun x =>
    if x.1.2.any fun w => patchSource w = 6 then
      (stepBlocks own shadow parts).map fun b => fillWork s p x.2 x.1 (stepSource parts m.epoch posAddr parAddr (m.slotAddr x.1.1 b))
    else [fillWork s p x.2 x.1 (stepSource parts m.epoch posAddr parAddr 0)]).map m.seedWork

/-- The package layer of a descriptor (R290). -/
def layerOf (bounds : List Nat) (index : Nat) : Nat := (bounds.filter (· ≤ index)).length - 1

/-- A descriptor of a step may be submitted: in SWAP a step of the new epoch needs the gate of its layer (R302). -/
def submitOk (p : Pitch) (m : Model) (t : TokStep) (w : Work) : Bool :=
  (p.planOf? m.id).elim true fun pl =>
    pl.stage != 3 || t.epoch != m.epoch || pl.gates.getD (layerOf pl.bounds w.index) true

/-- Gulper submits a step's descriptors in order, as far as the gates let it. -/
def Pitch.submitStep (p : Pitch) (model step : Nat) : Pitch :=
  match (p.model? model).bind fun m => (m.steps.find? fun t => t.id = step).map fun t => (m, t) with
  | none => p
  | some (m, t) =>
    let ws := t.todo.takeWhile (submitOk p m t)
    let n := p.nextSeq (gulperQueue model)
    (p.updQueue (gulperQueue model) fun q => q.submitWork ws).updModel model fun m =>
      { m with
        steps := m.steps.map fun u =>
          if u.id = step then
            { u with todo := u.todo.drop ws.length, seqs := u.seqs ++ ws.zipIdx.map fun w => (w.1.index, n + w.2) }
          else u }

/-- The instance whose sessions, or whose sessions' shadows, a step of an instance takes (R206). -/
def Pitch.stepOwner (p : Pitch) (m : Model) (drafting : Option Nat) : Model := (drafting.bind p.model?).getD m

/-- A step enters the pipeline: its lists are written where Gulper keeps them, its program is instantiated, and its
descriptors are submitted. -/
def State.startStep (s : State) (tag model : Nat) (now : Nat) (parts : List StepPart) (again : Bool) (drafting : Option Nat) :
    State :=
  match s.model? tag model with
  | none => s
  | some m =>
    let enter := fun (s : State) (parAddr : Nat) (todo : List Work) => s.updModel tag model fun m =>
      { m with nextStep := m.nextStep + 1
               steps := m.steps ++ [{ id := m.nextStep, epoch := m.epoch, formedAt := now, parts := parts, again := again, todo := todo
                                      parAddr := parAddr, drafting := drafting }] }
    if m.prog = [] then enter s 0 []
    else
      let posAddr := 64 * (Config.gulperArea s.free 0 % 2 ^ 42)
      let parAddr := 64 * (Config.gulperArea s.free 1 % 2 ^ 42)
      let own := (s.pitch? tag).elim m fun p => p.stepOwner m drafting
      let s := s.draw
      let s := (s.tryWrite tag posAddr ((stepPositions parts).flatMap (le 4))).tryWrite tag parAddr
        ((samplePositions own drafting.isSome parts).flatMap sampleRecord)
      (enter s parAddr ((s.pitch? tag).elim [] fun p => stepWork s p m own drafting.isSome parts posAddr parAddr)).updPitch tag
        fun p => p.submitStep model m.nextStep

/-- The sessions of an instance that a step takes: those in DECODE first (R197). -/
def State.formSessions (s : State) (tag : Nat) (p : Pitch) (m : Model) : Forming :=
  let f := (m.joiners s p .decode).foldl (formDecode tag m.id m.nextStep) ⟨s, m.maxStepTokens, []⟩
  (m.joiners s p .prefill).foldl (formPrefill tag m.id m.nextStep) f

/-- TOKEN_STEP_FORM (R197, R206): at a step boundary with fewer steps in flight than the pipeline depth. A draft instance proposes
drafts first. -/
def execTokenStepForm (tag model : Nat) (s : State) : Host.Outcome State Fault Refusal :=
  .next (
    let s := s.boundary tag model
    match s.pitch? tag, s.model? tag model with
    | some p, some m =>
      if p.st != .active || !s.orchestrates m.core || m.depth ≤ m.steps.length then s
      else match s.formDrafts tag p m with
        | some x => x.2.s.startStep tag model s.now x.2.parts false (some x.1)
        | none =>
          let f := s.formSessions tag p m
          if f.parts = [] then f.s else f.s.startStep tag model s.now f.parts false none
    | _, _ => s)

/-! ### Committing a step (R198, R199, R201, R207, R208) -/

/-- m of R207: accepted drafts. -/
def acceptedDrafts : List Nat → List Sampled → Nat
  | x :: xs, t :: ts => if t.token = x then acceptedDrafts xs ts + 1 else 0
  | _, _ => 0

/-- The END reason of a token committed as the request's `i`-th of this step at position L + i (R199); 0 where it ends
nothing. -/
def endReason (x : Session) (r : ActiveReq) (i token : Nat) : Nat :=
  if x.stop.contains token then endStop
  else if r.remaining ≤ i + 1 then endMaxNew
  else if x.maxLen ≤ x.committed + i + 1 then endMaxLen
  else 0

/-- n of R207 and the END reason of the last committed token, over the tokens t[0] to t[m]. -/
def commitCount (x : Session) (r : ActiveReq) : Nat → List Sampled → Nat × Nat
  | i, [] => (i, 0)
  | i, t :: ts => if endReason x r i t.token != 0 then (i + 1, endReason x r i t.token) else commitCount x r (i + 1) ts

/-- Some valid entry below a position is of another epoch (R196, R205). -/
def Model.mixedBelow (m : Model) (x : Session) (first epoch : Nat) : Bool :=
  (x.table.take (ceilDiv first 64)).any fun b =>
    (m.block? b).elim false fun d => d.epochLo != epoch || d.epochHi != epoch

/-- Entries of the positions [first, first + n) of a block table are written in an epoch (R191): the blocks' epochs, where what a
block held below stays. -/
def Model.stamp (m : Model) (table : List Nat) (first n epoch : Nat) : Model :=
  ((List.range (ceilDiv (first + n) 64)).filter fun j => first < 64 * j + 64).foldl (fun m j =>
    match table[j]? with
    | none => m
    | some b => m.updBlock b fun d =>
      if first ≤ 64 * j then { d with epochLo := epoch, epochHi := epoch }
      else { d with epochLo := min d.epochLo epoch, epochHi := max d.epochHi epoch }) m

/-- KV_VALID advances over entries of an epoch: the epochs of the blocks that the step wrote, up to `last`, and the insertions of
R201. -/
def Model.advance (m : Model) (p : Pitch) (sid first last kv epoch : Nat) : Model :=
  match m.session? sid with
  | none => m
  | some x =>
    let js := (List.range (ceilDiv kv 64)).filter fun j => first < 64 * j + 64
    ((m.stamp x.table first (last + 1 - first) epoch).updSession sid fun x =>
      { x with kvValid := kv, shadowKv := min x.shadowKv kv }).insertBlocks p sid js

/-- The generated tokens of a rollout (R296). -/
def Pitch.extendRollout (p : Pitch) (model : Nat) (r : ActiveReq) (toks : List (Nat × Nat × Nat)) (mixed : Bool) : Pitch :=
  match r.rollout, p.planOf? model with
  | some a, some pl => p.updPlan pl.run fun pl => pl.updRollout a fun x =>
    { x with
      nGen := x.nGen + toks.length, mixed := x.mixed || (mixed && toks != []), gen := x.gen ++ toks
      epochLo := toks.foldl (fun e t => min e t.2.1) (if x.nGen = 0 then (toks.headD (0, 0, 0)).2.1 else x.epochLo)
      epochHi := toks.foldl (fun e t => max e t.2.1) x.epochHi }
  | _, _ => p

/-- The samples of a session committed (R207). -/
def State.commitSamples (s : State) (tag : Nat) (m : Model) (x : Session) (r : ActiveReq) (part : StepPart) (epoch : Nat)
    (res : StepResult) : State :=
  let acc := acceptedDrafts res.drafts res.samples
  let n := commitCount x r 0 (res.samples.take (acc + 1))
  let mixed := m.mixedBelow x part.first epoch
  let toks := res.samples.take n.1
  let flags := fun (i : Nat) => recordFlags (i < acc) (acc ≤ i) mixed (n.2 != 0 && i + 1 = n.1) (if i + 1 = n.1 then n.2 else 0) 0
  let recs := toks.zipIdx.map fun t =>
    outRecord (x.committed + t.2) t.1.token t.1.logprob.toNat epoch (flags t.2) r.reqTag
  let s := s.updPitch tag fun p =>
    let p := p.extendRollout m.id r (toks.zipIdx.map fun t => (t.1.logprob.toNat, epoch, flags t.2)) mixed
    p.updModel m.id fun m =>
      (m.updSession x.id fun x =>
        { x with tokens := x.tokens ++ toks.map (·.token), st := .decode, drafts := []
                 req := x.req.map fun r => { r with remaining := r.remaining - n.1 } }).advance p x.id part.first part.last
        (x.committed + n.1 - 1) epoch
  let s := s.pushRecords tag m.id x.id recs
  if n.2 != 0 then s.endRequest tag m.id x.id n.2 0 else s

/-- A session whose sample after its accepted drafts is an invalid row (R199): the accepted tokens commit as they would without
drafts, the row commits nothing and ends the request, unless a committed token has ended it. What the session had PENDING
leaves the index (R203). -/
def State.commitInvalid (s : State) (tag : Nat) (m : Model) (x : Session) (r : ActiveReq) (part : StepPart) (epoch : Nat)
    (res : StepResult) : State :=
  let acc := acceptedDrafts res.drafts res.samples
  let s := if acc = 0 then s else s.commitSamples tag m x r part epoch { res with samples := res.samples.take acc }
  (s.failRequest tag m.id x.id endInvalidRow 0).updModel tag m.id fun m => m.dropPending x.id

/-- One session of a step committed. -/
def commitPart (tag model epoch : Nat) (results : List StepResult) (s : State) (part : StepPart) : State :=
  let s := match s.model? tag model, s.session? tag model part.session with
    | some m, some x => match x.req with
      | none => s
      | some r =>
        if part.last + 1 < x.committed then
          let s := s.updPitch tag fun p => p.updModel model fun m => m.advance p x.id part.first part.last (part.last + 1) epoch
          if !r.generate && x.committed ≤ part.last + 2 then s.endRequest tag model x.id 0 0 else s
        else match results.find? fun (q : StepResult) => q.session = part.session with
          | none => s
          | some q =>
            if !q.invalid then s.commitSamples tag m x r part epoch q
            else s.commitInvalid tag m x r part epoch q
    | _, _ => s
  s.updSession tag model part.session fun x => { x with inStep := none }

/-- The KV of a session is recomputed (R301): its blocks return to its reservation, and a session in DECODE prefills. -/
def State.recomputeKv (s : State) (tag model sid : Nat) : State :=
  s.updModel tag model fun m =>
    match m.session? sid with
    | none => m
    | some x => ((m.dropPending sid).releaseBlocks x.table).updSession sid fun x =>
      { x with
        table := [], kvValid := 0, drafts := [], recompute := false, st := if x.st = .decode then .prefill else x.st
        req := x.req.map fun r => { r with reserved := r.reserved + x.table.length } }

/-- What waited for a session's step to end goes on. -/
def State.afterStep (s : State) (tag model sid : Nat) : State :=
  let s := if (s.session? tag model sid).elim false (·.recompute) then s.recomputeKv tag model sid else s
  s.finishClosing tag model sid

/-- The output record of a row of a step's SAMPLE items, TOKEN and LOGPROB, as the sampler computed it (R19, R120, R198); none where
no item has the row. -/
def TokStep.rowRecord (p : Pitch) (model : Nat) (t : TokStep) (row : Nat) : Option Sampled :=
  let a := t.parAddr + 32 * row
  ((p.queue? (gulperQueue model)).elim [] (·.sampled)).findSome? fun x =>
    if t.seqs.any (·.2 = x.1) && x.2.1 ≤ a then
      (x.2.2[(a - x.2.1) / 32]?).map fun b => ⟨u32 b 0, BitVec.ofNat 32 (u32 b 4)⟩
    else none

/-- An invalid row's TOKEN (R121). -/
def noToken : Nat := 0xFFFFFFFF

/-- A session's part of a step samples, and the session still asks for it. -/
def Model.samples (m : Model) (part : StepPart) : Bool :=
  part.rows != 0 && (m.session? part.session).elim false fun x => x.req.isSome

/-- The results of the sampling sessions are well-formed: the drafts that the shadow has proposed, as many samples as the part has
rows, tokens of the vocabulary or invalid rows, and the flag of a session whose first sample after its accepted drafts is
invalid. -/
def partOk (m : Model) (results : List StepResult) (part : StepPart) : Bool :=
  !m.samples part ||
  (results.find? fun q => q.session = part.session).elim false fun q =>
    q.drafts = (if part.drafts = 0 then [] else (m.session? part.session).elim [] (·.drafts)) &&
    q.samples.length = part.rows && q.samples.all (fun t => t.token < m.vocab || t.token = noToken) &&
    q.invalid = ((q.samples[acceptedDrafts q.drafts q.samples]?).elim false fun t => t.token = noToken)

/-- The samples of a step, each with its SAMPLE row: every part has the rows that it was formed with. -/
def stepSamples (m : Model) (results : List StepResult) : Nat → List StepPart → List (Nat × Sampled)
  | _, [] => []
  | row, part :: l =>
    (if m.samples part then
      (results.find? fun q => q.session = part.session).elim [] fun q => q.samples.zipIdx.map fun x => (row + x.2, x.1)
    else []) ++ stepSamples m results (row + part.rows) l

/-- The results are those of the step: well-formed, and token and log-probability of every sample as the step's SAMPLE items
have computed them (R19, R20, R198). `own` has the sessions. -/
def resultsOk (p : Pitch) (m own : Model) (t : TokStep) (results : List StepResult) : Bool :=
  t.parts.all (partOk own results) &&
  (stepSamples own results 0 t.parts).all fun x => (t.rowRecord p m.id x.1).elim true fun r => r = x.2

/-- A shadow's part of a draft step committed: its KV_VALID advances, and the sample is its next draft (R206). -/
def commitDraft (tag draft target epoch : Nat) (results : List StepResult) (s : State) (part : StepPart) : State :=
  s.updPitch tag fun p =>
    let table := ((p.model? target).bind fun m => m.session? part.session).elim [] (·.shadowTable)
    (p.updModel draft fun d => d.stamp table part.first (part.last + 1 - part.first) epoch).updModel target fun m =>
      let next := if m.samples part then
          ((results.find? fun q => q.session = part.session).elim [] fun q => q.samples.map (·.token)) else []
      m.updSession part.session fun x =>
        { x with inStep := none, shadowKv := part.last + 1, drafts := x.drafts ++ next }

/-- A step of the new epoch passes only open gates (R302). -/
def gatesOpen (p : Pitch) (m : Model) (step : TokStep) : Bool :=
  (p.planOf? m.id).elim true fun pl => pl.stage != 3 || step.epoch != m.epoch || pl.gates.all id

/-- Every descriptor of a step is submitted and has completed, with OK or DEGRADED (R209). -/
def stepDone (p : Pitch) (m : Model) (t : TokStep) : Bool :=
  t.todo = [] && p.allEnded (gulperQueue m.id) (t.seqs.map (·.2)) && (p.firstFailure (gulperQueue m.id) (t.seqs.map (·.2))).isNone

/-- The booth's measurements after a committed step (R216, R217, R221). -/
def Model.afterCommit (m : Model) (step : TokStep) (tokens latencyNs : Nat) (cause : Bool) : Model :=
  let pos := (step.parts.map fun q => q.last + 1 - q.first).foldl (· + ·) 0
  let dec := (step.parts.filter (·.decode)).length
  let b := (m.booth.updK latencyNs pos).countStep cause
  { m with
    steps := m.steps.filter fun t => t.id != step.id
    booth := if m.spec && dec != 0 then b.updAcc m.draftLen tokens dec else b }

/-- Tokens that the DECODE sessions of a step have committed. -/
def decodeTokens (m m' : Model) (step : TokStep) : Nat :=
  ((step.parts.filter (·.decode)).map fun q =>
    (m'.session? q.session).elim 0 (·.committed) - (m.session? q.session).elim 0 (·.committed)).foldl (· + ·) 0

/-- A step's latency from formation to commit on the local counter of 40 ns counts (R8, R216). -/
def TokStep.latencyNs (t : TokStep) (now : Nat) : Nat := 40 * (now - t.formedAt)

/-- TOKEN_STEP_COMMIT: a completed step commits each of its sessions; the booth measures it and may pause (R222). The latency that the
row carries is the one that the local counter shows (R216). -/
def execTokenStepCommit (tag model step latencyNs : Nat) (results : List StepResult) (s : State) :
    Host.Outcome State Fault Refusal :=
  .next (match s.pitch? tag, s.model? tag model with
    | some p, some m => match m.steps.find? fun t => t.id = step with
      | none => s
      | some t =>
        let own := p.stepOwner m t.drafting
        if latencyNs != t.latencyNs s.now || !resultsOk p m own t results || !gatesOpen p m t || !stepDone p m t then s
        else
          let s := s.updPitch tag fun p => p.useEndings (gulperQueue model) (t.seqs.map (·.2))
          let s := match t.drafting with
            | some target => t.parts.foldl (commitDraft tag model target t.epoch results) s
            | none => t.parts.foldl (commitPart tag model t.epoch results) s
          let s := s.updModel tag model fun m' => m'.afterCommit t (decodeTokens m m' t) latencyNs (lastingCause s p m)
          ((t.parts.map (·.session)).foldl (fun s sid => s.afterStep tag own.id sid) s).boothPause tag model
    | _, _ => s)

/-! ### Failures (R209, R210) -/

/-- The sessions of a failed step that are formed again: they still ask for it. -/
def again? (m : Model) (part : StepPart) : Bool :=
  (m.session? part.session).elim false fun x =>
    x.req.isSome && x.closing.isNone && x.pause.isNone && !x.recompute

/-- TOKEN_STEP_FAIL (R209): a work item of the step has completed with a status other than OK or DEGRADED; the step commits
nothing, and it is formed once more, or its sessions end FAILED with that status. -/
def execTokenStepFail (tag model step : Nat) (s : State) : Host.Outcome State Fault Refusal :=
  .next (match s.pitch? tag, s.model? tag model with
    | some p, some m => match m.steps.find? fun t => t.id = step with
      | none => s
      | some t => match p.firstFailure (gulperQueue model) (t.seqs.map (·.2)) with
        | none => s
        | some status =>
          let own := p.stepOwner m t.drafting
          let s := s.updPitch tag fun p => p.useEndings (gulperQueue model) (t.seqs.map (·.2))
          let ids := t.parts.map (·.session)
          let s := s.updModel tag own.id fun m =>
            ids.foldl (fun m sid =>
              (if t.drafting.isSome then m else m.dropPending sid).updSession sid fun x => { x with inStep := none }) m
          let s := s.updModel tag model fun m => { m with steps := m.steps.filter fun u => u.id != t.id }
          if t.again then
            ids.foldl (fun s sid => (s.failRequest tag own.id sid endFailed status).afterStep tag own.id sid) s
          else
            let parts := t.parts.filter (again? own)
            let s := s.updModel tag own.id fun m' =>
              parts.foldl (fun m' q =>
                (if t.drafting.isSome then m' else m'.markPending p q.session q.last).updSession q.session fun x =>
                  { x with inStep := some (if t.drafting.isSome then draftStep m.nextStep else m.nextStep) }) m'
            let s := s.updModel tag model fun m =>
              { m with booth := { m.booth with causes := if parts = [] then m.booth.causes else [3] } }
            let s := if parts = [] then s else s.startStep tag model s.now parts true t.drafting
            (ids.filter fun sid => !(parts.any fun (q : StepPart) => q.session = sid)).foldl (fun s sid => s.afterStep tag own.id sid) s
    | _, _ => s)

/-- A session whose context can no longer be read: a FAILED record, and it is closed (R210). -/
def State.loseSession (s : State) (tag model sid : Nat) : State :=
  let s := match (s.session? tag model sid).bind (·.req) with
    | some _ => s.failRequest tag model sid endFailed stUncorrectable
    | none => s.pushEnd tag model sid 0 endFailed stUncorrectable
  s.startClosing tag model sid none

/-- HASHED_BLOCK_UNCORRECTABLE (R210). -/
def execHashedBlockUncorrectable (tag model block : Nat) (s : State) : Host.Outcome State Fault Refusal :=
  .next (match s.model? tag model with
    | none => s
    | some m => match m.block? block with
      | none => s
      | some b =>
        if b.state = bsHashed || b.state = bsCached then
          let holders := (m.sessions.filter fun x => x.table.contains block).map (·.id)
          let s := s.updModel tag model fun m =>
            if holders = [] then { m with blocks := m.blocks.filter fun c => c.id != block }
            else m.updBlock block fun c => { c with state := bsOwned, hash := [], parent := [], tokens := [] }
          holders.foldl (fun s sid => s.loseSession tag model sid) s
        else s)

end Sys2Proof.Machine
end

