-- ==== Sys2Proof/Machine/Turnover.lean ====
section
/-! DEFINITION. The RL cycle: TURN_PLAN, TURN_START, TURN_STATUS and TURN_REWARD_POST (R290 to R294, R297), phases (R291),
rollouts and the reward and learning programs (R296, R298), and the turnover of an instance's weights (R299 to R307). -/

namespace Sys2Proof.Machine

open Sys2Proof

/-! ### TURN_PLAN (R290 to R292) -/

/-- A phase entry (R291). -/
def parsePhase (b : Bytes) : PlanPhase := ⟨u8 b 0, bit (u8 b 1) 0, bit (u8 b 1) 1, u32 b 4⟩

/-- A phase entry is acceptable after the one before it. -/
def phaseOk (slots : Nat) (shadow : Bool) (prev : Option PlanPhase) (b : Bytes) : Bool :=
  let e := parsePhase b
  e.kind < 4 && u8 b 1 < 4 && zeroRange b 2 2 && zeroRange b 8 8 && (!e.landed || (e.kind = 2 && shadow)) &&
  (if e.kind = 0 then 1 ≤ e.count && e.count ≤ slots else if e.kind = 1 then 1 ≤ e.count else e.count = 0) &&
  (e.kind != 2 || (!e.withPrev && prev.elim false fun q => q.kind = 1))

/-- The request's own fields are acceptable. -/
def planFieldsOk (b : Bytes) : Bool :=
  let slots := u32 b 56
  u32 b 8 < 8 && !bit (u32 b 8) 0 && u32 b 12 ≤ 600000 && u64 b 16 % 64 = 0 && 1 ≤ u16 b 24 && u16 b 24 ≤ 256 &&
  (u16 b 26 = 0xFFFF || u16 b 26 < u16 b 24) && (u16 b 28 = 0xFFFF || u16 b 28 < Config.counters) && 1 ≤ u16 b 30 &&
  u16 b 30 ≤ 4096 && u64 b 48 % 64 = 0 && 64 ≤ slots && slots ≤ 1048576 && slots = 2 ^ slots.log2 && 1 ≤ u32 b 60 &&
  slots % u32 b 60 = 0 && u64 b 64 % 64 = 0 && u64 b 72 % 64 = 0 && (u64 b 96 != 0 || u64 b 104 = 0) &&
  (bit (u32 b 8) 1 || u64 b 112 = 0) && zeroRange b 120 8 && restZero b 128

/-- The areas that a request names lie in mapped bonded DRAM. -/
def planAreasOk (s : State) (p : Pitch) (b : Bytes) : Bool :=
  dramSpan s p (u64 b 48) (64 * u32 b 56) && dramSpan s p (u64 b 64) (u64 b 72) && dramSpan s p (u64 b 80) (u64 b 88) &&
  dramSpan s p (u64 b 96) (u64 b 104)

/-- Holders of the layers of a map, in map order and then holder-table order. -/
def mappedHolders (r : Run) (map : List (Nat × Nat)) : List Holder :=
  map.flatMap fun e => ((r.layer? e.1).bind (·.rule)).elim [] (·.holders)

/-- The map names layers of the run once each, in the package, and every layer with a holder in the instance. -/
def mapOk (r : Run) (m : Model) (map : List (Nat × Nat)) : Bool :=
  map.all (fun e => (r.layer? e.1).isSome && e.2 < m.layers) && decide ((map.map (·.1)).Nodup) &&
  r.layers.all fun l => (map.any fun e => e.1 = l.tag) ||
    l.rule.elim true fun u => u.holders.all fun h => !(m.dies.any fun d => d.1 = h.ldie)

/-- A shadow descriptor of a holder (R303): a destination that differs in BASE and SCALE_BASE only, in the window of the same
logical cluster, apart from the live piece. -/
def checkShadow (s : State) (p : Pitch) (h : Holder) (a : Nat) : Except Nat Bytes :=
  match fetchTensor s p a with
  | .error e => .error e
  | .ok (t, raw) =>
    let live := parseDesc h.desc
    match descFail t true true (spansMapped s p t) with
    | some (e, _) => .error e
    | none =>
      if { t with base := live.base, scaleBase := live.scaleBase } = live &&
          t.spans.all (fun r => r.1.toNat / 2 ^ 32 = live.base / 2 ^ 32 && r.2.toNat / 2 ^ 32 = live.base / 2 ^ 32) &&
          t.spans.all (fun r => live.spans.all fun q => !rangesMeet r q) then .ok raw
      else .error stBadCommand

/-- The tables of a plan: phases, map and bounds. -/
def planTables (s : State) (p : Pitch) (m : Model) (b : Bytes) : Except Nat (List Bytes × List (Nat × Nat) × List Nat) :=
  match dramTable s p (u64 b 16) (16 * u16 b 24), dramTable s p (u64 b 32) (8 * u16 b 30), dramTable s p (u64 b 40) (4 * m.layers) with
  | .error e, _, _ | _, .error e, _ | _, _, .error e => .error e
  | .ok pt, .ok mt, .ok bt =>
    let map := (List.range (u16 b 30)).map fun i => slice mt (8 * i) 8
    if map.any fun e => u16 e 6 != 0 then .error stBadCommand
    else .ok ((List.range (u16 b 24)).map (fun i => slice pt (16 * i) 16), map.map (fun e => (u32 e 0, u16 e 4)),
      (List.range m.layers).map fun k => u32 bt (4 * k))

/-- The learning and the reward program (R298). -/
def planPrograms (s : State) (p : Pitch) (b : Bytes) : Except Nat (List (Bytes × List Nat) × List (Bytes × List Nat)) :=
  match dramTable s p (u64 b 80) (u64 b 88), (if u64 b 96 = 0 then .ok [] else dramTable s p (u64 b 96) (u64 b 104)) with
  | .error e, _ | _, .error e => .error e
  | .ok l, .ok r => .ok (parseProgram l, parseProgram r)

/-- Strictly ascending from 0. -/
def boundsOk (l : List Nat) : Bool := l.head? = some 0 && (l.zip l.tail).all fun x => x.1 < x.2

/-- The areas of the holders of a shadow plan, in the holders' order. -/
def shadowChecks (s : State) (p : Pitch) (shadow : Bool) (a : Nat) (hs : List Holder) : Except Nat (List Bytes) :=
  if !shadow then .ok []
  else match dramTable s p a (8 * hs.length) with
    | .error e => .error e
    | .ok t => mapE (fun (x : Holder × Nat) => checkShadow s p x.1 (u64 t (8 * x.2))) hs.zipIdx

/-- The status that turns a plan away, or the plan. -/
def checkPlan (s : State) (p : Pitch) (r : Run) (m : Model) (b : Bytes) : Except Nat Plan :=
  if p.plans.any fun x => x.run = r.id || x.model = m.id then .error stBusy
  else if !planFieldsOk b || u64 b 72 < 16 * m.maxLen then .error stBadCommand
  else if !planAreasOk s p b then .error stOutOfRange
  else match planTables s p m b, planPrograms s p b with
    | .error e, _ | _, .error e => .error e
    | .ok (ph, map, bounds), .ok (learn, reward) =>
      let shadow := bit (u32 b 8) 1
      let phases := ph.map parsePhase
      let prevs := none :: phases.map some
      if !((ph.zip prevs).all fun x => phaseOk (u32 b 56) shadow x.2 x.1) || !mapOk r m map || !boundsOk bounds then
        .error stBadCommand
      else
        let hs := mappedHolders r map
        match shadowChecks s p shadow (u64 b 112) hs with
        | .error e => .error e
        | .ok sh =>
          .ok { run := r.id, model := m.id, shadow := shadow, kvRecompute := bit (u32 b 8) 2, drainMs := u32 b 12
                phases := phases, loopFrom := u16 b 26, phaseSig := u16 b 28, layerMap := map, bounds := bounds, table := u64 b 48
                slots := u32 b 56, perStep := u32 b 60, dataBase := u64 b 64, dataBytes := u64 b 72, rewardProg := u64 b 96 != 0
                learnItems := learn, rewardItems := reward, shadows := sh }

/-- No request of the instance is a rollout any more: its plan is gone. -/
def Model.dropRollouts (m : Model) : Model :=
  { m with sessions := m.sessions.map fun x => { x with req := x.req.map fun r => { r with rollout := none } } }

/-- TURN_PLAN 0x0501. With CANCEL, only RUN_ID and the reserved fields are read (R4, R290). The orchestrator owns a queue on the pitch for the plan (R298). -/
def execTurnPlan (seq : Nat) (s : State) : Host.Outcome State Fault Refusal :=
  .next (s.onRequest seq 0x0501 fun q p =>
    let b := q.body
    if bit (u32 b 8) 0 then
      if 8 ≤ u32 b 8 || !zeroRange b 120 8 || !restZero b 128 then s.respond seq stBadCommand []
      else match p.plan? (u32 b 0) with
        | none => s.respond seq stNotFound []
        | some x =>
          if x.state = 1 || x.state = 2 then s.respond seq stBusy []
          else
            (s.updPitch p.tag fun p =>
              ({ (p.updModel x.model Model.dropRollouts) with plans := p.plans.filter fun y => y.run != x.run }).dropOwned
                (orchestratorQueue x.run)).respond seq stOk (le 4 ((p.model? x.model).elim 0 (·.epoch)))
    else match p.run? (u32 b 0), p.model? (u32 b 4) with
      | some r, some m => match checkPlan s p r m b with
        | .error e => s.respond seq e []
        | .ok x =>
          (s.updPitch p.tag fun p => ({ p with plans := p.plans ++ [{ x with core := s.pickCore }] }).withOwned (orchestratorQueue x.run) 0).respond seq stOk
            (le 4 m.epoch)
      | _, _ => s.respond seq stNotFound [])

/-! ### TURN_START and TURN_STATUS (R293, R294) -/

/-- Pinned sessions of the instance that still drain. -/
def Plan.drainingCount (x : Plan) (p : Pitch) : Nat :=
  (p.model? x.model).elim 0 fun m => (m.sessions.filter fun y => draining p m y).length

/-- The response of TURN_STATUS. -/
def planStatus (p : Pitch) (x : Plan) : Bytes :=
  let idx := sortBy (fun a b => a ≤ b) (x.running.map (·.index))
  le 1 x.state ++ le 1 x.stage ++ le 2 (idx.head?.getD 0xFFFF) ++ le 2 (idx.getLast?.getD 0xFFFF) ++ le 2 x.stopStatus ++
  le 4 ((p.model? x.model).elim 0 (·.epoch)) ++ le 4 (if x.stage = 3 || x.stage = 4 then (x.gates.filter id).length else 0) ++
  le 4 (x.drainingCount p) ++ le 4 x.stalled.length ++ le 8 x.turnovers ++ le 8 x.admitted ++ le 8 x.rewarded ++ le 8 x.consumed ++
  le 8 ((p.run? x.run).elim 0 (·.step))

/-- The plan changed and its status answered. -/
def State.planAnswer (s : State) (seq tag run : Nat) : State :=
  match (s.pitch? tag).bind fun p => (p.plan? run).map fun x => (p, x) with
  | none => s.respond seq stNotFound []
  | some (p, x) => s.respond seq stOk (planStatus p x)

/-- Reserved bytes of TURN_START. -/
def turnStartOk (b : Bytes) : Bool := zeroRange b 5 1 && restZero b 8

/-- TURN_START 0x0502 with OP START. -/
def execTurnStartStart (seq : Nat) (s : State) : Host.Outcome State Fault Refusal :=
  .next (s.onRequestOp seq 0x0502 4 3 0 fun q p =>
    let b := q.body
    match p.plan? (u32 b 0) with
    | none => s.respond seq stNotFound []
    | some x =>
      if !turnStartOk b then s.respond seq stBadCommand []
      else if x.state = 1 || x.state = 2 then s.respond seq stBusy []
      else if x.phases.length ≤ u16 b 6 then s.respond seq stOutOfRange []
      else (s.updPlan p.tag x.run fun x =>
        { x with state := 1, stopStatus := 0, nextPhase := some (u16 b 6), prevPhase := none }).planAnswer seq p.tag x.run)

/-- TURN_START with OP STOP. -/
def execTurnStartStop (seq : Nat) (s : State) : Host.Outcome State Fault Refusal :=
  .next (s.onRequestOp seq 0x0502 4 3 1 fun q p =>
    match p.plan? (u32 q.body 0) with
    | none => s.respond seq stNotFound []
    | some x =>
      if !turnStartOk q.body then s.respond seq stBadCommand []
      else if x.state != 1 then s.respond seq stBusy []
      else (s.updPlan p.tag x.run fun x => Plan.settle { x with state := 2, nextPhase := none }).planAnswer seq p.tag x.run)

/-- A running phase of a kind. -/
def Plan.runningKind (x : Plan) (k : Nat) : Option RunPhase :=
  x.running.find? fun f => (x.phases[f.index]?).elim false fun e => e.kind = k

/-- A running phase ended. -/
def Plan.endPhase (x : Plan) (f : RunPhase) : Plan := Plan.settle { x with running := x.running.filter fun g => g.index != f.index }

/-- TURN_START with OP CONTINUE. -/
def execTurnStartContinue (seq : Nat) (s : State) : Host.Outcome State Fault Refusal :=
  .next (s.onRequestOp seq 0x0502 4 3 2 fun q p =>
    match p.plan? (u32 q.body 0) with
    | none => s.respond seq stNotFound []
    | some x =>
      if !turnStartOk q.body then s.respond seq stBadCommand []
      else match x.runningKind 3 with
        | none => s.respond seq stBadCommand []
        | some f => (s.updPlan p.tag x.run fun x => x.endPhase f).planAnswer seq p.tag x.run)

/-- TURN_STATUS 0x0503. -/
def execTurnStatus (seq : Nat) (s : State) : Host.Outcome State Fault Refusal :=
  .next (s.onRequest seq 0x0503 fun q p =>
    if !restZero q.body 4 then s.respond seq stBadCommand [] else s.planAnswer seq p.tag (u32 q.body 0))

/-! ### Rewards and programs (R296 to R298) -/

/-- A rollout changed, in the plan and in its table. -/
def State.setRollout (s : State) (tag : Nat) (x : Plan) (r : Rollout) : State :=
  (s.updPlan tag x.run fun x => x.updRollout r.admitSeq fun _ => r).writeEntry tag x r

/-- TURN_REWARD_POST 0x0504. -/
def execTurnRewardPost (seq : Nat) (s : State) : Host.Outcome State Fault Refusal :=
  .next (s.onRequest seq 0x0504 fun q p =>
    let b := q.body
    let v : W32 := BitVec.ofNat 32 (u32 b 16)
    match p.plan? (u32 b 0) with
    | none => s.respond seq stNotFound []
    | some x =>
      if !zeroRange b 4 4 || !restZero b 20 || !f32Finite v then s.respond seq stBadCommand []
      else if x.rewardProg then s.respond seq stNotPermitted []
      else match x.rollouts.find? fun r => r.reqTag = u64 b 8 with
        | none => s.respond seq stNotFound []
        | some r =>
          if r.rewarded then s.respond seq stBusy []
          else
            let s := s.setRollout p.tag x { r with reward := v, rewarded := true }
            (s.updPlan p.tag x.run fun x => Plan.settle { x with rewarded := x.rewarded + 1 }).respond seq stOk [])

/-- A stop of the plan with a status: phases end, but for an opened turnover: the plan is STOPPING until that is DONE, and STOPPED
then (R293, R298, R299). -/
def Plan.halt (x : Plan) (status : Nat) : Plan :=
  let turn := if x.stage = 0 then [] else (x.runningKind 2).toList
  { x with
    state := if turn = [] then 3 else 2, stopStatus := status, nextPhase := none, queued := []
    source := if x.stage = 0 then none else x.source, running := turn, rewardRuns := [] }

/-- The batch of entries from an admission number on. -/
def Plan.batch (x : Plan) (first : Nat) : List Rollout :=
  x.rollouts.filter fun r => first ≤ r.admitSeq && r.admitSeq < first + x.perStep

/-- The values of the patch sources of a learning or reward program over the batch of entries from an admission number on
(R298). -/
def Plan.programSource (x : Plan) (first step : Nat) (learn : Bool) : Nat → Option Nat
  | 0x10 => some (x.entryAddr first)
  | 0x11 => some x.perStep
  | 0x12 => if learn then some step else none
  | _ => none

/-- One instance of a program. -/
def programWork (s : State) (p : Pitch) (items : List (Bytes × List Nat)) (src : Nat → Option Nat) : List Work :=
  items.zipIdx.map fun it => fillWork s p it.2 it.1 src

/-- A batch's rewards are recorded: its instance of the program has written the REWARD fields. -/
def State.recordRewards (s : State) (tag : Nat) (p : Pitch) (x : Plan) (first : Nat) : State :=
  ((x.batch first).foldl (fun s r =>
    s.setRollout tag x { r with rewarded := true, reward := crusherWord s p (x.entryAddr r.admitSeq + 32) }) s).updPlan tag x.run
      fun x => Plan.settle { x with rewarded := x.rewarded + x.perStep, rewardRuns := x.rewardRuns.filter fun r => r.first != first }

/-- A failed instance of the reward program: it is run once more, or the plan stops with the first failing status. -/
def Plan.rewardFailed (x : Plan) (run : RewardRun) (status : Nat) : Plan :=
  match run.failed with
  | none => { x with rewardRuns := x.rewardRuns.map fun r => if r.first = run.first then { r with seqs := none, failed := some status } else r }
  | some e => x.halt e

/-- The batch from an admission number on is complete, all ENDED, and neither REWARDED nor running its program (R298). -/
def Plan.rewardable (x : Plan) (first : Nat) : Bool :=
  let rs := x.batch first
  rs.length = x.perStep && rs.all (·.ended) && rs.any (fun r => !r.rewarded) && !(x.rewardRuns.any fun r => r.first = first)

/-- The next instance of the reward program: an instance to be run once more, or a new one for the first batch of the table that is
ready. -/
def Plan.nextReward (x : Plan) : Option RewardRun :=
  match x.rewardRuns.find? fun r => r.seqs.isNone with
  | some r => some r
  | none => (((x.rollouts.map (·.admitSeq)).filter (· % x.perStep = 0)).find? x.rewardable).map fun a => ⟨a, none, none⟩

/-- An instance of the reward program all of whose items have completed, and their SEQs. -/
def Plan.rewardEnded (p : Pitch) (x : Plan) : Option (RewardRun × List Nat) :=
  x.rewardRuns.findSome? fun r => (r.seqs.filter fun l => p.allEnded (orchestratorQueue x.run) l).map fun l => (r, l)

/-- REWARD_PROGRAM_RUN (R298): an instance whose items have all completed makes its batch REWARDED, or has failed; where there is
none, the program is instantiated for the next batch that is all ENDED, or once more for one that failed. Instances of several
batches run side by side. -/
def execRewardProgramRun (tag run : Nat) (s : State) : Host.Outcome State Fault Refusal :=
  .next (match (s.pitch? tag).bind fun p => (p.plan? run).map fun x => (p, x) with
    | none => s
    | some (p, x) =>
      let id := orchestratorQueue run
      if !x.rewardProg || !(x.state = 1 || (x.state = 2 && x.stopStatus = 0)) then s
      else match x.rewardEnded p with
        | some (r, seqs) =>
          let t := s.updPitch tag fun p => p.useEndings id seqs
          match p.firstFailure id seqs with
          | none => t.recordRewards tag p x r.first
          | some e => t.updPlan tag run fun x => x.rewardFailed r e
        | none => match x.nextReward with
          | none => s
          | some r =>
            if p.st != .active || !s.orchestrates x.core then s
            else
              let ws := programWork s p x.rewardItems (x.programSource r.first 0 false)
              s.updPitch tag fun p =>
                (p.updQueue id fun q => q.submitWork ws).updPlan run fun x =>
                  { x with rewardRuns := (x.rewardRuns.filter fun y => y.first != r.first) ++
                      [{ r with seqs := some ((List.range ws.length).map (p.nextSeq id + ·)) }] })

/-- LEARN_PROGRAM_RUN: the learning program is instantiated for the next batch whose entries are all REWARDED; no learning step starts
in an EVAL phase (R291). -/
def execLearnProgramRun (tag run : Nat) (s : State) : Host.Outcome State Fault Refusal :=
  .next (match (s.pitch? tag).bind fun p => (p.plan? run).bind fun x => (p.run? run).map fun r => (p, x, r) with
    | none => s
    | some (p, x, r) => match x.runningKind 1 with
      | none => s
      | some f =>
        let n := (x.phases[f.index]?).elim 0 (·.count)
        let rs := x.rollouts.take x.perStep
        if p.st = .active && s.orchestrates x.core && f.mark < n && x.learning.isNone && rs.length = x.perStep &&
            rs.all (·.rewarded) && (x.runningKind 3).isNone then
          let ws := programWork s p x.learnItems (x.programSource ((rs.head?).elim 0 (·.admitSeq)) r.step true)
          s.updPitch tag fun p =>
            (p.updQueue (orchestratorQueue run) fun q => q.submitWork ws).updPlan run fun x =>
              { x with
                learning := some r.step
                running := x.running.map fun g => if g.index = f.index then { g with mark := g.mark + 1 } else g }
        else s)

/-- The data of a rollout (R296): its token IDs, then 12 bytes for each generated token. -/
def rolloutData (r : Rollout) : Bytes :=
  r.toks.flatMap (le 4) ++ r.gen.flatMap fun g => le 4 g.1 ++ le 4 g.2.1 ++ le 4 (g.2.2 % 65536)

/-- ROLLOUT_END: the data and then the entry of an ended rollout are written. -/
def execRolloutEnd (tag run admitSeq : Nat) (s : State) : Host.Outcome State Fault Refusal :=
  .next (match (s.pitch? tag).bind fun p => p.plan? run with
    | none => s
    | some x => match x.rollouts.find? fun r => r.admitSeq = admitSeq with
      | none => s
      | some r =>
        if r.closing && !r.ended then
          let s := (s.tryWrite tag r.dataAddr (rolloutData r)).setRollout tag x { r with ended := true, closing := false }
          s.updPlan tag run Plan.settle
        else s)

/-! ### Phases (R291) -/

/-- The phase after one: the next entry, LOOP_FROM, or none. -/
def Plan.after (x : Plan) (i : Nat) : Option Nat :=
  if i + 1 < x.phases.length then some (i + 1) else if x.loopFrom = 0xFFFF then none else some x.loopFrom

/-- The next phase may start: its predecessor has ended, or it starts with it; an EVAL phase waits for the turnover to be
DONE, and under BETWEEN for the run's step to be committed (R259, R307). -/
def Plan.mayStart (x : Plan) (p : Pitch) (r : Run) (i : Nat) (e : PlanPhase) : Bool :=
  let prev := x.prevPhase.elim false fun j => x.running.any fun f => f.index = j
  !(x.running.any fun f => f.index = i) && (!prev || e.withPrev || e.kind = 2) &&
  (e.kind != 3 || (x.stage = 0 && !(r.eval = 1 && (r.inProgress p || x.learning.isSome))))

/-- Learning steps that running LEARN phases have still to commit. -/
def Plan.stepsLeft (x : Plan) : Nat :=
  (x.running.map fun f => (x.phases[f.index]?).elim 0 fun e => if e.kind = 1 then e.count - f.done else 0).foldl (· + ·) 0

/-- A phase that starts, and, with a LEARN phase that a TURNOVER follows, that TURNOVER (R291): the last of the LEARN's steps is
its source step, which waits its turn while a turnover before it is not DONE (R307). A TURNOVER at which the plan starts or
goes on has the run's next step as its source (notes/assumptions/49.md). -/
def Plan.startPhase (x : Plan) (r : Run) (i : Nat) (e : PlanPhase) : Plan :=
  let last := r.step + x.stepsLeft + e.count - 1
  let pair := e.kind = 1 && (x.phases[i + 1]?).elim false fun f => f.kind = 2
  let turn := if e.kind = 2 then some (r.step + x.stepsLeft - (if x.stepsLeft = 0 then 0 else 1)) else if pair then some last else none
  let j := if pair then i + 1 else i
  { x with
    running := x.running ++ [⟨i, 0, if e.kind = 0 then x.admitted else 0⟩] ++ (if pair then [⟨i + 1, 0, 0⟩] else [])
    nextPhase := x.after j, prevPhase := some j
    source := if x.source.isNone then turn else x.source
    queued := if x.source.isSome then x.queued ++ turn.toList else x.queued }

/-- PHASE_START: the next phase of a RUNNING plan starts, and PHASE_SIG advances for it and for a TURNOVER that starts with it. -/
def execPhaseStart (tag run : Nat) (s : State) : Host.Outcome State Fault Refusal :=
  .next (match (s.pitch? tag).bind fun p => (p.plan? run).bind fun x => (p.run? run).map fun r => (p, x, r) with
    | none => s
    | some (p, x, r) => match x.nextPhase with
      | none => s
      | some i => match x.phases[i]? with
        | none => s
        | some e =>
          if x.state != 1 || p.st != .active || !s.orchestrates x.core || !x.mayStart p r i e then s
          else
            let y := x.startPhase r i e
            let t := (s.updPlan tag run fun _ => y).bumpCounter tag x.phaseSig
            if y.running.length = x.running.length + 2 then t.bumpCounter tag x.phaseSig else t)

/-! ### The turnover (R299 to R303) -/

/-- What a row about a plan's turnover does where the plan, its run and its instance exist: a suspended pitch's turnover
keeps its stage (R335), and a hand-over pauses it (R389). -/
def State.onTurnover (s : State) (tag run : Nat) (f : Pitch → Plan → Run → Model → State) : State :=
  match s.pitch? tag with
  | none => s
  | some p =>
    if p.st != .active then s
    else match p.plan? run, p.run? run with
      | some x, some r => if s.orchestrates x.core then (p.model? x.model).elim s fun m => f p x r m else s
      | _, _ => s

/-- TURNOVER_OPEN (R299, R300): at STEP_START or LANDED, once no EVAL phase runs. -/
def execTurnoverOpen (tag run : Nat) (s : State) : Host.Outcome State Fault Refusal :=
  .next (s.onTurnover tag run fun p x r m =>
    match x.source, x.runningKind 2 with
    | some t, some f =>
      let late := (x.phases[f.index]?).elim false (·.landed)
      let due := if late then landed x r fun _ => true else r.reached t ||
        p.colls.any fun c => bits c.control 2 2 = 2 && (parseBlockRef c.dest).run = run && (parseBlockRef c.dest).step = t
      if x.stage != 0 || !due || (x.runningKind 3).isSome then s
      else if m.epoch = 0xFFFFFFFF then s.updPlan tag run fun x => { x.halt stOutOfRange with source := none }
      else s.updPlan tag run fun x =>
        { x with stage := 1, openedAt := s.now, drained := false, windows := [], stalled := []
                 gates := List.replicate m.layers true }
    | _, _ => s)

/-- TURNOVER_ARMED: ARMING ends and DRAIN begins. -/
def execTurnoverArmed (tag run : Nat) (s : State) : Host.Outcome State Fault Refusal :=
  .next (s.onTurnover tag run fun _ x _ _ => if x.stage = 1 then s.updPlan tag run fun x => { x with stage := 2 } else s)

/-- DRAIN_END: no pinned session has an active request, or DRAIN_MS has passed since the opening (R300). -/
def execDrainEnd (tag run : Nat) (s : State) : Host.Outcome State Fault Refusal :=
  .next (s.onTurnover tag run fun p x _ _ =>
    if x.stage = 2 && (x.drainingCount p = 0 || due x.openedAt (x.drainMs * 25000) s.now) then
      s.updPlan tag run fun x => { x with drained := true }
    else s)

/-- A session holds a KV entry of an epoch up to e, or a step in flight is about to write one. -/
def Model.holdsOld (m : Model) (x : Session) (e : Nat) : Bool :=
  (x.kvValid != 0 && x.table.any fun b => (m.block? b).elim false fun d => d.epochLo ≤ e) ||
  m.steps.any fun t => x.inStep = some t.id && t.epoch ≤ e

/-- The pinned request still generates at SWAP: one from before the opening, or one whose session closes under it (R301). -/
def endsAtSwap (old : Bool) (r : ActiveReq) : Bool := r.generate && (!r.afterSwap || old)

/-- A session that SWAP closes: its ID enters the expiry list, and a pause of it that has begun ends, EXPIRED (R301). -/
def State.expireOpen (s : State) (tag model sid : Nat) : State :=
  let seq := ((s.session? tag model sid).bind (·.pause)).bind (·.request)
  let s := (s.updModel tag model fun m => (m.expire sid).updSession sid fun x => { x with pause := none }).startClosing tag model sid none
  seq.elim s fun seq => s.respond seq stExpired []

/-- What the start of SWAP does to one session (R301): one whose pause has begun is open until it is PAUSED. -/
def swapSession (tag model e : Nat) (recompute : Bool) (s : State) (sid : Nat) : State :=
  match s.model? tag model, s.session? tag model sid with
  | some m, some x =>
    if x.st = .paused || x.closing.isSome then s
    else if x.pinned then
      let s := if x.req.elim false (endsAtSwap (m.holdsOld x e)) then s.failRequest tag model sid endFailed stExpired else s
      if m.holdsOld x e then s.expireOpen tag model sid else s
    else if recompute && m.holdsOld x e then
      if x.inStep.isSome then s.updSession tag model sid fun x => { x with recompute := true } else s.recomputeKv tag model sid
    else s
  | _, _ => s

/-- Requests admitted since the opening join step formation. -/
def Model.openSwap (m : Model) : Model :=
  { m with
    epoch := m.epoch + 1
    sessions := m.sessions.map fun x => { x with req := x.req.map fun r => { r with afterSwap := false } } }

/-- SWAP_START (R301, R302): the generation epoch becomes e + 1, the gates close, and the sessions are treated. Holders
outside the instance take the run layers that have landed in their shadows; one that lands later follows as it lands (R303). -/
def execSwapStart (tag run : Nat) (s : State) : Host.Outcome State Fault Refusal :=
  .next (s.onTurnover tag run fun p x r m =>
    if x.stage = 2 && x.drained then
      let s := (m.sessions.map (·.id)).foldl (swapSession tag m.id m.epoch x.kvRecompute) s
      let s := s.updPitch tag fun p =>
        (p.updModel m.id Model.openSwap).updPlan run fun x =>
          { x with stage := 3, gates := List.replicate m.layers false, windows := [], outside := [] }
      s.copyLate tag run
    else s)

/-- A step has passed a package layer (R302): every descriptor below the next layer's bound has completed, whatever the
status; of the last layer, every descriptor. -/
def passedLayer (p : Pitch) (x : Plan) (t : TokStep) (layer : Nat) : Bool :=
  let below := fun (i : Nat) => (x.bounds[layer + 1]?).elim true fun b => i < b
  t.todo.all (fun w => !below w.index) && t.seqs.all fun e => !below e.1 || p.seqEnded (gulperQueue x.model) e.2

/-- LAYER_WINDOW_OPEN (R302, R303): every step of epoch e has passed the layer, and its window opens. -/
def execLayerWindowOpen (tag run layer : Nat) (s : State) : Host.Outcome State Fault Refusal :=
  .next (s.onTurnover tag run fun p x r m =>
    if x.stage = 3 && x.gates.getD layer true = false && !(x.windows.any fun w => w.1 = layer) &&
        m.steps.all (fun t => t.epoch = m.epoch || passedLayer p x t layer) then
      let s := s.updPlan tag run fun x => { x with windows := x.windows ++ [(layer, s.now)] }
      s.copyShadows tag x r (fun e => e.2 = layer && landed x r (· = layer)) (insideInstance p x)
    else s)

/-- Gulper goes on with the steps that waited for a gate (R302). -/
def Pitch.submitSteps (p : Pitch) (m : Model) : Pitch := (m.steps.map (·.id)).foldl (fun p t => p.submitStep m.id t) p

/-- LAYER_GATE_OPEN (R302): every holder piece of the layer holds the source step's blocks. -/
def execLayerGateOpen (tag run layer : Nat) (s : State) : Host.Outcome State Fault Refusal :=
  .next (s.onTurnover tag run fun p x r m =>
    if x.stage = 3 && (x.windows.any fun w => w.1 = layer) && landed x r (· = layer) then
      let s := (s.copyShadows tag x r (fun e => e.2 = layer) (insideInstance p x)).copyOutside tag p x r
      (s.updPlan tag run fun x =>
        let gates := x.gates.set layer true
        { x with gates := gates, windows := x.windows.filter fun w => w.1 != layer, stalled := x.stalled.filter (· != layer)
                 stage := if gates.all id then 4 else 3 }).updPitch tag fun p => p.submitSteps m
    else s)

/-- A plan whose turnover has ended: STAGE NONE, the queued source step next, and its TURNOVER phase ended. -/
def Plan.endTurnover (x : Plan) : Plan :=
  let y := { x with stage := 0, source := x.queued.head?, queued := x.queued.tail, turnovers := x.turnovers + 1, gates := [], windows := [], stalled := [] }
  match y.runningKind 2 with
  | some f => y.endPhase f
  | none => y.settle

/-- The sessions that SWAP closes are gone (R301). -/
def Model.swapClosed (m : Model) : Bool := m.sessions.all fun y => !(y.pinned && y.closing = some none)

/-- TURNOVER_DONE (R300): the swap is confirmed on every holder die, and the closing actions of R301 are done. -/
def execTurnoverDone (tag run : Nat) (s : State) : Host.Outcome State Fault Refusal :=
  .next (s.onTurnover tag run fun _ x r m =>
    if x.stage = 4 && m.swapClosed && landed x r fun _ => true then s.updPlan tag run Plan.endTurnover else s)

/-- WINDOW_OPEN_TIMEOUT (R306): a window has been open for 1 s. -/
def execWindowOpenTimeout (tag run layer : Nat) (s : State) : Host.Outcome State Fault Refusal :=
  .next (s.onTurnover tag run fun _ x _ _ =>
    if (x.windows.any fun w => w.1 = layer && due w.2 25000000 s.now) && !x.stalled.contains layer then
      (s.updPlan tag run fun x => { x with stalled := x.stalled ++ [layer] }).logNote 8 "WINDOW_OPEN" none noDie tag layer
    else s)

end Sys2Proof.Machine
end

