-- ==== Sys2Proof/Machine/Dispatch.lean ====
section
/-! DEFINITION. One arm for each command: a direct call of its meaning, or a refusal by name. -/

namespace Sys2Proof.Machine

open Sys2Proof

/-- The effect of a command on everything but the queue of commands. -/
def exec (i : Instr) (s : State) : Host.Outcome State Fault Refusal :=
  match i with
  | .pitchCreate seq => Sys2Proof.Machine.execPitchCreate seq s
  | .pitchRelease seq => Sys2Proof.Machine.execPitchRelease seq s
  | .pitchBindPort seq => Sys2Proof.Machine.execPitchBindPort seq s
  | .pitchSuspend seq => Sys2Proof.Machine.execPitchSuspend seq s
  | .pitchResume seq => Sys2Proof.Machine.execPitchResume seq s
  | .pitchQuery seq => Sys2Proof.Machine.execPitchQuery seq s
  | .pitchMeterRead seq => Sys2Proof.Machine.execPitchMeterRead seq s
  | .workQueueOpen seq => Sys2Proof.Machine.execWorkQueueOpen seq s
  | .workQueueClose seq => Sys2Proof.Machine.execWorkQueueClose seq s
  | .workAbort seq => Sys2Proof.Machine.execWorkAbort seq s
  | .workContextSave seq => Sys2Proof.Machine.execWorkContextSave seq s
  | .workContextRestore seq => Sys2Proof.Machine.execWorkContextRestore seq s
  | .svcModelLoad seq => Sys2Proof.Machine.execSvcModelLoad seq s
  | .svcSessionOpen seq => Sys2Proof.Machine.execSvcSessionOpen seq s
  | .svcSubmit seq => Sys2Proof.Machine.execSvcSubmit seq s
  | .svcSessionPause seq => Sys2Proof.Machine.execSvcSessionPause seq s
  | .pauseRecordWritten tag model session => Sys2Proof.Machine.execPauseRecordWritten tag model session s
  | .svcSessionResume seq => Sys2Proof.Machine.execSvcSessionResume seq s
  | .svcSessionClose seq => Sys2Proof.Machine.execSvcSessionClose seq s
  | .svcBoothConfig seq => Sys2Proof.Machine.execSvcBoothConfig seq s
  | .trnRunConfig seq => Sys2Proof.Machine.execTrnRunConfig seq s
  | .trnUpdateRuleSet seq => Sys2Proof.Machine.execTrnUpdateRuleSet seq s
  | .trnScheduleSet seq => Sys2Proof.Machine.execTrnScheduleSet seq s
  | .trnCheckpointConfigure seq => Sys2Proof.Machine.execTrnCheckpointConfigure seq s
  | .trnCheckpointNow seq => Sys2Proof.Machine.execTrnCheckpointNow seq s
  | .trnCheckpointRestore seq => Sys2Proof.Machine.execTrnCheckpointRestore seq s
  | .trnCheckpointQuery seq => Sys2Proof.Machine.execTrnCheckpointQuery seq s
  | .trnStepMultiplier seq => Sys2Proof.Machine.execTrnStepMultiplier seq s
  | .turnPlan seq => Sys2Proof.Machine.execTurnPlan seq s
  | .turnStartStart seq => Sys2Proof.Machine.execTurnStartStart seq s
  | .turnStartStop seq => Sys2Proof.Machine.execTurnStartStop seq s
  | .turnStartContinue seq => Sys2Proof.Machine.execTurnStartContinue seq s
  | .turnStatus seq => Sys2Proof.Machine.execTurnStatus seq s
  | .turnRewardPost seq => Sys2Proof.Machine.execTurnRewardPost seq s
  | .fabPortSet seq => Sys2Proof.Machine.execFabPortSet seq s
  | .fabRouteSet seq => Sys2Proof.Machine.execFabRouteSet seq s
  | .fabDiscoverQuery seq => Sys2Proof.Machine.execFabDiscoverQuery seq s
  | .fabDiscoverSetId seq => Sys2Proof.Machine.execFabDiscoverSetId seq s
  | .fabDiscoverRefresh seq => Sys2Proof.Machine.execFabDiscoverRefresh seq s
  | .fabBridgeSet seq => Sys2Proof.Machine.execFabBridgeSet seq s
  | .fwStageBegin seq => Sys2Proof.Machine.execFwStageBegin seq s
  | .fwStageData seq => Sys2Proof.Machine.execFwStageData seq s
  | .fwStageVerify seq => Sys2Proof.Machine.execFwStageVerify seq s
  | .fwStageDiscard seq => Sys2Proof.Machine.execFwStageDiscard seq s
  | .fwStageQuery seq => Sys2Proof.Machine.execFwStageQuery seq s
  | .fwActivate seq => Sys2Proof.Machine.execFwActivate seq s
  | .flashRewriteDone good => Sys2Proof.Machine.execFlashRewriteDone good s
  | .standbyReadyTimeout => Sys2Proof.Machine.execStandbyReadyTimeout s
  | .handoverBoundaryTimeout => Sys2Proof.Machine.execHandoverBoundaryTimeout s
  | .attestQuote seq => Sys2Proof.Machine.execAttestQuote seq s
  | .devIdentity seq => Sys2Proof.Machine.execDevIdentity seq s
  | .bistRun seq => Sys2Proof.Machine.execBistRun seq s
  | .repairSoft seq => Sys2Proof.Machine.execRepairSoft seq s
  | .repairFuse seq => Sys2Proof.Machine.execRepairFuse seq s
  | .bistResult seq => Sys2Proof.Machine.execBistResult seq s
  | .pwrDieStateQuery seq => Sys2Proof.Machine.execPwrDieStateQuery seq s
  | .pwrDieStateSetCap seq => Sys2Proof.Machine.execPwrDieStateSetCap seq s
  | .pwrDieStateSetIdle seq => Sys2Proof.Machine.execPwrDieStateSetIdle seq s
  | .pwrDieStateDrain seq => Sys2Proof.Machine.execPwrDieStateDrain seq s
  | .pwrDieStateReturn seq => Sys2Proof.Machine.execPwrDieStateReturn seq s
  | .pwrDieStateOff seq => Sys2Proof.Machine.execPwrDieStateOff seq s
  | .pwrDieStateKeeperOnly seq => Sys2Proof.Machine.execPwrDieStateKeeperOnly seq s
  | .pwrDieStateExit seq => Sys2Proof.Machine.execPwrDieStateExit seq s
  | .telemetryRead seq => Sys2Proof.Machine.execTelemetryRead seq s
  | .eventLogRead seq => Sys2Proof.Machine.execEventLogRead seq s
  | .logicalClusterMove tag lcluster => Sys2Proof.Machine.execLogicalClusterMove tag lcluster s
  | .doorbell tag queue value => Sys2Proof.Machine.execDoorbell tag queue value s
  | .ackWr tag queue value => Sys2Proof.Machine.execAckWr tag queue value s
  | .controlPageWriteInvalid tag queue offset data => Sys2Proof.Machine.execControlPageWriteInvalid tag queue offset data s
  | .descriptorConsume tag queue => Sys2Proof.Machine.execDescriptorConsume tag queue s
  | .itemReady key => Sys2Proof.Machine.execItemReady key s
  | .itemStaged key => Sys2Proof.Machine.execItemStaged key s
  | .carouselDispatch place engine => Sys2Proof.Machine.execCarouselDispatch place engine s
  | .clusterWake place => Sys2Proof.Machine.execClusterWake place s
  | .mma key => Sys2Proof.Machine.execMma key s
  | .arrayTileHandoff key => Sys2Proof.Machine.execArrayTileHandoff key s
  | .ewOperation key => Sys2Proof.Machine.execEwOperation key s
  | .mvp key => Sys2Proof.Machine.execMvp key s
  | .mvpStripHandoff key => Sys2Proof.Machine.execMvpStripHandoff key s
  | .vec key => Sys2Proof.Machine.execVec key s
  | .sample key => Sys2Proof.Machine.execSample key s
  | .logsoftmax key => Sys2Proof.Machine.execLogsoftmax key s
  | .move key => Sys2Proof.Machine.execMove key s
  | .collective key => Sys2Proof.Machine.execCollective key s
  | .collectivePass1AtRoot tag ident => Sys2Proof.Machine.execCollectivePass1AtRoot tag ident s
  | .collectiveAnchorReceived key => Sys2Proof.Machine.execCollectiveAnchorReceived key s
  | .collectiveResultWritten tag ident => Sys2Proof.Machine.execCollectiveResultWritten tag ident s
  | .rand key => Sys2Proof.Machine.execRand key s
  | .signal key => Sys2Proof.Machine.execSignal key s
  | .wait key => Sys2Proof.Machine.execWait key s
  | .itemComplete key => Sys2Proof.Machine.execItemComplete key s
  | .runningItemAbortStop key => Sys2Proof.Machine.execRunningItemAbortStop key s
  | .stridedGapFault key => Sys2Proof.Machine.execStridedGapFault key s
  | .scaleRecheckFail key => Sys2Proof.Machine.execScaleRecheckFail key s
  | .uncorrectableRead key at_ => Sys2Proof.Machine.execUncorrectableRead key at_ s
  | .correctedErrorWriteback die place => Sys2Proof.Machine.execCorrectedErrorWriteback die place s
  | .patrolScrub die place symbols => Sys2Proof.Machine.execPatrolScrub die place symbols s
  | .rowRepairInService die kind row => Sys2Proof.Machine.execRowRepairInService die kind row s
  | .logicalClusterSwitch place lcluster => Sys2Proof.Machine.execLogicalClusterSwitch place lcluster s
  | .clusterDoze place => Sys2Proof.Machine.execClusterDoze place s
  | .clusterRest place => Sys2Proof.Machine.execClusterRest place s
  | .dramPllStop die => Sys2Proof.Machine.execDramPllStop die s
  | .tokenStepForm tag model => Sys2Proof.Machine.execTokenStepForm tag model s
  | .tokenStepCommit tag model step latencyNs results => Sys2Proof.Machine.execTokenStepCommit tag model step latencyNs results s
  | .boothResumePass tag model => Sys2Proof.Machine.execBoothResumePass tag model s
  | .boothModeChange tag model => Sys2Proof.Machine.execBoothModeChange tag model s
  | .tokenStepFail tag model step => Sys2Proof.Machine.execTokenStepFail tag model step s
  | .hashedBlockUncorrectable tag model block => Sys2Proof.Machine.execHashedBlockUncorrectable tag model block s
  | .sessionExpire tag model session => Sys2Proof.Machine.execSessionExpire tag model session s
  | .rewardProgramRun tag run => Sys2Proof.Machine.execRewardProgramRun tag run s
  | .learnProgramRun tag run => Sys2Proof.Machine.execLearnProgramRun tag run s
  | .rolloutEnd tag run admitSeq => Sys2Proof.Machine.execRolloutEnd tag run admitSeq s
  | .phaseStart tag run => Sys2Proof.Machine.execPhaseStart tag run s
  | .turnoverOpen tag run => Sys2Proof.Machine.execTurnoverOpen tag run s
  | .turnoverArmed tag run => Sys2Proof.Machine.execTurnoverArmed tag run s
  | .drainEnd tag run => Sys2Proof.Machine.execDrainEnd tag run s
  | .swapStart tag run => Sys2Proof.Machine.execSwapStart tag run s
  | .layerWindowOpen tag run layer => Sys2Proof.Machine.execLayerWindowOpen tag run layer s
  | .layerGateOpen tag run layer => Sys2Proof.Machine.execLayerGateOpen tag run layer s
  | .turnoverDone tag run => Sys2Proof.Machine.execTurnoverDone tag run s
  | .windowOpenTimeout tag run layer => Sys2Proof.Machine.execWindowOpenTimeout tag run layer s
  | .crusherDelivery tag ident => Sys2Proof.Machine.execCrusherDelivery tag ident s
  | .blockUpdate tag run layer block => Sys2Proof.Machine.execBlockUpdate tag run layer block s
  | .blockMissed tag run layer block => Sys2Proof.Machine.execBlockMissed tag run layer block s
  | .heldBlockStage tag run layer block => Sys2Proof.Machine.execHeldBlockStage tag run layer block s
  | .heldBlocksApply tag run ldie => Sys2Proof.Machine.execHeldBlocksApply tag run ldie s
  | .laggedMultWaitEnd tag run layer block => Sys2Proof.Machine.execLaggedMultWaitEnd tag run layer block s
  | .normPartialSend tag run ldie => Sys2Proof.Machine.execNormPartialSend tag run ldie s
  | .runStepCommit tag run => Sys2Proof.Machine.execRunStepCommit tag run s
  | .kronRefreshDone tag run layer block => Sys2Proof.Machine.execKronRefreshDone tag run layer block s
  | .emissionSend tag run layer block => Sys2Proof.Machine.execEmissionSend tag run layer block s
  | .checkpointLayerSend tag run ldie layer => Sys2Proof.Machine.execCheckpointLayerSend tag run ldie layer s
  | .checkpointSlotComplete tag run => Sys2Proof.Machine.execCheckpointSlotComplete tag run s
  | .checkpointTimeout tag run => Sys2Proof.Machine.execCheckpointTimeout tag run s
  | .linkFrameReceive port frame => Sys2Proof.Machine.execLinkFrameReceive port frame s
  | .nakReceive port n => Sys2Proof.Machine.execNakReceive port n s
  | .replayLimit port => Sys2Proof.Machine.execReplayLimit port s
  | .linkCtrlReceive port ctrl => Sys2Proof.Machine.execLinkCtrlReceive port ctrl s
  | .creditReturnTimer port => Sys2Proof.Machine.execCreditReturnTimer port s
  | .routeFrame die index => Sys2Proof.Machine.execRouteFrame die index s
  | .routingFaultDiscard die index => Sys2Proof.Machine.execRoutingFaultDiscard die index s
  | .replayTakeback port => Sys2Proof.Machine.execReplayTakeback port s
  | .e2eFrameDeliver die frame => Sys2Proof.Machine.execE2eFrameDeliver die frame s
  | .e2eResponseReceive die frame => Sys2Proof.Machine.execE2eResponseReceive die frame s
  | .e2eResendTimer die txn => Sys2Proof.Machine.execE2eResendTimer die txn s
  | .e2eTransactionFail die txn => Sys2Proof.Machine.execE2eTransactionFail die txn s
  | .hostIngress port vc frame => Sys2Proof.Machine.execHostIngress port vc frame s
  | .controlPageWriteRelease port => Sys2Proof.Machine.execControlPageWriteRelease port s
  | .hostWindowEgress die frame => Sys2Proof.Machine.execHostWindowEgress die frame s
  | .helloReceive port hello => Sys2Proof.Machine.execHelloReceive port hello s
  | .helloTimer => Sys2Proof.Machine.execHelloTimer s
  | .portSignalDetect port lanes => Sys2Proof.Machine.execPortSignalDetect port lanes s
  | .portTrainDone port hello => Sys2Proof.Machine.execPortTrainDone port hello s
  | .portTrainTimeout port => Sys2Proof.Machine.execPortTrainTimeout port s
  | .portDown port => Sys2Proof.Machine.execPortDown port s
  | .laneFail port lane => Sys2Proof.Machine.execLaneFail port lane s
  | .msgSegmentReceive frame => Sys2Proof.Machine.execMsgSegmentReceive frame s
  | .msgStatusRead frame => Sys2Proof.Machine.execMsgStatusRead frame s
  | .msgAssemblyTimeout mailbox => Sys2Proof.Machine.execMsgAssemblyTimeout mailbox s
  | .requestSubmit mailbox => Sys2Proof.Machine.execRequestSubmit mailbox s
  | .fenceRelease seq => Sys2Proof.Machine.execFenceRelease seq s
  | .replayEntryExpire mailbox requestId => Sys2Proof.Machine.execReplayEntryExpire mailbox requestId s
  | .coordinationTimeout seq => Sys2Proof.Machine.execCoordinationTimeout seq s
  | .suspendTimeout tag => Sys2Proof.Machine.execSuspendTimeout tag s
  | .ringmasterTakeover => Sys2Proof.Machine.execRingmasterTakeover s
  | .heartbeatTimeout pair => Sys2Proof.Machine.execHeartbeatTimeout pair s
  | .serviceCoreFault core => Sys2Proof.Machine.execServiceCoreFault core s
  | .takeoverResume => Sys2Proof.Machine.execTakeoverResume s
  | .boot => Sys2Proof.Machine.execBoot s
  | .recoveryAnnounce => Sys2Proof.Machine.execRecoveryAnnounce s
  | .powerOnSequence vinMv => Sys2Proof.Machine.execPowerOnSequence vinMv s
  | .railRegulationTimeout die rail => Sys2Proof.Machine.execRailRegulationTimeout die rail s
  | .undervoltageReset vinMv => Sys2Proof.Machine.execUndervoltageReset vinMv s
  | .overvoltageReset vinMv => Sys2Proof.Machine.execOvervoltageReset vinMv s
  | .overVoltage vinMv => Sys2Proof.Machine.execOverVoltage vinMv s
  | .resetNAssert us => Sys2Proof.Machine.execResetNAssert us s
  | .modEnableDeassert us => Sys2Proof.Machine.execModEnableDeassert us s
  | .dipBegin vinMv => Sys2Proof.Machine.execDipBegin vinMv s
  | .dipInputRise vinMv => Sys2Proof.Machine.execDipInputRise vinMv s
  | .dipEnd vinMv => Sys2Proof.Machine.execDipEnd vinMv s
  | .powerControlEval power1ms power10ms currentMa => Sys2Proof.Machine.execPowerControlEval power1ms power10ms currentMa s
  | .stepChangeDone die => Sys2Proof.Machine.execStepChangeDone die s
  | .thermalControlEval die tj sensor => Sys2Proof.Machine.execThermalControlEval die tj sensor s
  | .thermalTrip die tj => Sys2Proof.Machine.execThermalTrip die tj s
  | .phaseLost die rail phase => Sys2Proof.Machine.execPhaseLost die rail phase s
  | .keeperOnlyEntry cause => Sys2Proof.Machine.execKeeperOnlyEntry cause s
  | .pwarnEval watts => Sys2Proof.Machine.execPwarnEval watts s
  | .meterMinute => Sys2Proof.Machine.execMeterMinute s
  | .unmarchedFirstWrite die page => Sys2Proof.Machine.execUnmarchedFirstWrite die page s
  | .backgroundMarchPage die page => Sys2Proof.Machine.execBackgroundMarchPage die page s
  | .testWindowLost die => Sys2Proof.Machine.execTestWindowLost die s
  | .testComplete die failures => Sys2Proof.Machine.execTestComplete die failures s
  | .sparesTestAfterPowerOn die failures => Sys2Proof.Machine.execSparesTestAfterPowerOn die failures s
  | .keeperFrameReject frame => Sys2Proof.Machine.execKeeperFrameReject frame s
  | .reset ktag data => Sys2Proof.Machine.execReset ktag data s
  | .rstLock ktag data => Sys2Proof.Machine.execRstLock ktag data s
  | .mbx0Doorbell ktag data => Sys2Proof.Machine.execMbx0Doorbell ktag data s
  | .mbx0RspRelease ktag data => Sys2Proof.Machine.execMbx0RspRelease ktag data s
  | .alertPend ktag data => Sys2Proof.Machine.execAlertPend ktag data s
  | .cntClr ktag port data => Sys2Proof.Machine.execCntClr ktag port data s
  | .registerLoRead ktag addr => Sys2Proof.Machine.execRegisterLoRead ktag addr s
  | .registerWrite ktag addr data => Sys2Proof.Machine.execRegisterWrite ktag addr data s
  | .keeperDomainLoss vinMv => Sys2Proof.Machine.execKeeperDomainLoss vinMv s
  | .keeperFailover => Sys2Proof.Machine.execKeeperFailover s
  | .x4RetrainDone port => Sys2Proof.Machine.execX4RetrainDone port s
  | .sourceStateIdle die srcModule srcDie => Sys2Proof.Machine.execSourceStateIdle die srcModule srcDie s
  | .unmarchedSramMarch die => Sys2Proof.Machine.execUnmarchedSramMarch die s
  | .tapInstruction instr => Sys2Proof.Machine.execTapInstruction instr s
  | .dipInputFall vinMv => Sys2Proof.Machine.execDipInputFall vinMv s

end Sys2Proof.Machine
end

