-- ==== Sys2Proof/Safety.lean ====
section
/-! DEFINITION. What the statements speak of: the machine's invariant, and when a Cusis command may execute. -/

namespace Sys2Proof.Machine

open Sys2Proof

/-- The byte stores stand in their canonical form: module memory, the request buffer of mailbox 0 and the staging area (R388). -/
def State.Inv (s : State) : Prop :=
  Memory.wf s.mem = true ∧ Memory.wf s.mbx0.req = true ∧ Memory.wf s.fw.stageData = true

/-- A released accepted request `r` with this number and command may execute for the pitch `p` of its stamp, which is not
FAILED (R319, R335, R379, R380). -/
def RunsFor (s : State) (seq command : Nat) (r : Request) (p : Pitch) : Prop :=
  s.request? seq command = some r ∧ s.pitch? r.tag = some p ∧ p.st ≠ .failed

/-- The pitch and the item that a row about an item names. -/
def OnItem (s : State) (k : ItemKey) (p : Pitch) (i : Item) : Prop := s.pitch? k.tag = some p ∧ p.item? k = some i

/-- The pitch, run, layer, update rule and block-table entry that a row about a block names. -/
def OnBlock (s : State) (tag run layer block : Nat) (p : Pitch) (r : Run) (l : Layer) (u : Rule) (c : CBlock) : Prop :=
  s.pitch? tag = some p ∧ p.run? run = some r ∧ r.layer? layer = some l ∧ r.block? layer block = some c ∧ l.rule = some u

/-- The plan, run and serving instance of an ACTIVE pitch whose turnover a row names, while the service core of the plan orchestrates. -/
def OnTurnover (s : State) (tag run : Nat) (p : Pitch) (x : Plan) (r : Run) (m : Model) : Prop :=
  s.pitch? tag = some p ∧ p.st = .active ∧ s.orchestrates x.core = true ∧ p.plan? run = some x ∧ p.run? run = some r ∧
    p.model? x.model = some m

/-- The commands that write no byte of module memory: every one but those that write results, records or images, and those that
move, clear or lose memory. -/
def leavesMemory : Instr → Bool
  | .pitchBindPort _ | .pitchSuspend _ | .pitchResume _ | .pitchQuery _ | .pitchMeterRead _
  | .workQueueOpen _ | .svcModelLoad _ | .svcSessionPause _ | .svcBoothConfig _ | .trnRunConfig _ | .trnScheduleSet _
  | .trnCheckpointConfigure _ | .trnCheckpointNow _ | .trnCheckpointQuery _ | .trnStepMultiplier _ | .turnPlan _
  | .turnStartStart _ | .turnStartStop _ | .turnStartContinue _ | .turnStatus _ | .fabPortSet _ | .fabRouteSet _
  | .fabDiscoverQuery _ | .fabDiscoverSetId _ | .fabDiscoverRefresh _ | .fabBridgeSet _ | .fwStageBegin _
  | .fwStageData _ | .fwStageVerify _ | .fwStageDiscard _ | .fwStageQuery _ | .fwActivate _ | .standbyReadyTimeout
  | .handoverBoundaryTimeout | .attestQuote _ | .devIdentity _ | .bistRun _ | .repairFuse _ | .bistResult _
  | .pwrDieStateQuery _ | .pwrDieStateSetCap _ | .pwrDieStateSetIdle _ | .pwrDieStateExit _ | .telemetryRead _
  | .eventLogRead _ | .doorbell _ _ _ | .ackWr _ _ _ | .controlPageWriteInvalid _ _ _ _ | .itemStaged _
  | .carouselDispatch _ _ | .clusterWake _ | .collectivePass1AtRoot _ _
  | .correctedErrorWriteback _ _ | .patrolScrub _ _ _ | .rowRepairInService _ _ _ | .clusterDoze _ | .clusterRest _
  | .dramPllStop _ | .boothModeChange _ _ | .sessionExpire _ _ _ | .learnProgramRun _ _ | .phaseStart _ _
  | .turnoverOpen _ _ | .turnoverArmed _ _ | .drainEnd _ _ | .turnoverDone _ _ | .windowOpenTimeout _ _ _
  | .crusherDelivery _ _ | .normPartialSend _ _ _ | .linkFrameReceive _ _ | .nakReceive _ _ | .replayLimit _
  | .linkCtrlReceive _ _ | .creditReturnTimer _ | .routingFaultDiscard _ _ | .replayTakeback _
  | .e2eResendTimer _ _ | .hostIngress _ _ _ | .controlPageWriteRelease _
  | .helloReceive _ _ | .helloTimer | .portSignalDetect _ _ | .portTrainDone _ _
  | .portTrainTimeout _ | .portDown _ | .laneFail _ _ | .msgSegmentReceive _ | .msgStatusRead _
  | .msgAssemblyTimeout _ | .requestSubmit _ | .fenceRelease _ | .replayEntryExpire _ _ | .coordinationTimeout _
  | .suspendTimeout _ | .serviceCoreFault _ | .takeoverResume | .recoveryAnnounce | .powerOnSequence _
  | .overVoltage _ | .dipBegin _ | .dipInputRise _ | .dipEnd _ | .powerControlEval _ _ _ | .stepChangeDone _
  | .pwarnEval _ | .meterMinute | .unmarchedFirstWrite _ _ | .backgroundMarchPage _ _ | .keeperFrameReject _
  | .reset _ _ | .rstLock _ _ | .mbx0Doorbell _ _ | .mbx0RspRelease _ _ | .alertPend _ _ | .cntClr _ _ _
  | .registerLoRead _ _ | .registerWrite _ _ _ | .keeperFailover | .x4RetrainDone _ | .sourceStateIdle _ _ _
  | .tapInstruction _ | .dipInputFall _ => true
  | .pitchCreate _ | .pitchRelease _ | .workQueueClose _ | .workAbort _ | .workContextSave _ | .workContextRestore _
  | .svcSessionOpen _ | .svcSubmit _ | .pauseRecordWritten _ _ _ | .svcSessionResume _ | .svcSessionClose _
  | .trnUpdateRuleSet _ | .trnCheckpointRestore _ | .turnRewardPost _ | .flashRewriteDone _ | .repairSoft _
  | .pwrDieStateDrain _ | .pwrDieStateReturn _ | .pwrDieStateOff _ | .pwrDieStateKeeperOnly _
  | .logicalClusterMove _ _ | .descriptorConsume _ _ | .itemReady _ | .mma _ | .arrayTileHandoff _ | .ewOperation _
  | .mvp _ | .mvpStripHandoff _ | .vec _ | .sample _ | .logsoftmax _ | .move _ | .collective _
  | .collectiveAnchorReceived _ | .collectiveResultWritten _ _ | .rand _ | .signal _ | .wait _ | .itemComplete _ | .runningItemAbortStop _
  | .stridedGapFault _ | .scaleRecheckFail _ | .uncorrectableRead _ _ | .logicalClusterSwitch _ _
  | .tokenStepForm _ _ | .tokenStepCommit _ _ _ _ _ | .boothResumePass _ _ | .tokenStepFail _ _ _
  | .hashedBlockUncorrectable _ _ _ | .rewardProgramRun _ _ | .rolloutEnd _ _ _ | .swapStart _ _
  | .layerWindowOpen _ _ _ | .layerGateOpen _ _ _ | .blockUpdate _ _ _ _ | .blockMissed _ _ _ _
  | .heldBlockStage _ _ _ _ | .heldBlocksApply _ _ _ | .laggedMultWaitEnd _ _ _ _ | .runStepCommit _ _
  | .kronRefreshDone _ _ _ _ | .emissionSend _ _ _ _ | .checkpointLayerSend _ _ _ _ | .checkpointSlotComplete _ _
  | .checkpointTimeout _ _ | .routeFrame _ _ | .e2eFrameDeliver _ _ | .e2eTransactionFail _ _ | .ringmasterTakeover
  | .heartbeatTimeout _ | .boot | .railRegulationTimeout _ _ | .undervoltageReset _ | .overvoltageReset _
  | .resetNAssert _ | .modEnableDeassert _ | .thermalControlEval _ _ _ | .thermalTrip _ _ | .phaseLost _ _ _
  | .keeperOnlyEntry _ | .testWindowLost _ | .testComplete _ _ | .sparesTestAfterPowerOn _ _ | .keeperDomainLoss _
  | .unmarchedSramMarch _ | .e2eResponseReceive _ _ | .hostWindowEgress _ _ => false

/-- The keys of memory that a store to address `a` of pitch `p` may change: that of the byte, or those of its 64-byte sector where the
sector is sealed (R180, R181). -/
def State.storeKeys (s : State) (p : Pitch) (a : Nat) : List Nat :=
  match translate s p a with
  | some (.cell w k) => if isSealed w k then (List.range 64).map fun i => k - a % 64 + i else [k]
  | _ => []

/-- The bytes of a strip that hold an element of a lane of the valid box, or stand behind the 32 elements of a record. -/
def TDesc.holds (t : TDesc) (record : Bool) (v : List Int) (b : Nat) : Bool :=
  let w := elemWidth t.fmt
  ((t.lanesIn v).any fun l => t.stored l * w / 8 ≤ b && b ≤ (t.stored l * w + w - 1) / 8) ||
    (record && 32 * (w / 8) ≤ b && b < 32 * (w / 8) + 8)

/-- The addresses that a store to the strip at view index `v` may reach: its elements in the valid box, the trailer of a record, and its
scale byte (R62); none where no lane of the strip lies in the box. -/
def TDesc.storedAt (t : TDesc) (record : Bool) (v : List Int) : List Nat :=
  let k := t.stripOff v
  if t.lanesIn v = [] then []
  else
    (((List.range (32 * elemWidth t.fmt + 8)).filter fun b => t.below k ≤ b && t.holds record v b).map (t.byteAddr k)) ++
      (if t.scaled then [t.scaleAddr k] else [])

/-- The addresses of the strips of the valid box of a tensor. -/
def TDesc.boxAddrs (t : TDesc) : List Nat := t.boxStrips.flatMap (t.storedAt (isRecord t.fmt))

/-- What a running item may store to with its command: the strips that the command writes of D, D's valid box, which a failure leaves
undefined, the stream of a COMPRESS move, the rows of a SAMPLE. -/
def Item.stores (s : State) (p : Pitch) (i : Item) (c : Instr) : List Nat :=
  let out := fun (o : Operand) (a : Option Operand) => match c with
    | .arrayTileHandoff _ => (((i.place? s p).bind fun pl => (s.cluster pl).tile).elim [] fun x =>
        tileStrips o.desc (mmaDims i.w i.operands) x.tile x.accs).flatMap fun x =>
          o.desc.storedAt (i.w.accOut = 3 || isRecord o.desc.fmt) x.1
    | .mvpStripHandoff _ => ((i.place? s p).bind fun pl => (s.cluster pl).bank).elim [] fun x =>
        (List.range (lenOf i.w i.operands 0 0)).flatMap fun j =>
          o.desc.storedAt (i.w.accOut = 3 || isRecord o.desc.fmt) (mvpStrip o.desc x.tile j)
    | .ewOperation _ => o.desc.viewStrips.flatMap (o.desc.storedAt (i.w.accOut = 3 || isRecord o.desc.fmt))
    | .move _ => a.elim [] fun a =>
        if i.w.c 14 2 = 1 then (rawStrips s p a.desc).toOption.elim [] fun x =>
          (List.range (32 + (codeChunks a.desc.fmtE (x.length + 1) x).length)).map (o.desc.base + ·)
        else o.desc.boxStrips.flatMap (o.desc.storedAt (isRecord a.desc.fmt || isRecord o.desc.fmt))
    | _ => []
  let rows := match c, i.operand? 0 with
    | .sample _, some a => addrsIn (growRange i.result.range1 (i.w.addr 3) (8 * (rowPositions a.desc (i.w.c 16 3)).length))
    | _, _ => addrsIn i.result.range1
  i.dest?.elim rows fun o => out o (i.operand? 0) ++ o.desc.boxAddrs ++ rows

/-- The commands that store results of the item that they name, and nothing else, in module memory. -/
def storesResult : Instr → Option ItemKey
  | .mma k | .arrayTileHandoff k | .ewOperation k | .mvp k | .mvpStripHandoff k | .vec k | .sample k | .logsoftmax k | .move k => some k
  | .rand k | .stridedGapFault k | .scaleRecheckFail k => some k
  | _ => none

/-- What ITEM_COMPLETE may store to: what a race leaves undefined of the results (R73), the KV blocks and Crusher states that they spoil
(R190, R272), the completion record and the notification (R154). -/
def Item.completionStores (p : Pitch) (q : Queue) (i : Item) : List Nat :=
  let raced := if !i.succeeded then [] else match i.dest? with
    | some o => if i.clash = [] && !i.stale then [] else o.desc.boxAddrs
    | none => (i.clash.flatMap fun e => addrsIn (e.1 / 8, (e.1 + e.2) / 8)) ++ (if i.stale then addrsIn i.result.range1 else [])
  let spoiled := (p.guarded (some i.key.queue)).flatMap fun g =>
    (i.written.filter fun a => g.1 ≤ a && a < g.1 + g.2.1 * g.2.2).flatMap fun a =>
      (List.range g.2.1).map fun b => g.1 + (a - g.1) / g.2.1 * g.2.1 + b
  let record := if q.own then [] else (List.range 64).map fun b => q.compBase + 64 * (i.key.seq % q.ringSize) + b
  let word := if (i.w.notify || !(i.result.status = stOk || i.result.status = stDegraded)) && q.notifyAddr != 0 then
    (List.range 8).map (q.notifyAddr + ·) else []
  raced ++ spoiled ++ record ++ word

/-- The commands that only ask: they answer, and change nothing that they ask about. -/
def isQuery : Instr → Bool
  | .pitchQuery _ | .pitchMeterRead _ | .trnCheckpointQuery _ | .turnStatus _ | .fabDiscoverQuery _ | .fwStageQuery _ => true
  | .devIdentity _ | .bistResult _ | .pwrDieStateQuery _ | .telemetryRead _ | .eventLogRead _ => true
  | _ => false

/-- The frames of the keeper port. -/
def isKeeperFrame : Instr → Bool
  | .registerLoRead _ _ | .registerWrite _ _ _ | .reset _ _ | .rstLock _ _ | .mbx0Doorbell _ _ | .mbx0RspRelease _ _ => true
  | .alertPend _ _ | .cntClr _ _ _ | .keeperFrameReject _ => true
  | _ => false

/-- The commands that stage, activate and start firmware. -/
def isFirmware : Instr → Bool
  | .boot | .fwStageBegin _ | .fwStageData _ | .fwStageVerify _ | .fwStageDiscard _ | .fwStageQuery _ | .fwActivate _ => true
  | .flashRewriteDone _ | .standbyReadyTimeout | .handoverBoundaryTimeout => true
  | _ => false

/-- The clocks and the power state change: dips, control loops short of a shutdown, power states of clusters and dies. -/
def throttles : Instr → Bool
  | .dipBegin _ | .dipInputRise _ | .dipInputFall _ | .dipEnd _ | .powerControlEval _ _ _ | .stepChangeDone _ => true
  | .pwarnEval _ | .overVoltage _ | .pwrDieStateSetCap _ | .pwrDieStateSetIdle _ => true
  | .clusterWake _ | .clusterDoze _ | .clusterRest _ | .dramPllStop _ => true
  | .thermalControlEval _ tj _ => tj < 880
  | _ => false

/-- What the clusters hold of results: accumulator slots, working accumulators, and which logical cluster is loaded. -/
def State.results (s : State) :
    List (List (List (Nat × Acc) × Option TileAccs × Option TileAccs × Option TileAccs × Option Nat)) :=
  s.dies.map fun d => d.clusters.map fun c => (c.slots, c.tile, c.bank, c.drain, c.current)

/-- A die without the frames and transactions that it has to send (R352). -/
def Die.unsent (d : Die) : Die := { d with router := [], txns := [], backlog := [], nextTxn := 0 }

/-- A port without its counters (R444). -/
def Port.uncounted (p : Port) : Port :=
  { p with fecCorr := 0, fecUncorr := 0, crcErr := 0, replays := 0, trainTries := 0, discards := 0 }

/-- The pointers of a queue stand as R140 says, and every completion record written is of a consumed descriptor. -/
def Queue.Ordered (q : Queue) : Prop :=
  q.ack ≤ q.head ∧ q.head ≤ q.tail ∧ q.tail ≤ q.ack + q.ringSize ∧ ∀ n ∈ q.recorded, n < q.head

/-- The event log as R411 says: consecutive sequence numbers up to the next one, and no more entries than the ring has. -/
def Log.Consecutive (l : Log) : Prop :=
  l.entries.length ≤ Config.logEntries ∧
    ∃ first, first + l.entries.length = l.next ∧ l.entries.map (·.seq) = List.range' first l.entries.length

end Sys2Proof.Machine
end

