-- ==== Sys2Proof/Certificates/Slice0/Obligations.lean ====
section
/-! DEFINITION. The statements for the provers. Each says for which states and operands a command runs, and the state it
answers; the rules they follow are named in each docstring. -/

open Sys2Proof Sys2Proof.Machine

/-! ### The machine's step -/

/-- A step takes the command at the front of the queue and runs it with the queue's rest. -/
def Obligations.StepRunsFrontCommand : Prop :=
  ∀ (c : Instr) (rest : List Instr) (s : State), step { s with pending := c :: rest } = exec c { s with pending := rest }

/-! ### Completion: pitches -/

/-- PITCH_CREATE (R311 to R314): a request that passes every check of R312 creates the pitch, or the lending set when its FLAGS say so,
and answers OK. PITCH_BIND_PORT (R317, R318): an accepted HOST or FABRIC binding of port channels is set and answered, an OFF with
nothing stamped is answered, a BIND of a free mailbox binds it, and an UNBIND with nothing accepted clears the mailbox. -/
def Obligations.CompletesPitchSetup : Prop :=
  (∀ (s : State) (seq : Nat) (r : Request), s.request? seq 0x0101 = some r → createFail s r.body = none →
    bit (u16 r.body 2) 0 = true →
    exec (.pitchCreate seq) s = .next (((maskBits (u32 r.body 4) 24).foldl
      (fun s d => s.updDie d fun d => { d with dpllOn := true, dpllIdle := none })
      (s.setLends (s.lends ++ [⟨u16 r.body 0, u32 r.body 4, u16 r.body 16⟩]))).respond seq stOk [])) ∧
  (∀ (s : State) (seq : Nat) (r : Request) (p : Pitch) (t : State), s.request? seq 0x0101 = some r →
    createFail s r.body = none → bit (u16 r.body 2) 0 = false → p = createdPitch s seq r.body →
    t = (maskBits (u32 r.body 4) 24).foldl (fun s d => s.updDie d (Die.join s.fab.moduleId p.lmap d)) s →
    exec (.pitchCreate seq) s =
      .next ((((t.clearRemote p false).setPitches (t.pitches ++ [p])).draw.draw).respond seq stOk [])) ∧
  (∀ (s : State) (seq : Nat) (r : Request), s.request? seq 0x0103 = some r → bindOk r.body = true → u8 r.body 0 = 0 →
    u8 r.body 3 ≠ 0 → decide (u8 r.body 3 = 2) = s.hostFacing (u8 r.body 1) →
    (∀ v ∈ maskBits (u8 r.body 2) 8, (s.port (u8 r.body 1)).roles.getD v .off = .off ∧
      (s.port (u8 r.body 1)).offs.any (fun x => x.2.testBit v) = false) →
    exec (.pitchBindPort seq) s = .next ((s.updPort (u8 r.body 1) fun p =>
      { p with roles := setRoles p.roles (u8 r.body 2) (roleOf (u8 r.body 3) (u16 r.body 4)) }).respond seq stOk [])) ∧
  (∀ (s : State) (seq : Nat) (r : Request), s.request? seq 0x0103 = some r → bindOk r.body = true → u8 r.body 0 = 0 →
    u8 r.body 3 = 0 → (∀ v ∈ maskBits (u8 r.body 2) 8, (s.port (u8 r.body 1)).stamped.getD v 0 = 0) →
    exec (.pitchBindPort seq) s = .next ((s.updPort (u8 r.body 1) fun p =>
      { p with
        roles := setRoles p.roles (u8 r.body 2) .off, offs := p.offs.filter (·.1 != seq)
        hostOut := p.hostOut.filter fun x => !(u8 r.body 2).testBit x.1 }).respond seq stOk [])) ∧
  (∀ (s : State) (seq : Nat) (r : Request), s.request? seq 0x0103 = some r → bindOk r.body = true → u8 r.body 0 = 1 →
    u8 r.body 3 = 2 → (s.box (u8 r.body 1)).bound = none → (s.box (u8 r.body 1)).unbinding = none →
    exec (.pitchBindPort seq) s = .next ((s.updBox (u8 r.body 1) fun b =>
      { b with bound := some (u16 r.body 4) }).respond seq stOk [])) ∧
  (∀ (s : State) (seq : Nat) (r : Request) (t : State), s.request? seq 0x0103 = some r → bindOk r.body = true →
    u8 r.body 0 = 1 → u8 r.body 3 = 0 → (s.box (u8 r.body 1)).unbinding = none →
    t = s.updBox (u8 r.body 1) (fun b => { b with bound := none, unbinding := some seq, assembly := none }) →
    t.boxPending (u8 r.body 1) = false →
    exec (.pitchBindPort seq) s = .next ((t.updBox (u8 r.body 1) Mailbox.unbound).respond seq stOk []))

/-- PITCH_SUSPEND, PITCH_RESUME and PITCH_RELEASE (R322 to R325): the command freezes, resumes or releases the pitch that it names,
carries itself to the other members and goes on with its own part; a suspend, given again for its own request, takes its next step once
the commands before it are done; a resume, given again for its own request, restores the pitch. SUSPEND_TIMEOUT and
COORDINATION_TIMEOUT (R321, R322): a suspend that has not come to rest within its time makes the pitch ACTIVE again, here and on the
other members, and answers BUSY; a spanning command whose own part is done answers after 1 s with the number of members that have not
confirmed, DEGRADED when there are any. The messages that carry a command to a member and its confirmation have no layout in the spec:
log entry 37. -/
def Obligations.CompletesPitchStates : Prop :=
  (∀ (s : State) (seq : Nat) (r : Request) (p q : Pitch), s.request? seq 0x0104 = some r → zeroRange r.body 2 2 = true →
    restZero r.body 8 = true → s.pitch? (u16 r.body 0) = some p → p.st = .active → p.busyWith = none →
    q = { p with
      st := .suspending, busyWith := some seq, busySince := s.now, answers := []
      suspendTimeoutMs := if u32 r.body 4 = 0 then 1000 else u32 r.body 4 } →
    exec (.pitchSuspend seq) s = .next (((s.updPitch p.tag fun p =>
      { p with
        st := .suspending, busyWith := some seq, busySince := s.now, answers := []
        suspendTimeoutMs := if u32 r.body 4 = 0 then 1000 else u32 r.body 4 }).carry p seq 0x0104
          (u32 r.body 4)).suspendStep seq q)) ∧
  (∀ (s : State) (seq : Nat) (r : Request) (p : Pitch), s.request? seq 0x0104 = some r → zeroRange r.body 2 2 = true →
    restZero r.body 8 = true → s.pitch? (u16 r.body 0) = some p → p.busyWith = some seq → p.st = .suspending →
    s.earlierDone p seq = true →
    exec (.pitchSuspend seq) s = .next ((s.updPitch p.tag fun p => p.freeze seq).suspendRest seq (p.freeze seq))) ∧
  (∀ (s : State) (seq : Nat) (r : Request) (p : Pitch), s.request? seq 0x0105 = some r → restZero r.body 2 = true →
    s.pitch? (u16 r.body 0) = some p → p.st = .suspended → p.busyWith = none → s.contextBad p = false →
    s.contextChanged p = false →
    exec (.pitchResume seq) s = .next ((s.updPitch p.tag fun p =>
      { p with st := .resuming, busyWith := some seq, busySince := s.now, answers := [] }).carry p seq 0x0105 0)) ∧
  (∀ (s : State) (seq : Nat) (r : Request) (p : Pitch), s.request? seq 0x0105 = some r → restZero r.body 2 = true →
    s.pitch? (u16 r.body 0) = some p → p.st = .resuming → p.busyWith = some seq →
    exec (.pitchResume seq) s = .next ((s.resumed p).coordinated seq p [] fun s =>
      s.updPitch p.tag fun p => { p with busyWith := none })) ∧
  (∀ (s : State) (seq : Nat) (r : Request) (p : Pitch) (u t : State), s.request? seq 0x0102 = some r →
    restZero r.body 2 = true → s.lends.find? (fun l => l.tag = u16 r.body 0) = none → s.pitch? (u16 r.body 0) = some p →
    p.st ≠ .releasing → u = ((s.abortRequests p).carry p seq 0x0102 0).cancelMove p →
    t = u.updPitch (u16 r.body 0) (fun p =>
      { p with st := .releasing, busyWith := some seq, busySince := u.now, answers := [] }) →
    exec (.pitchRelease seq) s =
      .next (((t.pitch? (u16 r.body 0)).elim t fun p => t.releaseWork seq p).releaseStep seq (u16 r.body 0))) ∧
  (∀ (s : State) (tag seq : Nat) (p : Pitch), s.pitch? tag = some p → p.busyWith = some seq → p.st = .suspending →
    p.atRest = false → due p.busySince (25000 * p.suspendTimeoutMs) s.now = true →
    exec (.suspendTimeout tag) s = .next ((((s.updPitch p.tag fun p => { p.unfreeze seq with st := .active }).updPitch p.tag
      fun p => { p with busyWith := none }).carry p seq 0x0105 0).respond seq stBusy [])) ∧
  (∀ (s : State) (seq : Nat) (p : Pitch), s.pitches.find? (fun p => p.busyWith = some seq) = some p →
    p.st = .suspended ∨ p.st = .active → p.lenders = [] → due p.busySince 25000000 s.now = true →
    exec (.coordinationTimeout seq) s = .next ((s.updPitch p.tag fun p => { p with busyWith := none }).respond seq
      (if s.unconfirmed p seq = 0 ∧ p.lenderLost = false then stOk else stDegraded) (le 2 (s.unconfirmed p seq))))

/-- PITCH_QUERY, PITCH_METER_READ and ATTEST_QUOTE (R327, R330 to R333): a query of a pitch, or of the list, answers it; a meter read
answers the current minute, the totals and at most the wanted minutes; a quote is signed over its nonce. METER_MINUTE closes the minute
that has ended, once. -/
def Obligations.CompletesPitchQueries : Prop :=
  (∀ (s : State) (seq : Nat) (r : Request), s.request? seq 0x0106 = some r → restZero r.body 2 = true →
    namedTag r (u16 r.body 0) = some noTag → exec (.pitchQuery seq) s = .next (s.respond seq stOk s.pitchList)) ∧
  (∀ (s : State) (seq tag : Nat) (r : Request) (p : Pitch), s.request? seq 0x0106 = some r → restZero r.body 2 = true →
    namedTag r (u16 r.body 0) = some tag → tag ≠ noTag → s.pitch? tag = some p →
    exec (.pitchQuery seq) s = .next (s.respond seq stOk (s.pitchInfo p))) ∧
  (∀ (s : State) (seq tag : Nat) (r : Request) (p : Pitch) (recs : List (Nat × List Nat)),
    s.request? seq 0x0107 = some r → zeroRange r.body 2 6 = true → restZero r.body 20 = true → 1 ≤ u32 r.body 16 →
    u32 r.body 16 ≤ 48 → namedTag r (u16 r.body 0) = some tag → s.pitch? tag = some p →
    recs = (p.meterMinutes.filter fun x => u64 r.body 8 ≤ x.1).take (u32 r.body 16) →
    exec (.pitchMeterRead seq) s = .next (s.draw.respond seq stOk (le 8 (s.now / minuteCounts) ++
      (p.meterMinutes.head?.elim (s.openBytes 8) fun x => le 8 x.1) ++ le 4 recs.length ++ le 4 0 ++ p.totals ++
      recs.flatMap fun x => meterRecord x.1 x.2))) ∧
  (∀ (s : State) (seq : Nat) (r : Request), s.request? seq 0x0703 = some r → restZero r.body 66 = true →
    namedTag r (u16 r.body 64) = some noTag →
    (s.ring.journal.filter fun x => x.command = 0x0703 && x.seq < seq).length < 4 →
    exec (.attestQuote seq) s = .next (s.signQuote seq none (slice r.body 0 64))) ∧
  (∀ (s : State) (seq tag : Nat) (r : Request) (p : Pitch), s.request? seq 0x0703 = some r → restZero r.body 66 = true →
    namedTag r (u16 r.body 64) = some tag → tag ≠ noTag → s.pitch? tag = some p → p.st ≠ .failed →
    (s.ring.journal.filter fun x => x.command = 0x0703 && x.seq < seq).length < 4 →
    exec (.attestQuote seq) s = .next (s.signQuote seq (some p) (slice r.body 0 64))) ∧
  (∀ (s : State), s.now ≠ 0 → s.now % minuteCounts = 0 →
    exec .meterMinute s = .next (s.setPitches (s.pitches.map fun p =>
      if p.meterMinutes.any (fun x => x.1 = s.now / minuteCounts - 1) then p
      else p.closeMinute (s.now / minuteCounts - 1))))

/-! ### Completion: work queues and work items -/

/-- WORK_QUEUE_OPEN, WORK_QUEUE_CLOSE and WORK_ABORT (R155, R162): a correct open adds the queue under the free identifier and answers
its control page; a close of an open queue starts its close; an abort latches the range and answers how many items it covers and how
many were late. DOORBELL and ACK_WR (R142, R143): a doorbell above TAIL and at most ACK + RING_SIZE becomes TAIL and clears REFUSED, one
beyond that is refused and counted, and one at or below TAIL does nothing; an acknowledgement never moves ACK back, nor past the first
item without a record, and says whether it was clamped. A write that is no whole WO field of a control page only leaves an event (R141).
-/
def Obligations.CompletesQueues : Prop :=
  (∀ (s : State) (seq id : Nat) (r : Request) (p : Pitch), RunsFor s seq 0x0201 r p → queueFieldsOk p r.body = true →
    ringMapped s p (u64 r.body 0) (128 * u16 r.body 24) = true → ringMapped s p (u64 r.body 8) (64 * u16 r.body 24) = true →
    u64 r.body 16 = 0 ∨ allKind s p (u64 r.body 16) 8 (· = .dram) = true → p.freeQueue = some id →
    exec (.workQueueOpen seq) s = .next ((s.updPitch p.tag fun p =>
      { p with queues := p.queues ++ [openedQueue id r.body]
               classOrder := if u8 r.body 28 = 0 then p.classOrder else u8 r.body 28 }).respond seq stOk
      (le 1 id ++ le 7 0 ++ le 8 (controlBase + 4096 * id)))) ∧
  (∀ (s : State) (seq : Nat) (r : Request) (p : Pitch) (q : Queue) (t : State), RunsFor s seq 0x0202 r p →
    u8 r.body 1 ≤ 1 → restZero r.body 2 = true → p.queue? (u8 r.body 0) = some q → q.closing = none →
    t = s.updQueue p.tag q.id (fun q => q.startClose seq (u8 r.body 1 = 1)) →
    exec (.workQueueClose seq) s =
      .next ((if u8 r.body 1 = 1 then t.abortConsumed p.tag q.id 0 q.tail else t).finishClose seq p.tag q.id q.tail)) ∧
  (∀ (s : State) (seq late : Nat) (r : Request) (p : Pitch) (q : Queue), RunsFor s seq 0x0203 r p →
    zeroRange r.body 1 7 = true → restZero r.body 24 = true → u64 r.body 8 ≤ u64 r.body 16 →
    p.queue? (u8 r.body 0) = some q → q.ack ≤ u64 r.body 8 → u64 r.body 16 < q.tail →
    u64 r.body 16 < q.head ∨ p.openAborts q.homeLdie < 16 →
    late = (q.recorded.filter fun n => u64 r.body 8 ≤ n && n ≤ u64 r.body 16).length →
    exec (.workAbort seq) s = .next (((s.updQueue p.tag q.id fun q =>
      { q with aborts := if q.head ≤ u64 r.body 16 then q.aborts ++ [(u64 r.body 8, u64 r.body 16)] else q.aborts }).abortConsumed
        p.tag q.id (u64 r.body 8) (u64 r.body 16)).respond seq (if late = 0 then stOk else stAbortLate)
        (le 4 (u64 r.body 16 + 1 - u64 r.body 8 - late) ++ le 4 late))) ∧
  (∀ (s : State) (tag queue value : Nat), value < 2 ^ 64 →
    exec (.doorbell tag queue value) s = .next (s.updQueue tag queue fun q =>
      if q.closing ≠ none ∨ value ≤ q.tail then q
      else if q.ack + q.ringSize < value then { q with refused := true, refusals := satInc q.refusals 0xFFFF }
      else { q with tail := value, refused := false })) ∧
  (∀ (s : State) (tag queue value : Nat), value < 2 ^ 64 →
    exec (.ackWr tag queue value) s = .next (s.updQueue tag queue fun q =>
      { q with
        ack := max q.ack (min value q.unrecorded), ackClamped := decide (q.unrecorded < value)
        recorded := q.recorded.filter fun n => max q.ack (min value q.unrecorded) ≤ n })) ∧
  (∀ (s : State) (tag queue offset : Nat) (data : Bytes) (p : Pitch) (q : Queue), s.pitch? tag = some p →
    p.queue? queue = some q → data.length ≠ 8 ∨ (offset ≠ 0 ∧ offset ≠ 8) →
    exec (.controlPageWriteInvalid tag queue offset data) s = .next (s.logPageWrite tag queue offset))

/-- DESCRIPTOR_CONSUME (R140, R144, R155, R177): a queue that may consume takes the descriptor at HEAD as an item and moves HEAD on; an
uncorrectable read of the descriptor or of what it names is logged with its address; an item whose abort was latched completes at once.
ITEM_READY, ITEM_STAGED, SIGNAL, WAIT and ITEM_COMPLETE (R150, R152, R154): an item whose counter has reached its value becomes ready; a
ready item's first operands are staged, those of other modules by READ frames; a SIGNAL with nothing earlier left in its queue and a
WAIT whose condition holds complete; an item whose outcome is fixed sends what it wrote to other modules, and once that is answered, or
when there is none, it gets its record, its signal and its notification. -/
def Obligations.CompletesItemProgress : Prop :=
  (∀ (s : State) (tag queue cursor : Nat) (p : Pitch) (q : Queue) (i : Item) (u t : State), s.pitch? tag = some p →
    p.queue? queue = some q → q.consumable p = true → consumed s p q = (i, cursor) →
    u = s.updPitch tag (fun p =>
      (({ p with items := p.items ++ [i] }).updQueue queue fun q => q.consumeHead i cursor).refreshLimit q.homeLdie) →
    t = (if i.result.status = stUncorrectable then u.logBadRead tag (s.firstBad p (consumeReads s p q i.w)) else u) →
    exec (.descriptorConsume tag queue) s =
      .next (if i.result.status = stAborted then (t.completeItem i.key).abortWhole i.key i else t)) ∧
  (∀ (s : State) (k : ItemKey) (p : Pitch) (i : Item), OnItem s k p i → i.phase = .waiting →
    waitState p i.w = some true → i.w.onQueue = false →
    exec (.itemReady k) s = .next (s.updItem k fun i => i.makeReady s.now (looseNow p i))) ∧
  (∀ (s : State) (k : ItemKey) (p : Pitch) (i : Item), OnItem s k p i → i.phase = .ready → i.staged = none →
    exec (.itemStaged k) s = .next ((s.updItem k fun i => { i with staged := some s.now }).fetchAbroad p i)) ∧
  (∀ (s : State) (k : ItemKey) (p : Pitch) (i : Item), OnItem s k p i → i.w.typ = tySignal → i.phase = .waiting →
    frozenQueue p k = false → (∀ x ∈ p.items, x.key.queue = k.queue → k.seq ≤ x.key.seq) → waitState p i.w = some true →
    exec (.signal k) s = .next (s.completeQueueItem p k)) ∧
  (∀ (s : State) (k : ItemKey) (p : Pitch) (i : Item), OnItem s k p i → i.w.typ = tyWait → i.phase = .waiting →
    frozenQueue p k = false → waitState p i.w = some true → exec (.wait k) s = .next (s.completeQueueItem p k)) ∧
  (∀ (s : State) (k : ItemKey) (p : Pitch) (i : Item), OnItem s k p i → i.phase = .finished → i.stored = false →
    i.result.status = stOk → p.abroad s i.written ≠ [] →
    exec (.itemComplete k) s = .next ((s.updItem k fun i => { i with stored := true }).storeAbroad p i)) ∧
  (∀ (s : State) (k : ItemKey) (p : Pitch) (i : Item), OnItem s k p i → i.phase = .finished →
    (i.stored = true ∧ s.inTransit k = false) ∨
      (i.stored = false ∧ (i.result.status ≠ stOk ∨ p.abroad s i.written = [])) →
    exec (.itemComplete k) s = .next (s.completeItem k))

/-- RUNNING_ITEM_ABORT_STOP, STRIDED_GAP_FAULT, SCALE_RECHECK_FAIL and UNCORRECTABLE_READ (R74, R155, R170, R177): a latched running
item ends ABORTED, its collective with it; a running item with a strip in an unmapped gap ends OUT_OF_RANGE, one with a bad scale byte
BAD_DESCRIPTOR, and one that reads an uncorrectable unit, in memory or in the staging pool, UNCORRECTABLE, with an event that gives the
address; an accumulator slot has no pitch address, and its event's data is open (log entry 33). -/
def Obligations.CompletesItemFailures : Prop :=
  (∀ (s : State) (k : ItemKey) (p : Pitch) (i : Item), OnItem s k p i → i.latched = true → i.phase = .running →
    exec (.runningItemAbortStop k) s = .next ((s.failItem k stAborted).abortWhole k i)) ∧
  (∀ (s : State) (k : ItemKey) (p : Pitch) (i : Item), OnItem s k p i → i.phase = .running →
    i.operands.any (fun o => gapIn s p o.desc) = true →
    exec (.stridedGapFault k) s = .next (s.failItem k stOutOfRange)) ∧
  (∀ (s : State) (k : ItemKey) (p : Pitch) (i : Item), OnItem s k p i → i.phase = .running →
    i.operands.any (fun o => !o.dst && scalesFail s p o.desc = some stBadDescriptor) = true →
    exec (.scaleRecheckFail k) s = .next (s.failItem k stBadDescriptor)) ∧
  (∀ (s : State) (k : ItemKey) (addr key : Nat) (p : Pitch) (i : Item) (w : Where), OnItem s k p i → i.phase = .running →
    translate s p addr = some (.cell w key) →
    exec (.uncorrectableRead k (.addr addr)) s = .next (((s.setBad (insertNat s.bad (unitOf key).1)).logFact 3 "UNCORRECTABLE"
      none noDie k.tag addr).failItem k stUncorrectable)) ∧
  (∀ (s : State) (k : ItemKey) (n : Nat) (p : Pitch) (i : Item) (pl : Place), OnItem s k p i → i.phase = .running →
    i.place? s p = some pl →
    exec (.uncorrectableRead k (.slot n)) s = .next (((s.updCluster pl fun c => c.spoilSlot n).logNote 3 "UNCORRECTABLE"
      none noDie k.tag n).failItem k stUncorrectable)) ∧
  (∀ (s : State) (k : ItemKey) (addr : Nat) (p : Pitch) (i : Item), OnItem s k p i → i.phase = .running →
    (translate s p addr).isSome = true →
    exec (.uncorrectableRead k (.staged addr)) s = .next ((s.logFact 3 "UNCORRECTABLE" none noDie k.tag addr).failItem k
      stUncorrectable))

/-- CAROUSEL_DISPATCH, CLUSTER_WAKE, CLUSTER_DOZE, CLUSTER_REST, DRAM_PLL_STOP and LOGICAL_CLUSTER_SWITCH (R153, R161, R397, R399): an
engine at a hand-off takes the first candidate, unless that is the item that it runs; a cluster with a ready item wakes, an idle one
dozes and then rests; the DRAM PLL stops 10 ms after its last need; a cluster changes its logical cluster at an item boundary, once per
millisecond while more than one of its logical clusters has ready items. -/
def Obligations.CompletesCarousel : Prop :=
  (∀ (s : State) (pl : Place) (e : Engine) (p : Pitch) (l : Nat) (i : Item), s.runsOn pl = some (p, l) →
    (s.cluster pl).st = .working → (s.die pl.die).runs = true → s.atHandoff pl e = true → p.st = .active →
    pickFirst p s.now (candidates s p pl l e) = some i → i.phase ≠ .running →
    exec (.carouselDispatch pl e) s = .next (s.giveEngine pl e i.key)) ∧
  (∀ (s : State) (pl : Place) (p : Pitch), (s.dieTag? pl.die).bind s.pitch? = some p → (s.die pl.die).runs = true →
    (s.cluster pl).st = .dozing ∨ (s.cluster pl).st = .resting → (placedOn s p pl).any p.readyFor = true →
    exec (.clusterWake pl) s = .next ((s.updDie pl.die fun d => { d with cpllOn := true }).updCluster pl fun c =>
      { c with st := .working, idleCycles := 0, idleCounts := 0 })) ∧
  (∀ (s : State) (pl : Place), (s.cluster pl).st = .working → (s.cluster pl).idle = true →
    (s.die pl.die).dozeCycles ≤ (s.cluster pl).idleCycles →
    exec (.clusterDoze pl) s = .next (s.updCluster pl fun c => { c with st := .dozing })) ∧
  (∀ (s : State) (pl : Place), (s.cluster pl).st = .working ∨ (s.cluster pl).st = .dozing → (s.cluster pl).idle = true →
    25 * (s.die pl.die).restUs ≤ (s.cluster pl).idleCounts →
    exec (.clusterRest pl) s =
      .next ((s.updCluster pl fun c => { c with st := .resting }).updDie pl.die Die.stopPlls)) ∧
  (∀ (s : State) (die since : Nat), (s.die die).dpllOn = true → s.dieTag? die = none → s.dieLend? die = none →
    (s.die die).dpllIdle = some since → due since 250000 s.now = true →
    exec (.dramPllStop die) s = .next (s.updDie die fun d => { d with dpllOn := false, dpllIdle := none })) ∧
  (∀ (s : State) (pl : Place) (l old : Nat) (p : Pitch), s.runsOn pl = some (p, old) → old ≠ l → p.moving l = false →
    p.moving old = false → p.place? s l = some pl → p.readyFor l = true →
    (∀ i ∈ p.items, i.w.lcluster = old → i.dispatched = true → i.phase ≠ .running ∧ i.phase ≠ .ready ∧ i.phase ≠ .anchoring) →
    ((placedOn s p pl).filter p.readyFor).length ≤ 1 ∨ (s.cluster pl).lastSwitch = none ∨
      (∃ t, (s.cluster pl).lastSwitch = some t ∧ t + 25000 ≤ s.now) →
    exec (.logicalClusterSwitch pl l) s = .next (s.swapLogical p pl old l))

/-! ### Completion: engines -/

/-- MMA and ARRAY_TILE_HANDOFF (R85, R90, R91): the item that the cluster's arrays run forms its next tile, and clears the slot that it
takes its accumulators from; a tile bound for a slot is put or added there; a tile bound for D has its strips written, and its outcome
joins the item's. MVP and MVP_STRIP_HANDOFF (R104, R106): the item that the cluster's MVP runs forms its next output strip for every
vector in the working bank; the strip passes to the draining bank and is written to D, and its outcome joins the item's. -/
def Obligations.CompletesMatrixItems : Prop :=
  (∀ (s : State) (k : ItemKey) (p : Pitch) (i : Item) (pl : Place) (accs : List Acc) (bad sat : Bool) (t : State),
    OnItem s k p i → runsArrays s p i = some pl → i.w.typ = tyMma → i.w.c 0 3 = 0 → (s.cluster pl).tile = none →
    i.tiles < (mmaDims i.w i.operands).tiles →
    tileAccs s p i.w i.operands pl (mmaDims i.w i.operands) i.tiles = .ok (accs, bad, sat) →
    t = s.updCluster pl (fun c => { c with tile := some ⟨k, i.tiles, accs, bad, sat⟩ }) →
    exec (.mma k) s = .next (State.draw (if i.w.accIn = 2 then
      (t.updCluster pl fun c => c.setSlot (i.w.slotIn + i.tiles) []).updItem k fun x => x.touchSlot (i.w.slotIn + x.tiles)
      else t))) ∧
  (∀ (s t : State) (k : ItemKey) (p : Pitch) (i : Item) (pl : Place) (x : TileAccs) (sat : Bool), OnItem s k p i →
    runsArrays s p i = some pl → (s.cluster pl).tile = some x → x.key = k → i.w.usesOut = true →
    (i.w.accOut = 2 → ((s.cluster pl).slot (i.w.slotOut + x.tile)).any (·.bad) = false) →
    s.tileToSlot pl (i.w.accOut = 2) (i.w.slotOut + x.tile) x.accs = (t, sat) →
    exec (.arrayTileHandoff k) s = .next ((t.updItem k fun i' => i'.touchSlot (i.w.slotOut + x.tile)).tileDone pl k
      (mmaDims i.w i.operands).tiles ⟨x.invalid, x.accSat || sat, false⟩)) ∧
  (∀ (s t : State) (k : ItemKey) (p : Pitch) (i : Item) (pl : Place) (x : TileAccs) (o : Operand) (r : Raised),
    OnItem s k p i → runsArrays s p i = some pl → (s.cluster pl).tile = some x → x.key = k → i.w.usesOut = false →
    i.dest? = some o →
    foldKeep (fun acc sp => tileStrip k i.w o i.outMode sp.1 sp.2 acc) (s, ⟨x.invalid, x.accSat, false⟩)
      (tileStrips o.desc (mmaDims i.w i.operands) x.tile x.accs) = ((t, r), none) →
    exec (.arrayTileHandoff k) s = .next (t.tileDone pl k (mmaDims i.w i.operands).tiles r)) ∧
  (∀ (s : State) (k : ItemKey) (p : Pitch) (i : Item) (pl : Place) (o : Operand) (accs : List Acc) (bad sat : Bool),
    OnItem s k p i → runsMvp s p i = some pl → i.dest? = some o → (s.cluster pl).bank = none →
    i.tiles < (o.desc.dim 1).view → mvpAccs s p i.w i.operands o.desc i.tiles = .ok (accs, bad, sat) →
    exec (.mvp k) s =
      .next ((s.updCluster pl fun c => { c with bank := some ⟨k, i.tiles, accs, bad, sat⟩ }).draw)) ∧
  (∀ (s t : State) (k : ItemKey) (p : Pitch) (i : Item) (pl : Place) (o : Operand) (x : TileAccs) (r : Raised),
    OnItem s k p i → runsMvp s p i = some pl → i.dest? = some o → (s.cluster pl).bank = some x → x.key = k →
    foldKeep (fun acc j => tileStrip k i.w o i.outMode (mvpStrip o.desc x.tile j)
      ((List.range 32).map fun l => (l, x.accs.getD (32 * j + l) {})) acc)
      (s.updCluster pl fun c => { c with bank := none, drain := some x }, ⟨x.invalid, x.accSat, false⟩)
      (List.range (lenOf i.w i.operands 0 0)) = ((t, r), none) →
    exec (.mvpStripHandoff k) s = .next (t.stripDone pl k (o.desc.dim 1).view r))

/-- EW_OPERATION (R98): the next unit of 32 strips of an element-wise item that can be read, computed and written is, and after the last
unit the item leaves the arrays finished with status OK. VEC and RAND (R111, R112, R135): an item whose every strip can be read, computed
and written leaves its engine finished with status OK, with D written strip by strip. SAMPLE and LOGSOFTMAX (R120 to R124): an item whose every row can be read and
written leaves the vector unit finished with status OK, row by row. -/
def Obligations.CompletesVectorItems : Prop :=
  (∀ (s t : State) (k : ItemKey) (p : Pitch) (i : Item) (pl : Place) (o : Operand), OnItem s k p i →
    runsArrays s p i = some pl → i.dest? = some o → i.w.typ = tyMma → i.w.c 0 3 ≠ 0 →
    32 * (i.tiles + 1) < o.desc.viewStrips.length →
    ewUnit k p i.w (i.operands.filter fun o => !o.dst) o i.outMode s ((o.desc.viewStrips.drop (32 * i.tiles)).take 32) = (t, none) →
    exec (.ewOperation k) s = .next t) ∧
  (∀ (s t : State) (k : ItemKey) (p : Pitch) (i : Item) (pl : Place) (o : Operand), OnItem s k p i →
    runsArrays s p i = some pl → i.dest? = some o → i.w.typ = tyMma → i.w.c 0 3 ≠ 0 → 32 * i.tiles < o.desc.viewStrips.length →
    o.desc.viewStrips.length ≤ 32 * (i.tiles + 1) →
    ewUnit k p i.w (i.operands.filter fun o => !o.dst) o i.outMode s ((o.desc.viewStrips.drop (32 * i.tiles)).take 32) = (t, none) →
    exec (.ewOperation k) s = .next ((t.leaveEngine pl k).updItem k fun i =>
      { i with phase := .finished, result := { i.result with status := stOk } })) ∧
  (∀ (s t : State) (k : ItemKey) (p : Pitch) (i : Item) (pl : Place) (o : Operand), OnItem s k p i →
    runsVector s p i = some pl → i.dest? = some o → i.w.typ = tyVec → i.w.isSample = false → i.w.isLsm = false →
    foldKeep (vecStrip k p i o) s o.desc.boxStrips = (t, none) →
    exec (.vec k) s = .next ((t.leaveEngine pl k).updItem k fun i =>
      { i with phase := .finished, result := { i.result with status := stOk } })) ∧
  (∀ (s t : State) (k : ItemKey) (p : Pitch) (i : Item) (pl : Place) (o : Operand), OnItem s k p i →
    runsVector s p i = some pl → i.dest? = some o → i.w.typ = tyRand →
    foldKeep (randStrip k i o) s o.desc.boxStrips = (t, none) →
    exec (.rand k) s = .next ((t.leaveEngine pl k).updItem k fun i =>
      { i with phase := .finished, result := { i.result with status := stOk } })) ∧
  (∀ (s t : State) (k : ItemKey) (p : Pitch) (i : Item) (pl : Place) (a : Operand), OnItem s k p i →
    runsVector s p i = some pl → i.operand? 0 = some a → i.w.isSample = true →
    foldKeep (sampleRow k p i.w a.desc) s (rowPositions a.desc (i.w.c 16 3)).zipIdx = (t, none) →
    exec (.sample k) s = .next ((t.leaveEngine pl k).updItem k fun i =>
      { i with phase := .finished, result := { i.result with status := stOk } })) ∧
  (∀ (s t : State) (k : ItemKey) (p : Pitch) (i : Item) (pl : Place) (a o : Operand), OnItem s k p i →
    runsVector s p i = some pl → i.operand? 0 = some a → i.dest? = some o → i.w.isLsm = true →
    foldKeep (lsmRow k p i.w a.desc o.desc) s (rowPositions a.desc (i.w.c 16 3)).zipIdx = (t, none) →
    exec (.logsoftmax k) s = .next ((t.leaveEngine pl k).updItem k fun i =>
      { i with phase := .finished, result := { i.result with status := stOk } }))

/-- MOVE (R156, R252): on each of its paths (copy, conversion, records, COMPRESS, DECOMPRESS) an item whose every strip can be read and
written leaves its data mover finished with status OK. COLLECTIVE and its passes (R46, R48, R157, R248): a contributor that agrees with
the collective is registered with its exact values, at the root or, where the root is on another module, by a COLL_UP frame to it, and
one whose collective was aborted before it came ends ABORTED; once every contributor is there the anchors are formed and told to the
contributors on other modules; each contributor is rounded to them once, from its slots read again (R239) or from the values that it
registered, and its sums go to the root; the combined sums are written to the root's D and every contributor completes alike. -/
def Obligations.CompletesTransfers : Prop :=
  (∀ (s t : State) (k : ItemKey) (p : Pitch) (i : Item) (pl : Place) (a o : Operand), OnItem s k p i →
    runsMover s p i = some pl → i.operand? 0 = some a → i.dest? = some o → i.w.typ = tyMove →
    (i.w.c 14 2 ≠ 1 ∧ i.w.c 14 2 ≠ 2 ∧ isRecord a.desc.fmt = false ∧ movePath i.w a.desc o.desc = .copy ∧
      foldKeep (copyStrip k p i.w a.desc o) s o.desc.boxStrips = (t, none)) ∨
    (i.w.c 14 2 ≠ 1 ∧ i.w.c 14 2 ≠ 2 ∧ isRecord a.desc.fmt = false ∧ movePath i.w a.desc o.desc = .convert ∧
      foldKeep (convertMove k p i.w a.desc o i.outMode) s o.desc.boxStrips = (t, none)) ∨
    (i.w.c 14 2 ≠ 1 ∧ i.w.c 14 2 ≠ 2 ∧ isRecord a.desc.fmt = true ∧
      foldKeep (copyRecord k p a.desc o) s o.desc.boxStrips = (t, none)) ∨
    (i.w.c 14 2 = 1 ∧ compressMove s p k a.desc o = (t, none)) ∨
    (∃ strips, i.w.c 14 2 = 2 ∧ decompressMove s p a.desc o.desc = .ok (some strips) ∧
      foldKeep (streamStrip k o) s (o.desc.boxStrips.zip strips) = (t, none)) →
    exec (.move k) s = .next ((t.leaveEngine pl k).updItem k fun i =>
      { i with phase := .finished, result := { i.result with status := stOk } })) ∧
  (∀ (s : State) (k : ItemKey) (p : Pitch) (i : Item) (pl : Place) (vals : List (List Exact × Bool)), OnItem s k p i →
    runsReadout s p i = some pl → i.w.typ = tyColl → p.owed? i = none → deliverOk p i = true →
    (p.colls.find? fun c => c.ident = i.w.param).elim true (fun c => c.accepts i) = true →
    mapE (contribStrip s p i pl i.collView) i.collView.boxStrips = .ok vals →
    exec (.collective k) s = .next (s.register p pl i vals)) ∧
  (∀ (s : State) (k : ItemKey) (p : Pitch) (i : Item) (pl : Place), OnItem s k p i → runsReadout s p i = some pl →
    i.w.typ = tyColl → (p.owed? i).isSome = true →
    exec (.collective k) s = .next ((s.leaveEngine pl k).abortWhole k i)) ∧
  (∀ (s : State) (tag ident : Nat) (c : Coll), s.coll? tag ident = some c → c.full = true → c.anchors = none →
    exec (.collectivePass1AtRoot tag ident) s = .next ((s.updColl tag ident Coll.withAnchors).tellDown tag c
      { ident := ident, anchors := c.withAnchors.anchors.getD [], ended := false, status := stOk, flags := [], counts := [] })) ∧
  (∀ (s : State) (k : ItemKey) (p : Pitch) (i : Item) (c : Coll) (x y : Contributor), OnItem s k p i →
    s.coll? k.tag i.w.param = some c → c.contributors.find? (fun x => x.key = k) = some x → c.anchors.isSome = true →
    x.rounded = false → i.phase = .anchoring → secondRead s p i x = .ok y →
    (c.root = none → exec (.collectiveAnchorReceived k) s = .next (s.updColl k.tag c.ident fun c => c.addContributor y)) ∧
    (∀ a, c.root = some a → exec (.collectiveAnchorReceived k) s =
      .next (s.secondUp k.tag c y ((i.place? s p).elim 0 (·.die)) a))) ∧
  (∀ (s t : State) (tag ident ovf : Nat) (c : Coll), s.coll? tag ident = some c → c.full = true →
    c.contributors.all (·.rounded) = true → bits c.control 2 2 ≠ 2 →
    foldE (c.writeStrip tag) (s, 0) (parseDesc c.dest).boxStrips.zipIdx = .ok (t, ovf) →
    exec (.collectiveResultWritten tag ident) s =
      .next ((t.spoilAddrs tag c.queue? (parseDesc c.dest).byteAddrs).endColl tag c (c.outcome ovf)))

/-! ### Completion: contexts -/

/-- WORK_CONTEXT_SAVE and WORK_CONTEXT_RESTORE (R158, R159): a save freezes the queues and, once they rest, writes the image; a restore
into a pitch without queues that reads a good image brings its queues, items and counters back and answers the cluster counts.
SVC_MODEL_LOAD (R186, R187): an unload of a model without sessions, which is no draft model, removes it; a load that passes every check
adds the model that the check forms. -/
def Obligations.CompletesContextsAndModels : Prop :=
  (∀ (s : State) (seq : Nat) (r : Request) (p : Pitch) (t : State), RunsFor s seq 0x0204 r p → u8 r.body 16 ≤ 3 →
    restZero r.body 17 = true → t = s.updPitch p.tag (fun p => p.freeze seq) →
    exec (.workContextSave seq) s = .next (if p.quiet then t.finishSave seq (p.freeze seq) r.body else t)) ∧
  (∀ (s : State) (seq : Nat) (r : Request) (p : Pitch) (b : Bytes), RunsFor s seq 0x0205 r p → restZero r.body 16 = true →
    p.queues.any (fun q => !q.own) = false → allKind s p (u64 r.body 0) (u64 r.body 8) (fun k => k = .dram || k = .spoil) = true →
    readBytes s p (u64 r.body 0) (u64 r.body 8) = .ok b → restoreFail s p b = none →
    exec (.workContextRestore seq) s = .next ((s.doRestore p b).respond seq stOk
      (le 2 (u16 b 6) ++ le 2 (min (u16 b 6) (freshMap p.members).length)))) ∧
  (∀ (s : State) (seq : Nat) (r : Request) (p : Pitch) (m : Model), RunsFor s seq 0x0301 r p → u16 r.body 4 = 1 →
    restZero r.body 6 = true → p.model? (u32 r.body 0) = some m → m.sessions = [] →
    (∀ t ∈ p.models, ¬ (t.spec = true ∧ t.draftModel = m.id)) →
    exec (.svcModelLoad seq) s = .next ((s.updPitch p.tag fun p =>
      ({ p with models := p.models.filter fun t => t.id != m.id }).dropOwned (gulperQueue m.id)).respond seq stOk
      (le 4 m.id ++ le 4 m.blockBytes))) ∧
  (∀ (s : State) (seq : Nat) (r : Request) (p : Pitch) (m : Model), RunsFor s seq 0x0301 r p →
    bit (u16 r.body 4) 0 = false → checkLoad s p r.body = .ok m →
    exec (.svcModelLoad seq) s = .next ((s.updPitch p.tag fun p =>
      ({ p with models := p.models ++ [{ m with core := s.pickCore }] }).withOwned (gulperQueue m.id) (m.dies.headD (0, 0)).1).respond seq stOk
      (le 4 m.id ++ le 4 m.blockBytes)))

/-! ### Completion: serving -/

/-- SVC_SESSION_OPEN, SVC_SUBMIT and SVC_SESSION_CLOSE (R192 to R196, R211, R214): an accepted open adds an IDLE session under a free
identifier and writes PRODUCED 0 to its ring; a submit to an IDLE session with readable tokens of the vocabulary is admitted by the
booth's rules, in its turn (R213); a close of a paused session drops it, and of any other starts its closing. SVC_SESSION_PAUSE, PAUSE_RECORD_WRITTEN,
SVC_SESSION_RESUME and SESSION_EXPIRE (R226 to R230): a pause with a legal time and room in the pause area starts; once no step is in
flight its record is written, its blocks and reservation are released, the session is PAUSED and the request is answered; a resume whose
checks pass, at the time it was accepted, restores the session from its record; in an ACTIVE pitch a paused session expires at its
deadline, unless a command that came before it still waits. -/
def Obligations.CompletesSessions : Prop :=
  (∀ (s : State) (seq n : Nat) (r : Request) (p : Pitch) (m : Model) (x : Session), RunsFor s seq 0x0302 r p →
    p.model? (u32 r.body 0) = some m → openFieldsOk m r.body = true →
    dramSpan s p (u64 r.body 32) (64 + 32 * u32 r.body 40) = true → m.sessions.length < 65536 →
    n = freeId (p.models.flatMap fun m => m.sessions.map (·.id)) (p.models.flatMap fun m => m.sessions.map (·.id)).length
      ((p.models.map (·.nextSession)).foldl max 0) →
    x = { id := n % 2 ^ 32, pinned := bit (u32 r.body 4) 0, noPrefix := bit (u32 r.body 4) 1, stream := u64 r.body 8
          temp := BitVec.ofNat 32 (u32 r.body 16), topP := BitVec.ofNat 32 (u32 r.body 20), topK := u32 r.body 24
          maxLen := u32 r.body 28, outBase := u64 r.body 32, outSlots := u32 r.body 40, openBytes := slice r.body 0 80
          stop := ((List.range 8).map fun i => u32 r.body (48 + 4 * i)).filter (· != 0xFFFFFFFF) } →
    exec (.svcSessionOpen seq) s = .next (((s.updModel p.tag m.id fun m =>
      { m with sessions := m.sessions ++ [x], nextSession := n + 1 }).tryWrite p.tag (u64 r.body 32) (le 8 0)).respond seq
        stOk (le 4 x.id ++ le 4 0))) ∧
  (∀ (s : State) (seq : Nat) (r : Request) (p : Pitch) (m : Model) (x : Session) (b : Bytes), RunsFor s seq 0x0303 r p →
    p.expired (u32 r.body 0) = false → p.session? (u32 r.body 0) = some (m, x) → s.mayEvaluate p m.id r = true →
    x.st = .idle → x.pause = none →
    x.committed + u32 r.body 24 ≤ x.maxLen → submitFieldsOk x r.body = true →
    dramSpan s p (u64 r.body 16) (4 * u32 r.body 24) = true → readBytes s p (u64 r.body 16) (4 * u32 r.body 24) = .ok b →
    (∀ k ∈ (List.range (u32 r.body 24)).map (fun i => u32 b (4 * i)), k < m.vocab) →
    exec (.svcSubmit seq) s =
      .next (s.submit seq p m x r.body ((List.range (u32 r.body 24)).map fun i => u32 b (4 * i)))) ∧
  (∀ (s : State) (seq : Nat) (r : Request) (p : Pitch) (m : Model) (x : Session), RunsFor s seq 0x0306 r p →
    restZero r.body 4 = true →
    p.models.findSome? (fun m => (m.session? (u32 r.body 0)).bind fun x =>
      if x.closing = some (some seq) then some m.id else none) = none →
    p.expired (u32 r.body 0) = false → p.session? (u32 r.body 0) = some (m, x) → x.pastDue r.acceptedAt = false →
    (x.st = .paused → exec (.svcSessionClose seq) s =
      .next ((s.closePaused p.tag m.id (u32 r.body 0) endClosed 0).respond seq stOk (le 4 x.committed))) ∧
    (x.st ≠ .paused → x.pause = none →
      exec (.svcSessionClose seq) s = .next (s.startClosing p.tag m.id (u32 r.body 0) (some seq)))) ∧
  (∀ (s : State) (seq a : Nat) (r : Request) (p : Pitch) (m : Model) (x : Session), RunsFor s seq 0x0304 r p →
    restZero r.body 8 = true → p.expired (u32 r.body 0) = false → p.session? (u32 r.body 0) = some (m, x) →
    x.pause = none → draining p m x = false → 1000 ≤ u32 r.body 4 → u32 r.body 4 ≤ 604800000 →
    m.pauseSpace (roundUp (pauseBytes p m x) pauseUnit) = some a →
    exec (.svcSessionPause seq) s = .next (s.startPause p m x false (u32 r.body 4) a (some seq))) ∧
  (∀ (s t : State) (tag model session : Nat) (p : Pitch) (m : Model) (x : Session) (q q' : Pause) (a c : Bytes),
    s.pitch? tag = some p → s.model? tag model = some m → s.session? tag model session = some x → x.pause = some q →
    q.written = false → x.inStep = none → q' = { q with prior := x.st, nbytes := pauseBytes p m x } →
    pauseRecord s p m x q' x.openBytes x.table = .ok a → shadowRecord s p m x q' = .ok c →
    t = ((s.tryWrite tag q.addr (a ++ c)).draw).updPitch tag (fun p' =>
      (p'.updModel model fun m' =>
        ((m'.dropPending session).releaseBlocks x.table).updSession session fun x' =>
          { x' with
            st := .paused, table := [], shadowTable := []
            pause := some { q' with
              digest := sha384 (a ++ c), blocks := x.table.filterMap m.block?
              shadow := x.shadowTable.filterMap fun b => (p.model? m.draftModel).bind fun d => d.block? b
              written := true }
            shadowKv := min x'.shadowKv x'.committed, drafts := []
            req := x'.req.map fun r => { r with reserved := 0, shadowReserved := 0 } }).releaseShadow m x.shadowTable) →
    (q.request = none → exec (.pauseRecordWritten tag model session) s = .next t) ∧
    (∀ seq, q.request = some seq → exec (.pauseRecordWritten tag model session) s =
      .next (t.respond seq stOk (le 8 (pauseBytes p m x) ++ le 8 q.deadline)))) ∧
  (∀ (s : State) (seq : Nat) (r : Request) (p : Pitch) (m : Model) (x : Session) (q : Pause) (rec : Bytes),
    RunsFor s seq 0x0305 r p → restZero r.body 4 = true → p.expired (u32 r.body 0) = false →
    p.session? (u32 r.body 0) = some (m, x) → x.pause = some q → q.written = true → q.byBooth = false →
    s.mayEvaluate p m.id r = true → r.acceptedAt < q.deadline → resumeCheck s p m x q r.acceptedAt = .inr rec →
    exec (.svcSessionResume seq) s = .next ((s.resumeSession p m x q rec).respond seq stOk (le 4 x.committed ++
      le 1 (priorCode q.prior) ++ le 3 0 ++ le 4 0))) ∧
  (∀ (s : State) (tag model session : Nat) (p : Pitch) (x : Session) (q : Pause), s.pitch? tag = some p →
    p.st = .active → s.session? tag model session = some x → x.pause = some q → q.written = true → q.deadline ≤ s.now →
    s.wanted p x = false →
    exec (.sessionExpire tag model session) s = .next (s.expireSession tag model session))

/-- SVC_BOOTH_CONFIG, BOOTH_MODE_CHANGE and BOOTH_RESUME_PASS (R221 to R224): a read answers the booth's status; an accepted
configuration replaces the booth's and answers the status; the mode follows the causes in force; outside RESTRICTED the booth goes
through its own paused sessions until a refusal. -/
def Obligations.CompletesBooth : Prop :=
  (∀ (s : State) (seq : Nat) (r : Request) (p : Pitch) (m : Model), RunsFor s seq 0x0307 r p →
    p.model? (u32 r.body 0) = some m → bit (u32 r.body 4) 0 = true → boothFieldsOk m.booth r.body = true →
    exec (.svcBoothConfig seq) s = .next (s.respond seq stOk (boothStatus p m))) ∧
  (∀ (s : State) (seq : Nat) (r : Request) (p : Pitch) (m m' : Model), RunsFor s seq 0x0307 r p →
    p.model? (u32 r.body 0) = some m → bit (u32 r.body 4) 0 = false → boothFieldsOk m.booth r.body = true →
    m' = { m with booth := m.booth.configured r.body } →
    pauseAreaOk p m'.booth.pauseRegion m'.booth.pauseBase m'.booth.pauseBytes = true → m.pauseUsed = [] →
    exec (.svcBoothConfig seq) s =
      .next ((s.updModel p.tag m.id fun _ => m').respond seq stOk (boothStatus (p.updModel m.id fun _ => m') m'))) ∧
  (∀ (s : State) (tag model : Nat) (p : Pitch) (m : Model), s.pitch? tag = some p → s.model? tag model = some m →
    exec (.boothModeChange tag model) s = .next (s.updModel tag model fun x =>
      { x with booth := m.booth.changeMode (lastingCause s p m) })) ∧
  (∀ (s : State) (tag model : Nat) (p : Pitch) (m : Model), s.pitch? tag = some p → s.model? tag model = some m →
    p.st = .active → m.booth.mode ≠ 2 →
    exec (.boothResumePass tag model) s =
      .next (((m.boothPaused.map fun a => a.1.id).foldl (boothResumeOne tag model) (s, false)).1))

/-- TOKEN_STEP_FORM, TOKEN_STEP_COMMIT, TOKEN_STEP_FAIL and HASHED_BLOCK_UNCORRECTABLE (R189, R197, R198, R209, R210, R222): at a
step boundary with room in the pipeline the joiners' parts start a new step, which submits its program; a draft model first steps for
the sessions that it drafts for; a step whose gates are open and
whose items have all completed commits its parts, a draft step its drafts, is measured and leaves the pipeline; a step with a failed item is started once more
with the sessions that still ask for it, and one that failed once more ends its sessions' requests FAILED; a lost shared block leaves the
prefix index, and the sessions that hold it recompute or end. The samples are operands of the
row, held to the records that the step's SAMPLE items have written, and the queue of the program's items is the model's, choices of log
entry 12. -/
def Obligations.CompletesTokenSteps : Prop :=
  (∀ (s t : State) (tag model : Nat) (p : Pitch) (m : Model) (f : Forming), t = s.boundary tag model →
    t.pitch? tag = some p → t.model? tag model = some m → p.st = .active → t.orchestrates m.core = true →
    m.steps.length < m.depth → t.formDrafts tag p m = none → f = t.formSessions tag p m → f.parts ≠ [] →
    exec (.tokenStepForm tag model) s = .next (f.s.startStep tag model t.now f.parts false none)) ∧
  (∀ (s t : State) (tag model target : Nat) (p : Pitch) (m : Model) (f : Forming), t = s.boundary tag model →
    t.pitch? tag = some p → t.model? tag model = some m → p.st = .active → t.orchestrates m.core = true →
    m.steps.length < m.depth → t.formDrafts tag p m = some (target, f) →
    exec (.tokenStepForm tag model) s = .next (f.s.startStep tag model t.now f.parts false (some target))) ∧
  (∀ (s w v u : State) (tag model step latencyNs : Nat) (results : List StepResult) (p : Pitch) (m own : Model) (t : TokStep),
    s.pitch? tag = some p → s.model? tag model = some m → m.steps.find? (fun t => t.id = step) = some t →
    own = p.stepOwner m t.drafting → latencyNs = t.latencyNs s.now → resultsOk p m own t results = true →
    gatesOpen p m t = true → stepDone p m t = true →
    w = s.updPitch tag (fun p => p.useEndings (gulperQueue model) (t.seqs.map (·.2))) →
    (t.drafting = none ∧ v = t.parts.foldl (commitPart tag model t.epoch results) w) ∨
      (∃ target, t.drafting = some target ∧ v = t.parts.foldl (commitDraft tag model target t.epoch results) w) →
    u = v.updModel tag model (fun m' => m'.afterCommit t (decodeTokens m m' t) latencyNs (lastingCause v p m)) →
    exec (.tokenStepCommit tag model step latencyNs results) s =
      .next (((t.parts.map (·.session)).foldl (fun s sid => s.afterStep tag own.id sid) u).boothPause tag model)) ∧
  (∀ (s u : State) (tag model step status : Nat) (p : Pitch) (m own : Model) (t : TokStep), s.pitch? tag = some p →
    s.model? tag model = some m → m.steps.find? (fun t => t.id = step) = some t →
    p.firstFailure (gulperQueue model) (t.seqs.map (·.2)) = some status → own = p.stepOwner m t.drafting → t.again = true →
    u = ((s.updPitch tag fun p => p.useEndings (gulperQueue model) (t.seqs.map (·.2))).updModel tag own.id fun m =>
      (t.parts.map (·.session)).foldl (fun m sid =>
        (if t.drafting.isSome then m else m.dropPending sid).updSession sid fun x => { x with inStep := none }) m).updModel tag
          model (fun m => { m with steps := m.steps.filter fun u => u.id != t.id }) →
    exec (.tokenStepFail tag model step) s = .next ((t.parts.map (·.session)).foldl (fun s sid =>
      (s.failRequest tag own.id sid endFailed status).afterStep tag own.id sid) u)) ∧
  (∀ (s u v : State) (tag model step status : Nat) (p : Pitch) (m own : Model) (t : TokStep) (parts : List StepPart),
    s.pitch? tag = some p → s.model? tag model = some m → m.steps.find? (fun t => t.id = step) = some t →
    p.firstFailure (gulperQueue model) (t.seqs.map (·.2)) = some status → own = p.stepOwner m t.drafting → t.again = false →
    parts = t.parts.filter (again? own) → parts ≠ [] →
    u = ((s.updPitch tag fun p => p.useEndings (gulperQueue model) (t.seqs.map (·.2))).updModel tag own.id fun m =>
      (t.parts.map (·.session)).foldl (fun m sid =>
        (if t.drafting.isSome then m else m.dropPending sid).updSession sid fun x => { x with inStep := none }) m).updModel tag
          model (fun m => { m with steps := m.steps.filter fun u => u.id != t.id }) →
    v = (u.updModel tag own.id fun m' => parts.foldl (fun m' q =>
      (if t.drafting.isSome then m' else m'.markPending p q.session q.last).updSession q.session fun x =>
        { x with inStep := some (if t.drafting.isSome then draftStep m.nextStep else m.nextStep) }) m').updModel tag model
          (fun m => { m with booth := { m.booth with causes := [3] } }) →
    exec (.tokenStepFail tag model step) s =
      .next (((t.parts.map (·.session)).filter fun sid => !(parts.any fun q => q.session = sid)).foldl
        (fun s sid => s.afterStep tag own.id sid) (v.startStep tag model v.now parts true t.drafting))) ∧
  (∀ (s : State) (tag model block : Nat) (m : Model) (b : Block) (holders : List Nat), s.model? tag model = some m →
    m.block? block = some b → b.state = bsHashed ∨ b.state = bsCached →
    holders = (m.sessions.filter fun x => x.table.contains block).map (·.id) →
    exec (.hashedBlockUncorrectable tag model block) s = .next (holders.foldl (fun s sid => s.loseSession tag model sid)
      (s.updModel tag model fun m =>
        if holders = [] then { m with blocks := m.blocks.filter fun c => c.id != block }
        else m.updBlock block fun c => { c with state := bsOwned, hash := [], parent := [], tokens := [] })))

/-! ### Completion: training and the Crusher -/

/-- TRN_RUN_CONFIG, TRN_UPDATE_RULE_SET, TRN_SCHEDULE_SET and TRN_STEP_MULTIPLIER (R244, R245, R263, R270, R284): a delete of an idle
run removes it and a correct configuration adds it; an accepted rule is set on its layer, whose state is kept or initialised; an
accepted schedule and the next step's multiplier are recorded. TRN_CHECKPOINT with its four operations (R254, R255, R258): CONFIGURE
with a readable table and legal areas replaces the configuration, with the slots that the areas' headers give; NOW selects the first step
from the one in progress on that no block is past; QUERY answers the configuration; RESTORE loads every layer from the newest complete
slot and restarts the run at the step after it. -/
def Obligations.CompletesTrainingCommands : Prop :=
  (∀ (s : State) (seq : Nat) (q : Request) (p : Pitch) (r : Run), RunsFor s seq 0x0401 q p → u16 q.body 4 = 1 →
    restZero q.body 6 = true → p.run? (u32 q.body 0) = some r → r.inProgress p = false →
    (∀ x ∈ p.plans, ¬ (x.run = r.id ∧ (x.state = 1 ∨ x.state = 2))) →
    exec (.trnRunConfig seq) s = .next ((s.updPitch p.tag fun p =>
      { p with runs := p.runs.filter fun x => x.id != r.id }).respond seq stOk (le 4 r.id ++ le 4 r.blocks.length))) ∧
  (∀ (s : State) (seq : Nat) (q : Request) (p : Pitch) (r : Run), RunsFor s seq 0x0401 q p → bit (u16 q.body 4) 0 = false →
    checkRun s p q.body = .ok r →
    exec (.trnRunConfig seq) s = .next ((s.updPitch p.tag fun p => { p with runs := p.runs ++ [r] }).respond seq stOk
      (le 4 r.id ++ le 4 r.blocks.length))) ∧
  (∀ (s : State) (seq : Nat) (q : Request) (p : Pitch) (r : Run) (l : Layer) (u : Rule), RunsFor s seq 0x0402 q p →
    p.run? (u32 q.body 0) = some r → r.layer? (u32 q.body 4) = some l → r.inProgress p = false →
    ruleFieldsOk q.body = true → bit (u8 q.body 9) 1 = true → keepState s p l q.body = .ok u →
    exec (.trnUpdateRuleSet seq) s = .next ((s.updRun p.tag r.id fun x =>
      x.updLayer l.tag fun l => { l with rule := some u }).respond seq stOk (le 8 (l.need (u8 q.body 8))))) ∧
  (∀ (s : State) (seq : Nat) (q : Request) (p : Pitch) (r : Run) (l : Layer) (u : Rule) (ws : List (List (List W32))),
    RunsFor s seq 0x0402 q p → p.run? (u32 q.body 0) = some r → r.layer? (u32 q.body 4) = some l → r.inProgress p = false →
    ruleFieldsOk q.body = true → bit (u8 q.body 9) 1 = false → freshRule s p l q.body = .ok (u, ws) →
    exec (.trnUpdateRuleSet seq) s =
      .next ((s.initLayer p r.id l u r.step ws).respond seq stOk (le 8 (l.need (u8 q.body 8))))) ∧
  (∀ (s : State) (seq : Nat) (q : Request) (p : Pitch) (r : Run), RunsFor s seq 0x0403 q p →
    p.run? (u32 q.body 0) = some r → scheduleOk q.body = true → r.reached (parseSchedule q.body).fromStep = false →
    (if u8 q.body 4 = 1 then r.wd else r.lr) ≠ [] ∨ (parseSchedule q.body).fromStep = r.startStep →
    exec (.trnScheduleSet seq) s = .next ((s.updRun p.tag r.id fun r =>
      r.addSchedule (u8 q.body 4 = 1) (parseSchedule q.body)).respond seq stOk [])) ∧
  (∀ (s : State) (seq : Nat) (q : Request) (p : Pitch) (r : Run) (m : W32), RunsFor s seq 0x0405 q p →
    p.run? (u32 q.body 0) = some r → m = BitVec.ofNat 32 (u32 q.body 4) → f32NonNeg m = true → restZero q.body 16 = true →
    u64 q.body 8 = r.nextMult →
    exec (.trnStepMultiplier seq) s = .next ((s.updRun p.tag r.id fun x =>
      { x with mults := x.mults ++ [(r.nextMult, if f32IsZero m then 0 else m)] }).respond seq stOk [])) ∧
  (∀ (s : State) (seq : Nat) (q : Request) (p : Pitch) (r : Run) (t : Bytes) (c : Ckpt), RunsFor s seq 0x0404 q p →
    u8 q.body 4 = 0 → p.run? (u32 q.body 0) = some r → u8 q.body 5 ≤ 1 → restZero q.body 28 = true →
    dramTable s p (u64 q.body 8) (8 * p.dieCount) = .ok t →
    (r.owners p).any (fun d => u64 q.body 16 < r.stateBytes d + 64 + 112 * r.layers.length) = false →
    (r.owners p).findSome? (fun d => ckptAreaFail s p (u8 q.body 5 = 1) d ((u64s t p.dieCount).getD d 0)
      (2 * u64 q.body 16)) = none →
    c = { spoil := u8 q.body 5 = 1, every := u16 q.body 6, areas := u64s t p.dieCount, slotBytes := u64 q.body 16
          timeoutMs := if u32 q.body 24 = 0 then 1000 else u32 q.body 24, since := r.nextCkpt } →
    exec (.trnCheckpointConfigure seq) s = .next ((s.updRun p.tag r.id fun r' =>
      { r' with ckpt := some (c.loaded s p r) }).ckptAnswer seq p.tag r.id)) ∧
  (∀ (s : State) (seq : Nat) (q : Request) (p : Pitch) (r : Run), RunsFor s seq 0x0404 q p → u8 q.body 4 = 1 →
    p.run? (u32 q.body 0) = some r → ckptRestOk q.body = true → r.ckpt ≠ none →
    exec (.trnCheckpointNow seq) s = .next ((s.updRun p.tag r.id fun x =>
      { x with ckpt := x.ckpt.map fun c => { c with nowStep := some x.nextCkpt } }).ckptAnswer seq p.tag r.id)) ∧
  (∀ (s : State) (seq : Nat) (q : Request) (p : Pitch) (r : Run), RunsFor s seq 0x0404 q p → u8 q.body 4 = 3 →
    p.run? (u32 q.body 0) = some r → ckptRestOk q.body = true →
    exec (.trnCheckpointQuery seq) s = .next (s.ckptAnswer seq p.tag r.id)) ∧
  (∀ (s : State) (seq n : Nat) (q : Request) (p : Pitch) (r : Run) (c : Ckpt) (ls : List (Nat × Layer × Bytes)),
    RunsFor s seq 0x0404 q p → u8 q.body 4 = 2 → p.run? (u32 q.body 0) = some r → ckptRestOk q.body = true →
    r.inProgress p = false → r.ckpt = some c → c.newest = some n → restoreAll s p r c n = .ok ls →
    exec (.trnCheckpointRestore seq) s =
      .next ((((ls.foldl (fun s x => s.loadLayer p.tag r.id (c.slotStep.getD n 0) x) s).dropCkpt p.tag r.id).updRun p.tag r.id
        fun r => r.restartAt (c.slotStep.getD n 0 + 1)).ckptAnswer seq p.tag r.id))

/-- CRUSHER_DELIVERY, BLOCK_UPDATE, LAGGED_MULT_WAIT_END and BLOCK_MISSED (R263, R268, R277, R279): a reduced region of a step that the
block accepts goes into its buffer; a complete block whose multiplier is written and whose round allows it is updated in its turn (R283);
a block whose delivery was aborted ends its step as Missed with its weights kept. -/
def Obligations.CompletesBlocks : Prop :=
  (∀ (s : State) (tag ident : Nat) (p : Pitch) (c : Coll) (x : Run) (l : Layer) (b : CBlock) (r : BlockRef),
    s.pitch? tag = some p → s.coll? tag ident = some c → r = parseBlockRef c.dest → p.run? r.run = some x →
    x.layer? r.layerTag = some l → x.block? r.layerTag r.block = some b → bits c.control 2 2 = 2 → c.full = true →
    c.contributors.all (·.rounded) = true → b.step ≤ r.step → r.step < b.step + 4 →
    x.aborts.contains (r.layerTag, r.block, r.step) = false → b.grad? r.step = none →
    p.buffersUsed (l.owner r.block) < 64 → x.normRoom (l.owner r.block) r.step = true →
    exec (.crusherDelivery tag ident) s = .next (s.acceptDelivery tag c r l)) ∧
  (∀ (s : State) (tag run layer block : Nat) (p : Pitch) (r : Run) (l : Layer) (u : Rule) (c : CBlock) (m : W32),
    OnBlock s tag run layer block p r l u c → c.st = .complete → r.aborts.contains (layer, block, c.step) = false →
    r.mult? c.step = some m → updatable s p r l u c = true → inLine s p (l.owner c.block) c = true →
    exec (.blockUpdate tag run layer block) s = .next (s.applyBlock tag run l u c m none)) ∧
  (∀ (s : State) (tag run layer block : Nat) (p : Pitch) (r : Run) (l : Layer) (u : Rule) (c : CBlock) (m : W32),
    OnBlock s tag run layer block p r l u c → c.st = .complete → r.aborts.contains (layer, block, c.step) = false →
    r.mult? c.step = some m → updatable s p r l u c = true → inLine s p (l.owner c.block) c = true → r.held = false →
    c.step ≠ r.startStep →
    exec (.laggedMultWaitEnd tag run layer block) s = .next (s.applyBlock tag run l u c m none)) ∧
  (∀ (s : State) (tag run layer block : Nat) (p : Pitch) (r : Run) (l : Layer) (u : Rule) (c : CBlock),
    OnBlock s tag run layer block p r l u c → r.aborts.contains (layer, block, c.step) = true →
    updatable s p r l u c = true →
    exec (.blockMissed tag run layer block) s =
      .next (((((s.kronSwap tag r u (l.stateAddr u block) c.step).kronSnap tag r l u block (l.stateAddr u block) c.step).emit
        tag r l u c).updRun tag run fun r =>
          { r with missed := r.missed ++ [(c.step, layer, block)]
                   aborts := r.aborts.filter fun a => a != (layer, block, c.step) }).nextStep tag run l block))

/-- HELD_BLOCK_STAGE, HELD_BLOCKS_APPLY, NORM_PARTIAL_SEND and RUN_STEP_COMMIT (R260 to R264): a complete block of a HELD run whose
multiplier is not written goes to the hold area; a die's held blocks are applied in arrival order, up to one that must wait; its oldest partial goes to the root
once all its blocks have ended the step; a step that every layer has ended writes its norm record, advances NORM_SIG and moves the run
on. -/
def Obligations.CompletesRunSteps : Prop :=
  (∀ (s : State) (tag run layer block : Nat) (p : Pitch) (r : Run) (l : Layer) (u : Rule) (c : CBlock) (g : Gradient),
    OnBlock s tag run layer block p r l u c → c.grad? c.step = some g → r.held = true → c.st = .complete →
    r.aborts.contains (layer, block, c.step) = false → r.mult? c.step = none →
    (r.owned (l.owner block)).all (fun x => x.st != .held || x.step = c.step) = true →
    exec (.heldBlockStage tag run layer block) s =
      .next (((((gradRows s p l block g none).map fun row => row.map (·.getD f32Nan)).zipIdx.foldl
        (fun s x => s.tryWrite tag (r.holdAddr c + 1024 * x.2) (f32Row x.1)) s)).updRun tag run fun r =>
          (r.updBlock layer block fun c => { c with st := .held }).addNorm (l.owner block) c)) ∧
  (∀ (s : State) (tag run ldie : Nat) (r : Run), s.run? tag run = some r →
    exec (.heldBlocksApply tag run ldie) s = .next ((sortBy (fun a b => a.order ≤ b.order)
      ((r.owned ldie).filter fun c => c.st = .held)).foldl (applyHeld tag run) (s, false)).1) ∧
  (∀ (s : State) (tag run ldie : Nat) (r : Run) (n : NormPart), s.run? tag run = some r →
    (sortBy (fun a b => a.step ≤ b.step) (r.norms.filter fun n => n.ldie = ldie && !n.sent)).head? = some n →
    (r.owned ldie).all (fun c => c.ended n.step) = true →
    exec (.normPartialSend tag run ldie) s = .next (s.updRun tag run fun r =>
      { r with norms := r.norms.map fun x => if x.ldie = ldie && x.step = n.step then { x with sent := true } else x })) ∧
  (∀ (s t : State) (tag run : Nat) (r : Run), s.run? tag run = some r → r.blocks.all (fun c => c.ended r.step) = true →
    r.norms.any (fun n => n.step = r.step && !n.sent) = false →
    t = (s.tryWrite tag (r.normAddr + 128 * (r.step % 16)) (normRecord r.step (r.normOf r.step)
      (r.missed.filter fun m => m.1 = r.step).length)).bumpCounter tag r.normSig →
    exec (.runStepCommit tag run) s = .next ((if r.held then t else t.ckptDue tag run r.step).updPitch tag fun p =>
      { p.updRun run fun x => x.commitStep r.step with
        plans := p.plans.map fun x => if x.run = run then x.consumeBatch r.step else x }))

/-- KRON_REFRESH_DONE and EMISSION_SEND (R281, R282, R287, R288): the refresh at the head of its die's order replaces the block's snapshot
pair by its inverse roots and marks it READY; the strips of a block that their holders accept leave the emission buffer for them, and the
others stay. CHECKPOINT_LAYER_SEND, CHECKPOINT_SLOT_COMPLETE and CHECKPOINT_TIMEOUT (R255 to R257): once the layer has committed the
step that is being written, a die that owns blocks and has not sent the layer sends its part; a slot of which every owning die has
written every layer is COMPLETE on every die; a slot of which a die that has layers left made no progress for TIMEOUT_MS is FAILED on
every die, with an event. -/
def Obligations.CompletesEmission : Prop :=
  (∀ (s : State) (tag run layer block h k : Nat) (p : Pitch) (r : Run) (l : Layer) (u : Rule) (c : CBlock),
    OnBlock s tag run layer block p r l u c → (refreshOrder s p (l.owner block)).head? = some (run, layer, block) →
    h = l.stateAddr u block → k = 4 + 2 * (1 - (kronHeader s p h).2) →
    exec (.kronRefreshDone tag run layer block) s =
      .next ((((s.writeArray tag h k (inverseRoot u.pRoot u.eps u.iters (l.blockRows block)
        (readArrayAt s p h k (l.blockRows block) (l.blockRows block)))).writeArray tag h (k + 1)
        (inverseRoot u.pRoot u.eps u.iters (l.blockCols block)
          (readArrayAt s p h (k + 1) (l.blockCols block) (l.blockCols block)))).setKronHeader tag h 2
        (kronHeader s p h).2).draw)) ∧
  (∀ (s : State) (tag run layer block : Nat) (p : Pitch) (r : Run) (l : Layer) (u : Rule) (c : CBlock) (x : Plan)
    (go : Nat → EmitStrip → Bool), OnBlock s tag run layer block p r l u c →
    p.plans.find? (fun x => x.run = run && x.layerMap.any fun e => e.1 = layer) = some x →
    go = (fun t e => accepts p x layer t e.piece) → c.sendable go ≠ [] →
    exec (.emissionSend tag run layer block) s =
      .next ((((c.sendable go).foldl (fun s e => s.emitStrip tag r x layer e) s).updRun tag run fun r =>
        r.updBlock layer block fun b => b.sent go).copyLate tag run)) ∧
  (∀ (s v : State) (tag run ldie layer slot t : Nat) (p : Pitch) (r : Run) (c : Ckpt) (l : Layer) (u : Rule),
    v = s.layerDue tag run layer → v.pitch? tag = some p → p.run? run = some r → r.ckpt = some c → r.layer? layer = some l →
    l.rule = some u → c.writing = some (slot, t) → r.layerAt layer t = true → (r.owners p).contains ldie = true →
    c.written.contains (ldie, layer) = false →
    exec (.checkpointLayerSend tag run ldie layer) s = .next (v.sendLayer tag p r l u ldie c slot t)) ∧
  (∀ (s : State) (tag run slot t : Nat) (p : Pitch) (r : Run) (c : Ckpt), s.pitch? tag = some p → p.run? run = some r →
    r.ckpt = some c → c.writing = some (slot, t) →
    (∀ d ∈ r.owners p, ∀ l ∈ r.layers, c.written.contains (d, l.tag) = true) →
    exec (.checkpointSlotComplete tag run) s = .next ((s.writeSlots tag r c slot t 2).updRun tag r.id fun r =>
      { r with ckpt := some { c with
          passed := c.passed ++ [t], nowStep := if c.nowStep = some t then none else c.nowStep
          slotSt := c.slotSt.set slot 2, writing := none } })) ∧
  (∀ (s : State) (tag run slot t d : Nat) (p : Pitch) (r : Run) (c : Ckpt) (l : Layer), s.pitch? tag = some p →
    p.run? run = some r → r.ckpt = some c → c.writing = some (slot, t) → d ∈ r.owners p → l ∈ r.layers →
    r.layerAt l.tag t = true → c.written.contains (d, l.tag) = false → due (lookupD c.progress d 0) (c.timeoutMs * 25000) s.now = true →
    exec (.checkpointTimeout tag run) s = .next (((s.writeSlots tag r c slot t 3).updRun tag r.id fun r =>
      { r with ckpt := some { c with
          passed := c.passed ++ [t], nowStep := if c.nowStep = some t then none else c.nowStep
          slotSt := c.slotSt.set slot 3, writing := none } }).logNote 8 "CHECKPOINT_FAILED" none noDie tag t))

/-! ### Completion: the RL cycle -/

/-- TURN_PLAN and TURN_STATUS (R290, R294): a delete of a plan that does not run removes it and a correct plan is added, each with the
instance's epoch in the answer; a status request is answered. TURN_START with START, STOP and CONTINUE (R293, R294): a plan that does
not run starts at the phase named; a running plan stops once its phases have ended; CONTINUE ends the running EVAL phase. -/
def Obligations.CompletesPlans : Prop :=
  (∀ (s : State) (seq : Nat) (q : Request) (p : Pitch) (x : Plan), RunsFor s seq 0x0501 q p → bit (u32 q.body 8) 0 = true →
    u32 q.body 8 < 8 → zeroRange q.body 120 8 = true → restZero q.body 128 = true →
    p.plan? (u32 q.body 0) = some x → x.state ≠ 1 → x.state ≠ 2 →
    exec (.turnPlan seq) s = .next ((s.updPitch p.tag fun p =>
      ({ p.updModel x.model Model.dropRollouts with plans := p.plans.filter fun y => y.run != x.run }).dropOwned
        (orchestratorQueue x.run)).respond seq stOk
      (le 4 ((p.model? x.model).elim 0 (·.epoch))))) ∧
  (∀ (s : State) (seq : Nat) (q : Request) (p : Pitch) (r : Run) (m : Model) (x : Plan), RunsFor s seq 0x0501 q p →
    bit (u32 q.body 8) 0 = false → p.run? (u32 q.body 0) = some r → p.model? (u32 q.body 4) = some m →
    checkPlan s p r m q.body = .ok x →
    exec (.turnPlan seq) s =
      .next ((s.updPitch p.tag fun p =>
        ({ p with plans := p.plans ++ [{ x with core := s.pickCore }] }).withOwned (orchestratorQueue x.run) 0).respond seq stOk (le 4 m.epoch))) ∧
  (∀ (s : State) (seq : Nat) (q : Request) (p : Pitch), RunsFor s seq 0x0503 q p → restZero q.body 4 = true →
    exec (.turnStatus seq) s = .next (s.planAnswer seq p.tag (u32 q.body 0))) ∧
  (∀ (s : State) (seq : Nat) (q : Request) (p : Pitch) (x : Plan), RunsFor s seq 0x0502 q p → u8 q.body 4 = 0 →
    p.plan? (u32 q.body 0) = some x → turnStartOk q.body = true → x.state ≠ 1 → x.state ≠ 2 →
    u16 q.body 6 < x.phases.length →
    exec (.turnStartStart seq) s = .next ((s.updPlan p.tag x.run fun x =>
      { x with state := 1, stopStatus := 0, nextPhase := some (u16 q.body 6), prevPhase := none }).planAnswer seq p.tag x.run)) ∧
  (∀ (s : State) (seq : Nat) (q : Request) (p : Pitch) (x : Plan), RunsFor s seq 0x0502 q p → u8 q.body 4 = 1 →
    p.plan? (u32 q.body 0) = some x → turnStartOk q.body = true → x.state = 1 →
    exec (.turnStartStop seq) s = .next ((s.updPlan p.tag x.run fun x =>
      Plan.settle { x with state := 2, nextPhase := none }).planAnswer seq p.tag x.run)) ∧
  (∀ (s : State) (seq : Nat) (q : Request) (p : Pitch) (x : Plan) (f : RunPhase), RunsFor s seq 0x0502 q p →
    u8 q.body 4 = 2 → p.plan? (u32 q.body 0) = some x → turnStartOk q.body = true → x.runningKind 3 = some f →
    exec (.turnStartContinue seq) s =
      .next ((s.updPlan p.tag x.run fun x => x.endPhase f).planAnswer seq p.tag x.run))

/-- TURN_REWARD_POST, REWARD_PROGRAM_RUN, LEARN_PROGRAM_RUN and ROLLOUT_END (R295 to R298): a posted reward is recorded once on its
rollout; the reward program is instantiated for a batch as soon as all its rollouts are ended and, once its items have completed, records
the batch's rewards or has failed; the learning program is instantiated for a batch whose entries are all rewarded, once the step before it has committed; an ended rollout's data are written before
its entry is ENDED. The queue of a program's items is the model's choice of log entry 12. -/
def Obligations.CompletesRollouts : Prop :=
  (∀ (s : State) (seq : Nat) (q : Request) (p : Pitch) (x : Plan) (r : Rollout) (v : W32), RunsFor s seq 0x0504 q p →
    p.plan? (u32 q.body 0) = some x → zeroRange q.body 4 4 = true → restZero q.body 20 = true →
    v = BitVec.ofNat 32 (u32 q.body 16) → f32Finite v = true → x.rewardProg = false →
    x.rollouts.find? (fun r => r.reqTag = u64 q.body 8) = some r → r.rewarded = false →
    exec (.turnRewardPost seq) s = .next (((s.setRollout p.tag x { r with reward := v, rewarded := true }).updPlan p.tag x.run
      fun x => Plan.settle { x with rewarded := x.rewarded + 1 }).respond seq stOk [])) ∧
  (∀ (s : State) (tag run : Nat) (p : Pitch) (x : Plan) (y : RewardRun) (ws : List Work), s.pitch? tag = some p →
    p.plan? run = some x → x.rewardProg = true → x.state = 1 ∨ (x.state = 2 ∧ x.stopStatus = 0) → x.rewardEnded p = none →
    x.nextReward = some y → p.st = .active → s.orchestrates x.core = true →
    ws = programWork s p x.rewardItems (x.programSource y.first 0 false) →
    exec (.rewardProgramRun tag run) s = .next (s.updPitch tag fun p =>
      (p.updQueue (orchestratorQueue run) fun q => q.submitWork ws).updPlan run fun x =>
        { x with rewardRuns := (x.rewardRuns.filter fun z => z.first != y.first) ++
            [{ y with seqs := some ((List.range ws.length).map (p.nextSeq (orchestratorQueue run) + ·)) }] })) ∧
  (∀ (x : Plan) (first : Nat), (x.rewardRuns.find? fun r => r.seqs.isNone) = none →
    ((x.rollouts.map (·.admitSeq)).filter (· % x.perStep = 0)).find? x.rewardable = some first →
    x.nextReward = some ⟨first, none, none⟩ ∧ (x.batch first).length = x.perStep ∧ (x.batch first).all (·.ended) = true) ∧
  (∀ (s : State) (tag run : Nat) (p : Pitch) (x : Plan) (y : RewardRun) (seqs : List Nat), s.pitch? tag = some p →
    p.plan? run = some x → x.rewardProg = true → x.state = 1 ∨ (x.state = 2 ∧ x.stopStatus = 0) →
    x.rewardEnded p = some (y, seqs) →
    exec (.rewardProgramRun tag run) s = .next (match p.firstFailure (orchestratorQueue run) seqs with
      | none => (s.updPitch tag fun p => p.useEndings (orchestratorQueue run) seqs).recordRewards tag p x y.first
      | some e => (s.updPitch tag fun p => p.useEndings (orchestratorQueue run) seqs).updPlan tag run
          fun x => x.rewardFailed y e)) ∧
  (∀ (s : State) (tag run : Nat) (p : Pitch) (x : Plan) (r : Run) (f : RunPhase) (ws : List Work), s.pitch? tag = some p →
    p.plan? run = some x → p.run? run = some r → x.runningKind 1 = some f → p.st = .active → s.orchestrates x.core = true →
    f.mark < (x.phases[f.index]?).elim 0 (·.count) → x.learning = none → (x.rollouts.take x.perStep).length = x.perStep →
    (x.rollouts.take x.perStep).all (·.rewarded) = true → x.runningKind 3 = none →
    ws = programWork s p x.learnItems
      (x.programSource (((x.rollouts.take x.perStep).head?).elim 0 (·.admitSeq)) r.step true) →
    exec (.learnProgramRun tag run) s = .next (s.updPitch tag fun p =>
      (p.updQueue (orchestratorQueue run) fun q => q.submitWork ws).updPlan run fun x =>
        { x with learning := some r.step, running := x.running.map fun g => if g.index = f.index then { g with mark := g.mark + 1 } else g })) ∧
  (∀ (s : State) (tag run admitSeq : Nat) (p : Pitch) (x : Plan) (r : Rollout), s.pitch? tag = some p →
    p.plan? run = some x → x.rollouts.find? (fun r => r.admitSeq = admitSeq) = some r → r.closing = true → r.ended = false →
    exec (.rolloutEnd tag run admitSeq) s = .next (((s.tryWrite tag r.dataAddr (rolloutData r)).setRollout tag x
      { r with ended := true, closing := false }).updPlan tag run Plan.settle))

/-- PHASE_START, TURNOVER_OPEN, TURNOVER_ARMED and DRAIN_END (R291, R299, R300): the next phase of a RUNNING plan that may start does,
and PHASE_SIG advances; the TURNOVER that follows a LEARN starts with it, the LEARN's last step as its source step; a turnover that is due opens with ARMING, then DRAIN begins, and ends once nothing pinned drains or DRAIN_MS has
passed. -/
def Obligations.CompletesTurnoverStart : Prop :=
  (∀ (s : State) (tag run i : Nat) (p : Pitch) (x : Plan) (r : Run) (e : PlanPhase), s.pitch? tag = some p →
    p.plan? run = some x → p.run? run = some r → x.nextPhase = some i → x.phases[i]? = some e → x.state = 1 →
    p.st = .active → s.orchestrates x.core = true → x.mayStart p r i e = true →
    (e.kind = 0 ∨ e.kind = 3 → exec (.phaseStart tag run) s = .next ((s.updPlan tag run fun _ =>
      { x with
        running := x.running ++ [⟨i, 0, if e.kind = 0 then x.admitted else 0⟩], nextPhase := x.after i
        prevPhase := some i }).bumpCounter tag x.phaseSig)) ∧
    (e.kind = 1 → (∀ f, x.phases[i + 1]? = some f → f.kind ≠ 2) → exec (.phaseStart tag run) s =
      .next ((s.updPlan tag run fun _ =>
        { x with running := x.running ++ [⟨i, 0, 0⟩], nextPhase := x.after i, prevPhase := some i }).bumpCounter tag x.phaseSig)) ∧
    (∀ (f : PlanPhase), e.kind = 1 → x.phases[i + 1]? = some f → f.kind = 2 → x.source = none → exec (.phaseStart tag run) s =
      .next (((s.updPlan tag run fun _ =>
        { x with
          running := x.running ++ [⟨i, 0, 0⟩, ⟨i + 1, 0, 0⟩], nextPhase := x.after (i + 1), prevPhase := some (i + 1)
          source := some (r.step + x.stepsLeft + e.count - 1) }).bumpCounter tag x.phaseSig).bumpCounter tag x.phaseSig)) ∧
    (e.kind = 2 → exec (.phaseStart tag run) s =
      .next ((s.updPlan tag run fun _ => x.startPhase r i e).bumpCounter tag x.phaseSig))) ∧
  (∀ (s : State) (tag run t : Nat) (p : Pitch) (x : Plan) (r : Run) (m : Model) (f : RunPhase), OnTurnover s tag run p x r m →
    x.source = some t → x.runningKind 2 = some f → x.stage = 0 → (x.phases[f.index]?).elim false (·.landed) = false →
    r.reached t = true → x.runningKind 3 = none → m.epoch ≠ 0xFFFFFFFF →
    exec (.turnoverOpen tag run) s = .next (s.updPlan tag run fun x =>
      { x with stage := 1, openedAt := s.now, drained := false, windows := [], stalled := []
               gates := List.replicate m.layers true })) ∧
  (∀ (s : State) (tag run : Nat) (p : Pitch) (x : Plan) (r : Run) (m : Model), OnTurnover s tag run p x r m → x.stage = 1 →
    exec (.turnoverArmed tag run) s = .next (s.updPlan tag run fun x => { x with stage := 2 })) ∧
  (∀ (s : State) (tag run : Nat) (p : Pitch) (x : Plan) (r : Run) (m : Model), OnTurnover s tag run p x r m → x.stage = 2 →
    x.drainingCount p = 0 ∨ due x.openedAt (x.drainMs * 25000) s.now = true →
    exec (.drainEnd tag run) s = .next (s.updPlan tag run fun x => { x with drained := true }))

/-- SWAP_START, LAYER_WINDOW_OPEN, LAYER_GATE_OPEN, TURNOVER_DONE and WINDOW_OPEN_TIMEOUT (R300 to R303, R306): after the drain the
epoch is swapped and every gate closes; a closed gate's window opens once every step of the old epoch has passed its layer; a gate opens
once every holder of its layer has the source step's blocks, and the steps that waited for it go on; the turnover ends once all have landed and the sessions that SWAP closed are gone; a window open for 1 s is logged, once. -/
def Obligations.CompletesSwap : Prop :=
  (∀ (s t : State) (tag run : Nat) (p : Pitch) (x : Plan) (r : Run) (m : Model), OnTurnover s tag run p x r m →
    x.stage = 2 → x.drained = true →
    t = (m.sessions.map (·.id)).foldl (swapSession tag m.id m.epoch x.kvRecompute) s →
    exec (.swapStart tag run) s = .next ((t.updPitch tag fun p =>
      (p.updModel m.id Model.openSwap).updPlan run fun x =>
        { x with stage := 3, gates := List.replicate m.layers false, windows := [], outside := [] }).copyLate tag run)) ∧
  (∀ (s : State) (tag run layer : Nat) (p : Pitch) (x : Plan) (r : Run) (m : Model), OnTurnover s tag run p x r m →
    x.stage = 3 → x.gates.getD layer true = false → x.windows.any (fun w => w.1 = layer) = false →
    (∀ t ∈ m.steps, t.epoch = m.epoch ∨ passedLayer p x t layer = true) →
    exec (.layerWindowOpen tag run layer) s = .next ((s.updPlan tag run fun x =>
      { x with windows := x.windows ++ [(layer, s.now)] }).copyShadows tag x r (fun e => e.2 = layer && landed x r (· = layer)) (insideInstance p x))) ∧
  (∀ (s : State) (tag run layer : Nat) (p : Pitch) (x : Plan) (r : Run) (m : Model), OnTurnover s tag run p x r m →
    x.stage = 3 → x.windows.any (fun w => w.1 = layer) = true → landed x r (· = layer) = true →
    exec (.layerGateOpen tag run layer) s = .next ((((s.copyShadows tag x r (fun e => e.2 = layer)
      (insideInstance p x)).copyOutside tag p x r).updPlan tag run fun x =>
        { x with
          gates := x.gates.set layer true, windows := x.windows.filter fun w => w.1 != layer
          stalled := x.stalled.filter (· != layer), stage := if (x.gates.set layer true).all id then 4 else 3 }).updPitch tag
      fun p => p.submitSteps m)) ∧
  (∀ (s : State) (tag run : Nat) (p : Pitch) (x : Plan) (r : Run) (m : Model), OnTurnover s tag run p x r m → x.stage = 4 →
    m.swapClosed = true → landed x r (fun _ => true) = true →
    exec (.turnoverDone tag run) s = .next (s.updPlan tag run Plan.endTurnover)) ∧
  (∀ (s : State) (tag run layer : Nat) (p : Pitch) (x : Plan) (r : Run) (m : Model), OnTurnover s tag run p x r m →
    x.windows.any (fun w => w.1 = layer && due w.2 25000000 s.now) = true → x.stalled.contains layer = false →
    exec (.windowOpenTimeout tag run layer) s = .next ((s.updPlan tag run fun x =>
      { x with stalled := x.stalled ++ [layer] }).logNote 8 "WINDOW_OPEN" none noDie tag layer))

/-! ### Completion: mailboxes, the Ringmaster and firmware -/

/-- MSG_SEGMENT_RECEIVE, MSG_STATUS_READ and MSG_ASSEMBLY_TIMEOUT (R372): a message frame of its kind reaches the mailbox that its
address names; an assembly without a segment for 100 ms is dropped. REQUEST_SUBMIT, FENCE_RELEASE and REPLAY_ENTRY_EXPIRE (R368, R376,
R379, R380, R381): submitted requests meet the checks in the order in which they were submitted, and wait while the Ringmaster holds
them; a fence is released once every
earlier request of its mailbox has responded; a DONE entry leaves the window 10 s after its response. -/
def Obligations.CompletesRequests : Prop :=
  (∀ (s : State) (f : Frame), f.typ = 4 → (parseMsg f).kind = 1 → exec (.msgSegmentReceive f) s = .next (s.mailboxFrame f)) ∧
  (∀ (s : State) (f : Frame), f.typ = 4 → (parseMsg f).kind = 3 → exec (.msgStatusRead f) s = .next (s.mailboxFrame f)) ∧
  (∀ (s : State) (mailbox : Nat) (a : Assembly), (s.box mailbox).assembly = some a → due a.lastAt 2500000 s.now = true →
    exec (.msgAssemblyTimeout mailbox) s = .next (s.updBox mailbox fun b => { b with assembly := none })) ∧
  (∀ (s : State) (mailbox : Nat) (x : Submission) (rest : List Nat), (s.box mailbox).submitted = some x →
    s.ring.order = mailbox :: rest → s.ring.holding = false →
    exec (.requestSubmit mailbox) s = .next (((s.updBox mailbox fun b => { b with submitted := none }).setRing
      { s.ring with order := rest }).meetChecks mailbox x)) ∧
  (∀ (s : State) (mailbox : Nat), s.ring.holding = true ∨ (∃ m rest, s.ring.order = m :: rest ∧ m ≠ mailbox) →
    exec (.requestSubmit mailbox) s = .next s) ∧
  (∀ (s : State) (seq : Nat) (r : Request), s.ring.journal.find? (fun r => r.seq = seq) = some r →
    (∀ x ∈ s.ring.journal, x.mailbox = r.mailbox → seq ≤ x.seq) →
    exec (.fenceRelease seq) s = .next (s.setRing { s.ring with
      journal := s.ring.journal.map fun x => if x.seq = seq then { x with released := true } else x })) ∧
  (∀ (s : State) (mailbox requestId : Nat),
    exec (.replayEntryExpire mailbox requestId) s = .next (s.updBox mailbox fun b =>
      { b with window := b.window.filter fun e =>
          !(e.requestId = requestId && e.done.elim false fun d => due d.2 250000000 s.now) }))

/-- RINGMASTER_TAKEOVER, HEARTBEAT_TIMEOUT, SERVICE_CORE_FAULT and TAKEOVER_RESUME (R368, R369): a faulty primary is taken over from, a
faulty standby is fenced with an event, a faulty service core is out of use and its tasks go on on another (which one is the model's
choice of log entry 65), and 30 ms after a take-over the held requests are released,
the alert is raised and the fenced pair is due for its test, which starts as soon as its die can run one. -/
def Obligations.CompletesRingmaster : Prop :=
  (∀ (s : State), s.ringRuns = true → exec .ringmasterTakeover s = .next s.primaryFault) ∧
  (∀ (s : State) (pair : Nat), s.ringRuns = true → s.pairRuns pair = true →
    due (s.ring.beats.getD pair 0) 250000 s.now = true →
    exec (.heartbeatTimeout pair) s = .next (if s.ring.primary = pair then s.primaryFault
      else ((s.setRing { s.ring with standby := false, fenced := some pair }).rehome).logNote 5 "NO_STANDBY" none noDie noTag
        pair)) ∧
  (∀ (s : State) (core : Nat), core < 16 →
    exec (.serviceCoreFault core) s =
      .next (s.setRing { s.ring with deadCores := insertNat s.ring.deadCores core }).rehome) ∧
  (∀ (s t : State) (at_ f : Nat), s.ring.takeoverAt = some at_ → due at_ 750000 s.now = true →
    t = ((s.setRing { s.ring with takeoverAt := none }).releaseHeld).logNote 5 "TAKEOVER" (some 2) noDie noTag
      (s.setRing { s.ring with takeoverAt := none }).releaseHeld.ring.primary →
    t.ring.fenced = some f →
    exec .takeoverResume s = .next ((t.setRing { t.ring with testDue := true }).dueTest (pairDie f))) ∧
  (∀ (s : State) (f : Nat), s.ring.takeoverAt = none → s.ring.fenced = some f → s.ring.testDue = true →
    (s.die (pairDie f)).test = none → (s.die (pairDie f)).startable = true →
    exec .takeoverResume s =
      .next ((s.setRing { s.ring with testDue := false }).startTest 4 3 true [pairDie f] none 0))

/-- BOOT, FW_ACTIVATE, FLASH_REWRITE_DONE, STANDBY_READY_TIMEOUT and HANDOVER_BOUNDARY_TIMEOUT (R386, R387, R389): a powered module
boots; FW_ACTIVATE of a staged and verified image begins its activation, and of the running image rewrites the flash; a rewrite that
ends well leaves the flash CLEAN with that image, one that fails leaves it FAILED with an alert; a hand-over past its time is dropped.
-/
def Obligations.CompletesFirmware : Prop :=
  (∀ (s : State), s.power.phase = .up → s.kpr.mod = .booting → exec .boot s = .next s.bootNow) ∧
  (∀ (s : State) (seq : Nat) (r : Request) (i : Image), s.request? seq 0x0702 = some r → s.fw.handover = none →
    u8 r.body 48 ≤ 1 → zeroRange r.body 49 3 = true → restZero r.body 56 = true → s.recoveryActivate = none →
    s.fw.stage = 2 → s.fw.stageImage = some i →
    exec (.fwActivate seq) s = .next (s.activateStaged seq r.body i)) ∧
  (∀ (s : State) (seq : Nat) (r : Request), s.request? seq 0x0702 = some r → s.fw.handover = none → u8 r.body 48 ≤ 1 →
    zeroRange r.body 49 3 = true → restZero r.body 56 = true → s.recoveryActivate = none → s.fw.stage = 0 →
    s.fw.running.isSome = true → slice r.body 0 48 = s.fw.measurement → s.updating = false →
    exec (.fwActivate seq) s =
      .next ((s.startRewrite s.fw.runningBytes (bit (u8 r.body 48) 0)).respond seq stOk s.fw.measurement)) ∧
  (∀ (s t : State) (b : Bytes) (raise : Bool), s.fw.rewrite = some (b, raise) →
    t = s.setFw { s.fw with
      flash := b, control := List.replicate 2 (controlCopy 0 b.length (imageFields b).measurement), flashCode := 0
      rewrite := none, svnMin := if raise then max s.fw.svnMin (imageFields b).svn else s.fw.svnMin } →
    exec (.flashRewriteDone true) s =
      .next (match s.recoveryActivate with
        | none => t | some q => if t.bootNow.kpr.mod = .ready then t.bootNow.respond q stOk [] else t.bootNow)) ∧
  (∀ (s : State) (b : Bytes) (raise : Bool), s.fw.rewrite = some (b, raise) → s.recoveryActivate = none →
    exec (.flashRewriteDone false) s = .next ((s.setFw { s.fw with flashCode := 2, rewrite := none }).logNote 5 "FLASH_FAILED"
      (some 2) noDie noTag 0)) ∧
  (∀ (s : State) (h : Handover), s.fw.handover = some h → h.ready = false → due h.startedAt 50000000 s.now = true →
    exec .standbyReadyTimeout s = .next (s.dropHandover h stVerifyFailed)) ∧
  (∀ (s : State) (h : Handover), s.fw.handover = some h → h.ready = true → due h.startedAt (25000 * h.timeoutMs) s.now = true →
    exec .handoverBoundaryTimeout s = .next (s.dropHandover h stBusy))

/-- FW_STAGE with its five operations and DEV_IDENTITY (R384, R388, R391): BEGIN empties the stage to the wanted size; DATA puts its
bytes at their offset; VERIFY of a whole image marks it VERIFIED or FAILED by the image check; DISCARD empties the stage; QUERY and the
identity are answered. -/
def Obligations.CompletesFirmwareStage : Prop :=
  (∀ (s : State) (seq : Nat) (r : Request), s.request? seq 0x0701 = some r → u8 r.body 0 = 0 →
    stageFieldsOk r.body true = true → u64 r.body 8 % 8 = 0 → u64 r.body 8 ≠ 0 → u64 r.body 8 ≤ maxImage →
    s.updating = false →
    exec (.fwStageBegin seq) s = .next ((s.setFw { s.fw with
      stage := 1, stageSize := u64 r.body 8, stageData := [], stageWritten := [], stageImage := none }).stageDone seq)) ∧
  (∀ (s : State) (seq : Nat) (r : Request), s.request? seq 0x0701 = some r → u8 r.body 0 = 1 →
    zeroRange r.body 1 7 = true → zeroRange r.body 20 12 = true → u64 r.body 8 % 8 = 0 → u32 r.body 16 % 8 = 0 →
    8 ≤ u32 r.body 16 → u32 r.body 16 ≤ 4000 → s.updating = false → u64 r.body 8 + u32 r.body 16 ≤ s.fw.stageSize →
    exec (.fwStageData seq) s = .next ((s.setFw { s.fw with
      stage := 1, stageImage := none
      stageData := memWrite s.fw.stageData
        ((slice r.body 32 (u32 r.body 16)).zipIdx.map fun x => (u64 r.body 8 + x.2, x.1))
      stageWritten := (List.range (u32 r.body 16 / 8)).foldl (fun l i => insertNat l (u64 r.body 8 / 8 + i))
        s.fw.stageWritten }).stageDone seq)) ∧
  (∀ (s : State) (seq : Nat) (r : Request), s.request? seq 0x0701 = some r → u8 r.body 0 = 2 →
    stageFieldsOk r.body false = true → s.updating = false → s.fw.stageSize ≠ 0 →
    s.fw.stageSize ≤ 8 * s.fw.stageWritten.length →
    (verifyImage s.fw s.stageBytes = none → exec (.fwStageVerify seq) s =
      .next ((s.setFw { s.fw with stage := 3, stageImage := none }).respond seq stVerifyFailed [])) ∧
    (∀ i, verifyImage s.fw s.stageBytes = some i → exec (.fwStageVerify seq) s =
      .next ((s.setFw { s.fw with stage := 2, stageImage := some i }).stageDone seq))) ∧
  (∀ (s : State) (seq : Nat) (r : Request), s.request? seq 0x0701 = some r → u8 r.body 0 = 3 →
    stageFieldsOk r.body false = true →
    exec (.fwStageDiscard seq) s = .next ((s.setFw { s.fw with
      stage := 0, stageSize := 0, stageData := [], stageWritten := [], stageImage := none }).stageDone seq)) ∧
  (∀ (s : State) (seq : Nat) (r : Request), s.request? seq 0x0701 = some r → u8 r.body 0 = 4 →
    stageFieldsOk r.body false = true → exec (.fwStageQuery seq) s = .next (s.stageDone seq)) ∧
  (∀ (s : State) (seq : Nat) (r : Request), s.request? seq 0x0704 = some r → restZero r.body 0 = true →
    exec (.devIdentity seq) s = .next (s.draw.respond seq stOk s.identity))

/-! ### Completion: the fabric -/

/-- The port events (R339 to R341, R355, R356): a port with signal on 8 lanes trains and sends its HELLO; trained, it takes its neighbour's
HELLO; without success for 2 s it goes back to DETECT; a HELLO is kept and checked, and its ACK taken; HELLOs go out every 10 ms; a carrying port that
loses signal, or whose 16 replays failed, goes down. LANE_FAIL and X4_RETRAIN_DONE (R341): a first failed lane is replaced by the good
spare; one more failed lane, where the port may run on four lanes, starts the retrain to them; else the port goes down; the retrain
leaves 4 active lanes and no spare. -/
def Obligations.CompletesPorts : Prop :=
  (∀ (s : State) (port lanes : Nat), (s.port port).st = .detect → 8 ≤ lanes →
    exec (.portSignalDetect port lanes) s = .next ((s.updPort port fun p =>
      { p with st := .train, trainAt := s.now, trainTries := satInc p.trainTries 0xFFFFFFFF, laneFailed := 0
               spareGood := true, helloSeen := false }.noted 4).sendHello port)) ∧
  (∀ (s t : State) (port : Nat) (h : Hello), (s.port port).st = .train → t = (s.takeBack port).updPort port (fun p => p.trained h) →
    exec (.portTrainDone port h) s = .next (t.checkPeer port)) ∧
  (∀ (s : State) (port : Nat), (s.port port).st = .train → due (s.port port).trainAt 50000000 s.now = true →
    exec (.portTrainTimeout port) s = .next (s.updPort port fun p => { p with st := .detect })) ∧
  (∀ (s : State) (port : Nat) (h : Hello), (s.port port).carrying = true ∨ (s.port port).st = .train →
    exec (.helloReceive port h) s = .next (((s.takeAck port h.ack).updPort port fun p =>
      { p with peer := some h, helloSeen := true }).checkPeer port)) ∧
  (∀ (s : State), exec .helloTimer s = .next (s.sendHellos fun p => due p.lastHello 250000 s.now)) ∧
  (∀ (s : State) (port : Nat), (s.port port).carrying = true → exec (.portDown port) s = .next (s.portDown port)) ∧
  (∀ (s : State) (port : Nat), (s.port port).carrying = true → 16 ≤ (s.port port).failCount →
    exec (.replayLimit port) s = .next (s.portDown port)) ∧
  (∀ (s : State) (port lane : Nat) (p : Port), p = s.port port → p.carrying = true → lane ≤ 7 →
    p.laneFailed.getLsbD lane = false → p.st ≠ .upX4 →
    (p.spareGood = true → exec (.laneFail port lane) s = .next (s.swapSpare port lane)) ∧
    (p.spareGood = false → p.allowX4 = true → p.x4Pending = false → exec (.laneFail port lane) s =
      .next ((s.updPort port fun p => { p with laneFailed := p.laneFailed ||| (1#9 <<< lane) }).updPort port fun p =>
        { p with x4Pending := true })) ∧
    (p.spareGood = false → p.allowX4 = false → exec (.laneFail port lane) s =
      .next ((s.updPort port fun p => { p with laneFailed := p.laneFailed ||| (1#9 <<< lane) }).portDown port))) ∧
  (∀ (s : State) (port : Nat), (s.port port).x4Pending = true → (s.port port).carrying = true →
    exec (.x4RetrainDone port) s = .next (s.updPort port fun p =>
      { p with st := if p.st = .held then .held else .upX4, activeLanes := 4, spareInUse := false, x4Pending := false }))

/-- The link's frames and control words (R342, R345, R346): a frame whose CRC is not that of its header, payload and ACK is counted and
NAKed; the frame expected next is accepted; a later one is NAKed; an earlier one is a duplicate, dropped and acknowledged; a NAK
resends from the frame that it names; every control word carries an ACK, which counts; credit counts never go back; a lane map puts the
good spare in use here as well; credits to return go out once. ROUTE_FRAME, ROUTING_FAULT_DISCARD and
REPLAY_TAKEBACK (R14, R347, R349, R351): a router's frame with hops left, which overtakes no earlier frame of its source, arrives at its
local destination or goes out on the port and channel chosen for it, from that die, or else takes a hop of the haul roads towards it; a
frame that cannot be routed
is discarded, counted and logged; a port that no longer carries gives its unacknowledged frames back to its die's router, a host-facing
one to those that wait for the host adapter. -/
def Obligations.CompletesLinks : Prop :=
  (∀ (s u : State) (port : Nat) (f : LinkFrame), (s.port port).traffic = true → u = s.updPort port (fun p => p.fec f) →
    f.frame.crc ≠ crc32c (frameBody f.frame) →
    exec (.linkFrameReceive port f) s = .next ((u.updPort port fun p =>
      { p with crcErr := satInc p.crcErr 0xFFFFFFFF }.noted 2).sendNak port)) ∧
  (∀ (s u t : State) (port : Nat) (f : LinkFrame), (s.port port).traffic = true → u = s.updPort port (fun p => p.fec f) →
    f.frame.crc = crc32c (frameBody f.frame) → linkLocal f.frame.typ = false → t = u.takeAck port f.frame.ack →
    (f.frame.lseq = (t.port port).rxLseq → (t.hostFacing port && !t.bridgeRoom port) = false →
      exec (.linkFrameReceive port f) s = .next (t.acceptFrame port f.frame)) ∧
    (f.frame.lseq ≠ (t.port port).rxLseq → follows (t.port port).rxLseq f.frame.lseq = true →
      exec (.linkFrameReceive port f) s = .next (t.tellCredits port)) ∧
    (f.frame.lseq ≠ (t.port port).rxLseq → follows (t.port port).rxLseq f.frame.lseq = false →
      exec (.linkFrameReceive port f) s = .next (t.sendNak port))) ∧
  (∀ (s : State) (port n : Nat), (s.port port).traffic = true → exec (.nakReceive port n) s = .next (s.resend port n)) ∧
  (∀ (s t : State) (port ack : Nat) (counts : List Nat), (s.port port).carrying = true → t = s.takeAck port ack →
    exec (.linkCtrlReceive port ⟨.credits counts, ack⟩) s = .next ((t.updPort port fun p =>
      { p with credGranted := newer p.credGranted counts }).flushHost port)) ∧
  (∀ (s t : State) (port ack n : Nat), (s.port port).carrying = true → t = s.takeAck port ack → (t.port port).traffic = true →
    exec (.linkCtrlReceive port ⟨.nak n, ack⟩) s = .next (t.resend port n)) ∧
  (∀ (s t : State) (port ack lane : Nat), (s.port port).carrying = true → t = s.takeAck port ack →
    (t.port port).carrying = true → lane < 8 → (t.port port).laneFailed.getLsbD lane = false → (t.port port).st ≠ .upX4 →
    (t.port port).spareGood = true →
    exec (.linkCtrlReceive port ⟨.laneMap lane, ack⟩) s = .next (t.swapSpare port lane)) ∧
  (∀ (s : State) (port : Nat), (s.port port).carrying = true → (s.port port).credFreed ≠ (s.port port).credTold →
    exec (.creditReturnTimer port) s = .next ((s.send (.ctrl port ⟨.credits (s.port port).credFreed, (s.port port).lastIn⟩)).updPort
      port fun p => { p with credTold := p.credFreed, credAt := s.now })) ∧
  (∀ (s : State) (die index : Nat) (w : Waiting), (s.die die).router[index]? = some w → w.frame.hops ≠ 0 →
    reservedDie w.frame = false → s.overtakes w.frame = false →
    (∀ d, s.isLocal w.frame = true → s.localDie w.frame = some d →
      exec (.routeFrame die index) s = .next (if d = die then s.arrive die index w else s.haul die index w d)) ∧
    (∀ port vc, s.isLocal w.frame = false → s.nextHop die w = some (port, vc) → s.flowWaits w.frame port = false →
      exec (.routeFrame die index) s = .next (if portDie port = die then s.sendOn die index w port vc
        else s.haul die index w (portDie port)))) ∧
  (∀ (s t : State) (die index : Nat) (w : Waiting), (s.die die).router[index]? = some w → s.routingFault die w = true →
    t = s.takeFrame die index w →
    exec (.routingFaultDiscard die index) s = .next ((t.setFab { t.fab with
      routingFaults := t.fab.routingFaults + 1 }).logNote 4 "ROUTING_FAULT" none die noTag w.frame.dest)) ∧
  (∀ (s : State) (port : Nat), (s.port port).carrying = false → s.hostFacing port = true →
    exec (.replayTakeback port) s = .next (s.updPort port fun p =>
      { p with replay := [], hostOut := p.replay.map (fun f => (f.vc, f)) ++ p.hostOut })) ∧
  (∀ (s : State) (port : Nat), (s.port port).carrying = false → s.hostFacing port = false →
    exec (.replayTakeback port) s = .next ((s.updPort port fun p => { p with replay := [] }).updDie (portDie port) fun d =>
      { d with router := d.router ++ (s.port port).replay.map fun f => ⟨f, f.vc % 2 = 1, s.now, none, true⟩ }))

/-- The end-to-end transactions (R352, R353): a request frame that its destination has room for, and that overtakes none, is delivered; a response completes its
transaction; an unanswered request is sent again at its interval, which doubles up to 256 ms, for at most 2 s; after 3.6 s it fails,
and its work item ends UNCORRECTABLE, its host is told, or its release of a lending set counts as lost; a source silent for 4 s is forgotten. HOST_INGRESS, CONTROL_PAGE_WRITE_RELEASE and HOST_WINDOW_EGRESS
(R358 to R360): a host frame on a host-facing port with room for one more transaction enters; the oldest held control-page write goes
once every earlier write of its port is acknowledged, the later held ones wait for it, and the frames held only for the order follow it;
a frame to the host window leaves through the bridge. -/
def Obligations.CompletesTransactions : Prop :=
  (∀ (s : State) (die : Nat) (f : Frame), isRequest f.typ = true → (s.die die).sourceRoom f = true →
    s.overtakes f = false → exec (.e2eFrameDeliver die f) s = .next (s.deliverFrame die f none)) ∧
  (∀ (s : State) (die : Nat) (f : Frame), 6 ≤ f.typ → f.typ ≤ 8 → s.deaf = false →
    exec (.e2eResponseReceive die f) s = .next (s.response die f)) ∧
  (∀ (s : State) (die txn : Nat) (t : Txn), (s.die die).txns.find? (fun t => t.frame.txn = txn) = some t →
    due t.lastSent t.interval s.now = true → due s.now 0 (t.firstSent + 50000000) = true →
    exec (.e2eResendTimer die txn) s = .next ((s.updDie die fun d =>
      { d with txns := d.txns.map fun x =>
          if x.frame.txn = txn then { x with lastSent := s.now, interval := min (2 * x.interval) 6400000 } else x }).toRouter die
      ⟨t.frame, false, s.now, none, false⟩)) ∧
  (∀ (s u : State) (die txn : Nat) (t : Txn), (s.die die).txns.find? (fun t => t.frame.txn = txn) = some t →
    due t.firstSent 90000000 s.now = true → u = s.endTxn die txn →
    (∀ (k : ItemKey), t.owner = some k → exec (.e2eTransactionFail die txn) s = .next (u.failItem k stUncorrectable)) ∧
    (t.owner = none → t.frame.srcKind ≠ 1 → exec (.e2eTransactionFail die txn) s = .next (u.hostDone t stUncorrectable [])) ∧
    (t.owner = none → t.frame.srcKind = 1 → exec (.e2eTransactionFail die txn) s = .next (u.lenderHeard t.frame true))) ∧
  (∀ (s : State) (die srcModule srcDie : Nat),
    exec (.sourceStateIdle die srcModule srcDie) s = .next (s.updDie die fun d =>
      { d with sources := d.sources.filter fun x =>
          !(x.srcModule = srcModule && x.srcDie = srcDie && due x.lastSeen 100000000 s.now) })) ∧
  (∀ (s : State) (port vc : Nat) (f : Frame), (s.port port).traffic = true → s.hostFacing port = true →
    s.bridgeRoom port = true → exec (.hostIngress port vc f) s = .next (s.ingress port vc f)) ∧
  (∀ (s : State) (port : Nat) (h : HeldWrite) (rest : List HeldWrite), (s.port port).heldWrites = h :: rest → h.after = [] →
    s.bridgeRoom port = true →
    exec (.controlPageWriteRelease port) s = .next (State.drainHeld port rest ((s.updPort port fun p =>
      { p with heldWrites := (p.heldWrites.drop 1).map fun x =>
          if h.frame.typ = 1 && isControlWrite x.frame then { x with after := x.after ++ [(s.die (portDie port)).nextTxn] }
          else x }).launch port h.frame))) ∧
  (∀ (s : State) (die : Nat) (f : Frame), isRequest f.typ = true → hostWindow f = true → (s.die die).sourceRoom f = true →
    exec (.hostWindowEgress die f) s = .next (s.deliverFrame die f none))

/-- FAB_PORT_SET, FAB_ROUTE_SET, FAB_DISCOVER and FAB_BRIDGE_SET (R354, R362 to R365): accepted settings go to every addressed port and
their states are answered; accepted routes go to every named die; discovery is answered, a new module ID holds on every die and HELLOs
go out; an accepted bridge set replaces the host-facing set. -/
def Obligations.CompletesFabricCommands : Prop :=
  (∀ (s t : State) (seq : Nat) (r : Request), s.request? seq 0x0601 = some r → portSetOk r.body = true →
    (s.tapDrives = false ∨ u8 r.body 1 = 0) → t = (addressedPorts r.body).foldl (fun s i => s.setPort r.body i) s →
    exec (.fabPortSet seq) s = .next (t.respond seq stOk ((addressedPorts r.body).flatMap fun i =>
      le 1 (t.port i).st.code ++ le 1 (t.port i).activeLanes ++ le 1 (t.port i).spareInUse.toNat ++ le 1 0))) ∧
  (∀ (s : State) (seq : Nat) (r : Request) (es : List (List Nat)), s.request? seq 0x0602 = some r → routeSetOk r.body = true →
    es = (records r.body 16 4 (u16 r.body 6)).map (fun e => (List.range 4).map (u8 e)) →
    exec (.fabRouteSet seq) s = .next (((maskBits (u32 r.body 0) 24).foldl (fun s d => s.updDie d fun d =>
      { d with routes := if u8 r.body 4 = 1 then [] else setRoutes (u16 r.body 8) es d.routes }) s).respond seq stOk [])) ∧
  (∀ (s : State) (seq : Nat) (r : Request), s.request? seq 0x0603 = some r → u8 r.body 0 = 0 → restZero r.body 1 = true →
    exec (.fabDiscoverQuery seq) s = .next (s.respond seq stOk s.discovery)) ∧
  (∀ (s t : State) (seq : Nat) (r : Request), s.request? seq 0x0603 = some r → u8 r.body 0 = 1 → u8 r.body 1 = 0 →
    restZero r.body 4 = true → u16 r.body 2 ≠ 0xFFFF → s.pitches = [] → s.lends = [] →
    t = ((s.setFab { s.fab with moduleId := u16 r.body 2, assigned := true }).setPorts (s.ports.map fun p =>
      { p with changes := (p.changes + 1) % 2 ^ 32 })).sendHellos (fun _ => true) →
    exec (.fabDiscoverSetId seq) s = .next (t.respond seq stOk t.discovery)) ∧
  (∀ (s t : State) (seq : Nat) (r : Request), s.request? seq 0x0603 = some r → u8 r.body 0 = 2 → restZero r.body 1 = true →
    t = s.sendHellos (fun _ => true) →
    exec (.fabDiscoverRefresh seq) s = .next (t.respond seq stOk t.discovery)) ∧
  (∀ (s t : State) (seq : Nat) (r : Request) (l moved : List Nat), s.request? seq 0x0604 = some r →
    bridgeSetOk r.body = true → l = (List.range (u8 r.body 0)).map (fun i => u8 r.body (2 + i)) →
    moved = (List.range Config.ports).filter (fun i => l.contains i != s.hostFacing i) →
    moved.any (fun i => (s.port i).roles.any (· != .off)) = false →
    t = moved.foldl State.changeSide (s.setFab { s.fab with hostPorts := l }) →
    exec (.fabBridgeSet seq) s = .next (t.respond seq stOk t.bridgeAnswer))

/-! ### Completion: the supply, power, temperature and die states -/

/-- POWER_ON_SEQUENCE, RAIL_REGULATION_TIMEOUT, UNDERVOLTAGE_RESET, OVERVOLTAGE_RESET, OVER_VOLTAGE, RESET_N_ASSERT,
MOD_ENABLE_DEASSERT, KEEPER_DOMAIN_LOSS and KEEPER_FAILOVER (R395, R402, R434, R437): an input of at least 40.0 V starts the keeper
domain and every rail; a rail that is not in regulation 1 ms after its start fails its die; each reset cause resets the module or takes its power away. DIP_BEGIN, DIP_INPUT_RISE, DIP_INPUT_FALL and DIP_END
(R407): below 38.5 V the clocks are divided and the dip is counted and logged; the hold of 100 µs starts and stops with the input; its
end logs the dip's length and lowest input. -/
def Obligations.CompletesSupply : Prop :=
  (∀ (s t : State) (mv : Nat), mv ≤ 60000 → t = s.setVin mv → t.mayStart mv = true →
    (s.power.phase = .off → exec (.powerOnSequence mv) s = .next t.keeperStart.railsOn) ∧
    (s.power.phase = .inReset → exec (.powerOnSequence mv) s = .next t.step3.railsOn) ∧
    (s.power.phase = .started → s.kpr.mod ≠ .keeperOnly → exec (.powerOnSequence mv) s = .next t.railsOn)) ∧
  (∀ (s : State) (die rail : Nat), s.keepersRun = true → s.kpr.mod = .booting → die < 24 → (s.die die).st ≠ .fault →
    due (s.power.railsAt + 5000 * die) 25000 s.now = true →
    exec (.railRegulationTimeout die rail) s = .next (s.dieFault die rail)) ∧
  (∀ (s : State) (mv : Nat), s.keepersRun = true → mv ≤ 35000 →
    exec (.undervoltageReset mv) s =
      .next (if mv < 30000 then (s.setVin mv).unpower else (s.setVin mv).moduleReset 1 false)) ∧
  (∀ (s : State) (mv : Nat), s.keepersRun = true → 56000 < mv → mv ≤ 60000 →
    exec (.overvoltageReset mv) s = .next ((s.setVin mv).moduleReset 2 false)) ∧
  (∀ (s : State) (mv : Nat), s.keepersRun = true → 50000 < mv → mv ≤ 56000 →
    exec (.overVoltage mv) s = .next ((s.setVin mv).logEvent 0x0104 2 noDie noTag mv)) ∧
  (∀ (s : State) (us : Nat), s.keepersRun = true → 10 ≤ us →
    exec (.resetNAssert us) s = .next (s.moduleReset 3 (40000 ≤ s.power.vinMv))) ∧
  (∀ (s : State) (us : Nat), s.power.phase ≠ .off → 100 ≤ us →
    exec (.modEnableDeassert us) s = .next (s.setEeprom { s.eeprom with marker := true }).unpower) ∧
  (∀ (s : State) (us : Nat), s.power.phase = .off → 100 ≤ us →
    exec (.modEnableDeassert us) s = .next (s.setPower { s.power with tripped := false })) ∧
  (∀ (s : State) (mv : Nat), s.power.phase ≠ .off → mv < 30000 →
    exec (.keeperDomainLoss mv) s = .next (s.setVin mv).unpower) ∧
  (∀ (s : State), s.keepersRun = true → exec .keeperFailover s = .next (s.setKpr { s.kpr with serverD23 := true })) ∧
  (∀ (s t : State) (mv : Nat), s.keepersRun = true → s.power.dip = false → mv < 38500 → 35000 < mv →
    t = (s.setVin mv).divide true →
    exec (.dipBegin mv) s = .next ((t.setPower { t.power with
      dip := true, dipStart := s.now, dipLow := mv, dipHold := none, dips := s.power.dips + 1 }).logEvent
      0x0102 1 noDie noTag mv)) ∧
  (∀ (s : State) (mv : Nat), s.power.dip = true → 39500 ≤ mv →
    exec (.dipInputRise mv) s =
      .next ((s.setVin mv).setPower { (s.setVin mv).power with dipHold := some s.now })) ∧
  (∀ (s : State) (mv : Nat), s.power.dip = true → mv < 39500 →
    exec (.dipInputFall mv) s =
      .next ((s.setVin mv).setPower { (s.setVin mv).power with dipHold := none, dipLow := min s.power.dipLow mv })) ∧
  (∀ (s t : State) (mv since : Nat), s.power.dip = true → 39500 ≤ mv → s.power.dipHold = some since →
    due since 2500 s.now = true → t = s.setVin mv →
    exec (.dipEnd mv) s = .next (((t.divide false).setPower { t.power with
      dip := false, dipHold := none, lastDipMv := s.power.dipLow, lastDipLen := s.dipLength
      pulseUntil := if s.kpr.mod = .keeperOnly then s.power.pulseUntil else s.now + 250 }).logEvent
      0x0103 1 noDie noTag (s.dipLength + s.power.dipLow % 65536 * 2 ^ 32)))

/-- POWER_CONTROL_EVAL, STEP_CHANGE_DONE, THERMAL_CONTROL_EVAL, THERMAL_TRIP, PHASE_LOST, KEEPER_ONLY_ENTRY and PWARN_EVAL (R394, R398,
R404 to R406, R409, R439): the control loops step down and up, a hot die warns, shuts the module down to keeper-only mode or trips it, a
lost phase warns and then fails its die, and the power warning is raised and dropped. -/
def Obligations.CompletesControl : Prop :=
  (∀ (s t u : State) (p1 p10 ma : Nat), t = s.sample.setPower { s.sample.power with pinW := p1, iinMa := ma } →
    (overLimit p1 ma = true → since s.power.lastDown 2500 s.now = true →
      u = (if t.dies.any Die.lowers then t.stepsDown ma else t) →
      exec (.powerControlEval p1 p10 ma) s =
        .next (if (t.dies.all fun d => d.step = 0) && 3200 < p1 then u.logEvent 0x0107 2 noDie noTag p1 else u)) ∧
    (overLimit p1 ma = false → p10 < 3100 → ma < 80000 → since s.power.lastDown 250000 s.now = true →
      since s.power.lastUp 25000 s.now = true → exec (.powerControlEval p1 p10 ma) s = .next t.stepsUp)) ∧
  (∀ (s : State) (die : Nat), (s.die die).railsUp = true →
    exec (.stepChangeDone die) s = .next (s.updDie die Die.toAllowed)) ∧
  (∀ (s t : State) (die sensor : Nat) (tj : Int), t = (s.updDie die fun d => { d with tj := tj, tjSensor := sensor % 8 }) →
    t.kpr.mod ≠ .keeperOnly → t.keepersRun = true → die < 24 →
    (880 ≤ tj → exec (.thermalControlEval die tj sensor) s =
      .next (((t.loseDie die).logEvent 0x0202 2 die noTag (unsigned tj 16)).keeperOnly 2)) ∧
    (760 ≤ tj → tj < 880 → (t.die die).hot = false → exec (.thermalControlEval die tj sensor) s =
      .next ((t.logEvent 0x0201 1 die noTag (unsigned tj 16)).updDie die fun d =>
        if since d.thermAt 2500 (t.logEvent 0x0201 1 die noTag (unsigned tj 16)).now then
          { d with hot := true, thermStep := d.allowed - 1, thermAt := some (t.logEvent 0x0201 1 die noTag (unsigned tj 16)).now }
        else { d with hot := true })) ∧
    (tj < 736 → exec (.thermalControlEval die tj sensor) s = .next (t.updDie die fun d =>
      if since d.thermAt 25000 t.now && d.thermStep < d.cap then
        { d with hot := false, thermStep := d.thermStep + 1, thermAt := some t.now }
      else { d with hot := false }))) ∧
  (∀ (s : State) (die : Nat) (tj : Int), s.kpr.mod = .keeperOnly → s.keepersRun = true → 960 ≤ tj →
    exec (.thermalTrip die tj) s = .next (((s.setEeprom { s.eeprom with trip := some (die, tj, s.now) }).unpower).setPower
      { (s.setEeprom { s.eeprom with trip := some (die, tj, s.now) }).unpower.power with tripped := true })) ∧
  (∀ (s t : State) (die rail phase : Nat), s.keepersRun = true → die < 24 → rail < 8 → rail ≠ 0 →
    (s.die die).phasesLost.contains (rail, phase) = false →
    t = (s.updDie die fun d => { d with phasesLost := d.phasesLost ++ [(rail, phase)] }) →
    exec (.phaseLost die rail phase) s = .next (if (s.die die).phasesLost.any fun x => x.1 = rail then t.dieFault die rail
      else t.logEvent 0x0105 1 die noTag (rail + 256 * phase))) ∧
  (∀ (s : State) (cause : Nat), s.keepersRun = true → s.kpr.mod ≠ .keeperOnly → cause ≤ 3 →
    exec (.keeperOnlyEntry cause) s = .next (s.keeperOnly cause)) ∧
  (∀ (s t : State) (watts : Nat), t = s.setPower { s.power with pinW := watts } → s.power.pwarnW ≠ 0 → s.power.pwarnW < watts →
    s.power.pwarn = false →
    exec (.pwarnEval watts) s =
      .next ((t.setPower { t.power with pwarn := true, pwarnBelow := none }).logEvent 0x0108 1 noDie noTag watts))

/-- PWR_DIE_STATE with its eight operations and LOGICAL_CLUSTER_MOVE (R167, R409, R410, R414): caps and idle times are set on the dies
of the mask; a drain or a return begins the moves of the pitches and answers when none is left; an off die loses what it holds;
keeper-only mode is entered and left. TELEMETRY_READ and EVENT_LOG_READ (R411 to R413): the module record and one record per die of the
mask; and the events from a sequence number on that the caller may see. -/
def Obligations.CompletesDieStates : Prop :=
  (∀ (s : State) (seq : Nat) (r : Request), s.request? seq 0x0901 = some r → u8 r.body 4 = 0 →
    dieStateOk r.body false false true = true →
    exec (.pwrDieStateQuery seq) s = .next (s.diesDone seq (u32 r.body 0))) ∧
  (∀ (s : State) (seq : Nat) (r : Request), s.request? seq 0x0901 = some r → u8 r.body 4 = 1 →
    dieStateOk r.body true false true = true →
    exec (.pwrDieStateSetCap seq) s = .next (((maskBits (u32 r.body 0) 24).foldl (fun s d =>
      s.updDie d fun d => { d with cap := u8 r.body 5 }) s).diesDone seq (u32 r.body 0))) ∧
  (∀ (s : State) (seq : Nat) (r : Request), s.request? seq 0x0901 = some r → u8 r.body 4 = 2 →
    dieStateOk r.body false true true = true →
    exec (.pwrDieStateSetIdle seq) s = .next (((maskBits (u32 r.body 0) 24).foldl (fun s d =>
      s.updDie d fun d => { d with dozeCycles := u32 r.body 8, restUs := u32 r.body 12 }) s).diesDone seq (u32 r.body 0))) ∧
  (∀ (s t : State) (seq : Nat) (r : Request) (new : List Nat) (plans : List (Nat × MovePlan)),
    s.request? seq 0x0901 = some r → u8 r.body 4 = 3 → dieStateOk r.body false false true = true → s.movingFor seq = false →
    new = (maskBits (u32 r.body 0) 24).filter (fun d => (s.die d).st != .drained) → new.any s.drainBusy = false →
    s.planMoves seq new true = some plans →
    t = plans.foldl (fun s m => (s.updPitch m.1 Pitch.restrict).beginMove m.1 m.2) (s.startDrain new) →
    exec (.pwrDieStateDrain seq) s = .next (if t.movingFor seq then t else t.diesDone seq (u32 r.body 0))) ∧
  (∀ (s t : State) (seq : Nat) (r : Request) (ds : List Nat) (plans : List (Nat × MovePlan)),
    s.request? seq 0x0901 = some r → u8 r.body 4 = 4 → dieStateOk r.body false false true = true → s.movingFor seq = false →
    ds = maskBits (u32 r.body 0) 24 →
    ds.any (fun d => !((s.die d).st = .drained || (s.die d).st = .off) || (s.die d).testing ||
      s.pitches.any fun p => p.localDies.testBit d && p.move.isSome) = false →
    s.planMoves seq ds false = some plans →
    t = plans.foldl (fun s m => s.beginMove m.1 m.2) (ds.foldl (fun s d =>
      if (s.dieTag? d).isSome then s
      else s.updDie d fun d =>
        if d.st = .off then d.switchOn
        else { d with st := .inService, clusters := d.clusters.map fun c => { c with st := .resting } }) s) →
    exec (.pwrDieStateReturn seq) s = .next (if t.movingFor seq then t else t.diesDone seq (u32 r.body 0))) ∧
  (∀ (s : State) (seq : Nat) (r : Request) (ds : List Nat), s.request? seq 0x0901 = some r → u8 r.body 4 = 5 →
    dieStateOk r.body false false true = true → ds = maskBits (u32 r.body 0) 24 →
    ds.any (fun d => (s.dieTag? d).isSome || (s.dieLend? d).isSome || (s.die d).st = .fault || (s.die d).testing) = false →
    exec (.pwrDieStateOff seq) s = .next (((ds.filter fun d => (s.die d).st != .off).foldl (fun s d =>
      (s.loseDie d).updDie d fun d => { d with st := .off }) s).diesDone seq (u32 r.body 0))) ∧
  (∀ (s : State) (tag lcluster : Nat) (p : Pitch) (m n : MovePlan), s.pitch? tag = some p → p.move = some m →
    m.waiting.contains lcluster = true →
    p.items.any (fun i => i.w.lcluster = lcluster && i.dispatched && i.phase != .finished) = false →
    n = { m with waiting := m.waiting.filter (· != lcluster), stopped := m.stopped ++ [lcluster] } →
    exec (.logicalClusterMove tag lcluster) s = .next ((s.applyMove p n).moveDone n.seq)) ∧
  (∀ (s : State) (seq : Nat) (r : Request), s.request? seq 0x0901 = some r → u8 r.body 4 = 6 →
    dieStateOk r.body false false false = true → s.kpr.mod ≠ .keeperOnly →
    exec (.pwrDieStateKeeperOnly seq) s = .next ((s.respond seq stOk []).keeperOnly 3)) ∧
  (∀ (s : State) (seq : Nat) (r : Request), s.request? seq 0x0901 = some r → u8 r.body 4 = 7 →
    dieStateOk r.body false false false = true → s.kpr.mod = .keeperOnly → s.pitches = [] → s.lends = [] →
    s.dies.any (fun d => 680 < d.tj) = false →
    exec (.pwrDieStateExit seq) s = .next (s.respond seq stOk []).exitKeeperOnly) ∧
  (∀ (s : State) (seq : Nat) (r : Request), s.request? seq 0x0902 = some r → u32 r.body 0 < 2 ^ 24 → restZero r.body 4 = true →
    (r.mailbox = 0 ∨ ∀ d ∈ maskBits (u32 r.body 0) 24, s.dieTag? d = some r.tag) →
    exec (.telemetryRead seq) s = .next (s.respond seq stOk (s.moduleRecord (r.mailbox = 0) ++
      (maskBits (u32 r.body 0) 24).flatMap fun d => (s.die d).record d))) ∧
  (∀ (s : State) (seq : Nat) (r : Request) (es : List Event), s.request? seq 0x0903 = some r → 1 ≤ u32 r.body 8 →
    u32 r.body 8 ≤ 120 → restZero r.body 12 = true →
    es = (s.log.entries.filter (fun e => u64 r.body 0 ≤ e.seq && (r.mailbox = 0 || e.tag = r.tag))).take (u32 r.body 8) →
    exec (.eventLogRead seq) s = .next (s.respond seq stOk
      (le 8 s.log.next ++ le 8 s.log.oldest ++ le 4 es.length ++ le 4 0 ++ es.flatMap Event.bytes)))

/-! ### Completion: memory errors, marches, self-test and repair -/

/-- CORRECTED_ERROR_WRITEBACK, PATROL_SCRUB, ROW_REPAIR_IN_SERVICE, UNMARCHED_FIRST_WRITE, BACKGROUND_MARCH_PAGE and
UNMARCHED_SRAM_MARCH (R175, R176, R326, R421, R426): corrected errors are counted by their die, an uncorrectable one is logged, a row
with four takes a spare row, and pages are marched, as one test of the die with what fails in them, a page first written outside the
window later; a released die's cluster memories are tested. TEST_WINDOW_LOST, TEST_COMPLETE,
SPARES_TEST_AFTER_POWER_ON, BIST_RUN, BIST_RESULT, REPAIR_SOFT and REPAIR_FUSE (R419 to R423, R427 to R429): a test starts on ready dies, ends with the failures recorded or is abandoned;
repairs are applied, and fused one at a time with the conditions looked at before each; and records read. -/
def Obligations.CompletesUpkeep : Prop :=
  (∀ (s : State) (die : Nat) (e : ErrorAt), 1 ≤ e.symbols → e.symbols ≤ (codeAt die e.place).corrects →
    exec (.correctedErrorWriteback die e) s = .next (s.updDie die fun d => d.correctedAt s.now e.place)) ∧
  (∀ (s t : State) (die symbols : Nat) (x : StorePlace), (s.die die).railsUp = true →
    (∀ off, x = .space off → t = (if isSram off then s else s.dramNeed die)) → (∀ kind row, x = .bank kind row → t = s) →
    exec (.patrolScrub die x 0) s = .next t ∧
    (1 ≤ symbols → symbols ≤ (codeAt die x).corrects →
      exec (.patrolScrub die x symbols) s = .next (t.updDie die fun d => d.correctedAt t.now x)) ∧
    ((codeAt die x).corrects < symbols → symbols ≤ (codeAt die x).detects →
      exec (.patrolScrub die x symbols) s = .next (t.scrubFoundAt die x))) ∧
  (∀ (s : State) (die kind row : Nat) (d : Die), 4 ≤ (s.die die).rowCount kind row s.now → (s.die die).sparesTested = true →
    mendRow kind (rowInstance kind row).1 (some (s.die die)) (rowInstance kind row).2 = some d →
    exec (.rowRepairInService die kind row) s = .next ((s.updDie die fun _ =>
      { d with rowErrors := d.rowErrors.filter fun e => !(e.1 = kind && e.2.1 = row) }).recordRow die kind row)) ∧
  (∀ (s : State) (die page : Nat), page < Config.diePages → (s.die die).railsUp = true →
    (s.die die).marched.contains page = false → (s.die die).zeroed.contains page = false →
    exec (.unmarchedFirstWrite die page) s = .next (
      if (s.die die).inWindow then s.updDie die fun d => { d with marched := insertNat d.marched page }
      else (s.updDie die fun d => { d with zeroed := insertNat d.zeroed page }).logUnmarched die
        ((s.pitches.find? fun p => p.localDies.testBit die).elim noTag (·.tag)) page)) ∧
  (∀ (s t : State) (die : Nat) (x : MarchedPage), (s.die die).startable = true → (s.die die).test = none →
    (s.die die).nextPage = some x.page → t = (s.beginMarch die).marchPage die x.page (recordedFailures x.failures) →
    exec (.backgroundMarchPage die x) s = .next (if (t.die die).nextPage = none then t.endMarch die false else t)) ∧
  (∀ (s : State) (die : Nat) (x : MarchedPage), (s.die die).nextPage = none →
    exec (.backgroundMarchPage die x) s = .next (s.endMarch die false)) ∧
  (∀ (s : State) (die : Nat), (s.die die).sramUnmarched = true → (s.die die).startable = true → (s.die die).test = none →
    s.dieTag? die = none → exec (.unmarchedSramMarch die) s = .next (s.startTest 0 1 true [die] none 0)) ∧
  (∀ (s : State) (die : Nat), (s.die die).inWindow = false → exec (.testWindowLost die) s = .next (s.abandonTest die)) ∧
  (∀ (s : State) (die : Nat) (fs : List Failure) (t : RunningTest), (s.die die).test = some t → (s.die die).inWindow = true →
    exec (.testComplete die fs) s = .next (s.finishTest die t fs)) ∧
  (∀ (s t : State) (die : Nat) (fs : List Failure), die < 24 → (s.die die).sparesTested = false → (s.die die).startable = true →
    (s.die die).testing = false → t = s.startTest 3 2 false [die] none 0 →
    exec (.sparesTestAfterPowerOn die fs) s = .next ((t.die die).test.elim t fun x => t.finishTest die x fs)) ∧
  (∀ (s : State) (seq : Nat) (r : Request), s.request? seq 0x0801 = some r →
    s.tests.records.any (fun t => t.request = some seq) = false → bistOk r.body = true →
    (maskBits (u32 r.body 0) 24).all (s.bistReady (u8 r.body 4) (u8 r.body 5)) = true →
    exec (.bistRun seq) s =
      .next (s.startTest (u8 r.body 4) 0 (bit (u8 r.body 6) 0) (maskBits (u32 r.body 0) 24) (some seq) (u8 r.body 5))) ∧
  (∀ (s : State) (seq : Nat) (r : Request) (t : TestRecord) (x : State × Nat × Nat), s.request? seq 0x0802 = some r →
    restZero r.body 4 = true → s.tests.records.find? (fun t => t.testId = u32 r.body 0) = some t →
    t.openDies.any (fun d =>
      (s.die d).st != .drained || (s.die d).lastTest != some (u32 r.body 0) || (s.die d).testing) = false →
    x = t.openDies.foldl (State.repairDie (u32 r.body 0)) (s, 0, 0) →
    exec (.repairSoft seq) s =
      .next (x.1.respond seq (if x.2.2 = 0 then stOk else stDegraded) (le 2 x.2.1 ++ le 2 x.2.2))) ∧
  (∀ (s : State) (seq : Nat) (r : Request) (ds : List Nat), s.request? seq 0x0803 = some r → u32 r.body 0 < 2 ^ 24 →
    restZero r.body 4 = true → ds = maskBits (u32 r.body 0) 24 → s.tests.fusing = none → s.fusable ds = true →
    ds.any (fun d => 512 < (s.die d).fuseUsed + (s.die d).unfused) = false →
    exec (.repairFuse seq) s =
      .next (s.fuseNext ⟨seq, ds.flatMap fun d => List.replicate (s.die d).unfused d, []⟩ ds)) ∧
  (∀ (s : State) (seq d e : Nat) (r : Request) (f : Fusing) (rest : List Nat), s.request? seq 0x0803 = some r →
    u32 r.body 0 < 2 ^ 24 → restZero r.body 4 = true → s.tests.fusing = some f → f.seq = seq →
    s.fusable (maskBits (u32 r.body 0) 24) = true → f.todo = d :: e :: rest →
    exec (.repairFuse seq) s = .next ((s.updDie d Die.fuse).setTests
      { s.tests with fusing := some { f with todo := e :: rest, done := f.done ++ [d] } })) ∧
  (∀ (s : State) (seq : Nat) (r : Request) (f : Fusing), s.request? seq 0x0803 = some r →
    u32 r.body 0 < 2 ^ 24 → restZero r.body 4 = true → s.tests.fusing = some f → f.seq = seq →
    s.fusable (maskBits (u32 r.body 0) 24) = false →
    exec (.repairFuse seq) s = .next (s.fuseEnd f (maskBits (u32 r.body 0) 24) stOutOfRange)) ∧
  (∀ (s : State) (seq : Nat) (r : Request) (t : TestRecord), s.request? seq 0x0804 = some r → 1 ≤ u16 r.body 6 →
    u16 r.body 6 ≤ 124 → restZero r.body 8 = true → s.record? (u32 r.body 0) = some t →
    exec (.bistResult seq) s = .next (s.respond seq stOk
      (t.summary ++ ((t.entries.drop (u16 r.body 4)).take (u16 r.body 6)).flatMap entryBytes)))

/-! ### Completion: keeper space and the test access port -/

/-- RESET, RST_LOCK, MBX0_DOORBELL, MBX0_RSP_RELEASE, ALERT_PEND, CNT_CLR and any other register WRITE, register READs and rejected
frames (R431 to R445): a WRITE of a register takes its effect once per TAG and is acknowledged; a READ of a _LO register latches the
upper half and answers; a misaligned frame and one of a reserved TYPE are answered with ERROR, one above the 8 unanswered with
QUEUE_FULL, and one with a bad CRC not at all. RECOVERY_ANNOUNCE and TAP_INSTRUCTION (R434, R457): RECOVERY is
announced with MOD_STATUS every second, and a TAP instruction is loaded. -/
def Obligations.CompletesRegisters : Prop :=
  (∀ (s : State) (ktag addr : Nat), s.keepersRun = true → addr % 4 = 0 →
    exec (.registerLoRead ktag addr) s =
      .next ((s.arrived.afterRead addr).send (kprSent 0x81 ktag addr (s.arrived.readReg addr)))) ∧
  (∀ (s t : State) (ktag addr : Nat) (d : BitVec 32), s.keepersRun = true → addr % 4 = 0 →
    s.kpr.writeTags.contains ktag = false → t = s.arrived.writeReg addr d →
    exec (.registerWrite ktag addr d) s =
      .next ((t.setKpr { t.kpr with writeTags := (ktag :: t.kpr.writeTags).take 8 }).send (kprSent 0x82 ktag addr 0))) ∧
  (∀ (s t : State) (ktag : Nat) (d : BitVec 32), s.keepersRun = true → s.kpr.writeTags.contains ktag = false →
    t = s.arrived.writeReset d →
    exec (.reset ktag d) s =
      .next ((t.setKpr { t.kpr with writeTags := (ktag :: t.kpr.writeTags).take 8 }).send (kprSent 0x82 ktag 0x2C 0)) ∧
    exec (.rstLock ktag d) s =
      .next ((t.setKpr { t.kpr with writeTags := (ktag :: t.kpr.writeTags).take 8 }).send (kprSent 0x82 ktag 0x2C 0))) ∧
  (∀ (s t : State) (ktag : Nat) (d : BitVec 32), s.keepersRun = true → s.kpr.writeTags.contains ktag = false →
    t = s.arrived.ringDoorbell d →
    exec (.mbx0Doorbell ktag d) s =
      .next ((t.setKpr { t.kpr with writeTags := (ktag :: t.kpr.writeTags).take 8 }).send (kprSent 0x82 ktag 0xA000 0))) ∧
  (∀ (s t : State) (ktag : Nat) (d : BitVec 32), s.keepersRun = true → s.kpr.writeTags.contains ktag = false →
    t = s.arrived.releaseRsp d →
    exec (.mbx0RspRelease ktag d) s =
      .next ((t.setKpr { t.kpr with writeTags := (ktag :: t.kpr.writeTags).take 8 }).send (kprSent 0x82 ktag 0xA008 0))) ∧
  (∀ (s t : State) (ktag : Nat) (d : BitVec 32), s.keepersRun = true → s.kpr.writeTags.contains ktag = false →
    t = s.arrived.clearAlerts d →
    exec (.alertPend ktag d) s =
      .next ((t.setKpr { t.kpr with writeTags := (ktag :: t.kpr.writeTags).take 8 }).send (kprSent 0x82 ktag 0x2040 0))) ∧
  (∀ (s t : State) (ktag port : Nat) (d : BitVec 32), s.keepersRun = true → s.kpr.writeTags.contains ktag = false →
    port < 72 → t = s.arrived.clearCounters port d →
    exec (.cntClr ktag port d) s =
      .next ((t.setKpr { t.kpr with writeTags := (ktag :: t.kpr.writeTags).take 8 }).send (kprSent 0x82 ktag (cntClrAddr port) 0))) ∧
  (∀ (s : State) (f : KprFrame), s.keepersRun = true → f.crc = crc32c (kprBody f) →
    f.addr % 4 ≠ 0 ∨ (f.typ ≠ 1 ∧ f.typ ≠ 2) →
    exec (.keeperFrameReject f) s = .next (s.arrived.kprError f.ktag f.addr stBadCommand)) ∧
  (∀ (s : State) (f : KprFrame), s.keepersRun = true → f.crc = crc32c (kprBody f) → f.addr % 4 = 0 → f.typ = 1 ∨ f.typ = 2 →
    s.keeperFull = true → exec (.keeperFrameReject f) s = .next (s.kprError f.ktag f.addr stQueueFull)) ∧
  (∀ (s : State) (f : KprFrame), f.crc ≠ crc32c (kprBody f) → exec (.keeperFrameReject f) s = .next s) ∧
  (∀ (s : State), s.keepersRun = true → s.kpr.mod = .recovery → s.kpr.announced.elim true (fun t => due t 25000000 s.now) = true →
    exec .recoveryAnnounce s =
      .next ((s.draw.setKpr { s.kpr with announced := some s.now }).send (kprSent 0x90 (Config.announceTag s.free).toNat 0x20 (BitVec.ofNat 32 s.modStatus)))) ∧
  (∀ (s : State) (i : TapInstr), 30000 ≤ s.power.vinMv → exec (.tapInstruction i) s = .next { s with tap := i })

/-! ### The whole machine -/

/-- After reset the memories stand in their canonical form. -/
def Obligations.ResetIsCanonical : Prop := State.reset.Inv

/-- What reset leaves, as the spec gives it: no pitch and no lending set (R22), no module ID (R354), no mailbox bound and no window
entry (R382, R403), no request accepted, an event log numbered from 0 that holds the RESET_CAUSE of the power-on (R402, R411) with no
alert pending (R440), RST_LOCK, SCRATCH and RESET_CAUSE at zero (R436) and no power warning (R438). -/
def Obligations.ResetLeaves : Prop :=
  State.reset.pending = [] ∧ State.reset.pitches = [] ∧ State.reset.lends = [] ∧ State.reset.fab.assigned = false ∧
  (∀ m, m < 64 → (State.reset.box m).bound = none ∧ (State.reset.box m).window = [] ∧ (State.reset.box m).outstanding = 0) ∧
  State.reset.ring.journal = [] ∧ State.reset.ring.acceptNext = 0 ∧ State.reset.log.next = 1 ∧
  State.reset.log.entries = [⟨0, 0, 0x0101, 0, noDie, noTag, State.reset.kpr.resetCause⟩] ∧
  State.reset.log.alertPend = 0 ∧ State.reset.kpr.rstLock = false ∧ State.reset.kpr.scratch = 0 ∧
  State.reset.kpr.resetCause = 0 ∧ State.reset.power.pwarnW = 0 ∧ State.reset.power.pwarn = false

/-- On an empty queue a step is one local count of the clock: the counter advances while the keepers run and no register reset is due,
and nothing happens while they do not. That a step on an empty queue is a count is the model's choice (notes/assumptions/1.md). -/
def Obligations.EmptyQueueCountsTime : Prop :=
  (∀ (s : State), s.pending = [] → step s = .next (idle s)) ∧
  (∀ (s : State), s.keepersRun = true → s.kpr.resetDue = none → (idle s).now = s.now + 1) ∧
  (∀ (s : State), s.keepersRun = false → idle s = s)

/-- Every step keeps the byte stores canonical, module memory, the request buffer of mailbox 0 and the staging area (R388), from every
state, whatever command stands in front; and no command touches the queue of waiting commands. -/
def Obligations.StepKeepsInvariant : Prop :=
  (∀ (s t : State), s.Inv → step s = .next t → t.Inv) ∧
  (∀ (c : Instr) (s t : State), s.Inv → exec c s = .next t → t.pending = s.pending)

/-- A command that stores nothing leaves every byte of module memory as it was. -/
def Obligations.MemoryFrame : Prop :=
  ∀ (c : Instr) (s t : State), leavesMemory c = true → exec c s = .next t → ∀ k, memGet t.mem k = memGet s.mem k

/-- A command that stores results of a work item changes no byte of module memory but those that its stores may reach: the elements and
the scale bytes of D's strips inside its valid box, with the trailers of records (R62), the stream of a COMPRESS move, the records of a
SAMPLE; and ITEM_COMPLETE changes none but the results that a race leaves undefined (R73), the KV blocks and Crusher states that the
item's results spoil (R190, R272), its completion record in its slot of the completion ring, and the notification (R154). -/
def Obligations.StoresStayInPlace : Prop :=
  (∀ (c : Instr) (s t : State) (k : ItemKey) (p : Pitch) (i : Item), storesResult c = some k → OnItem s k p i → exec c s = .next t →
    ∀ a, a ∉ (i.stores s p c).flatMap (s.storeKeys p) → memGet t.mem a = memGet s.mem a) ∧
  (∀ (s t : State) (k : ItemKey) (p : Pitch) (i : Item) (q : Queue), OnItem s k p i → p.queue? k.queue = some q →
    exec (.itemComplete k) s = .next t →
    ∀ a, a ∉ (i.completionStores p q).flatMap (s.storeKeys p) → memGet t.mem a = memGet s.mem a)

/-- A query changes nothing but what an answer changes: the journal, the mailboxes and their responses, the frames that a die has to
send, and the count of free values drawn. -/
def Obligations.QueriesOnlyAnswer : Prop :=
  ∀ (c : Instr) (s t : State), isQuery c = true → exec c s = .next t →
    t.mem = s.mem ∧ t.bad = s.bad ∧ t.dies.map Die.unsent = s.dies.map Die.unsent ∧ t.ports = s.ports ∧ t.fab = s.fab ∧
    t.pitches = s.pitches ∧ t.lends = s.lends ∧ t.fw = s.fw ∧ t.power = s.power ∧ t.kpr = s.kpr ∧ t.log = s.log ∧
    t.tests = s.tests ∧
    t.eeprom = s.eeprom ∧ t.tap = s.tap ∧ t.pending = s.pending

/-- A frame of the keeper port leaves memory, the dies, the pitches, the Ringmaster but for the line of submissions, and the firmware as
they were, and of the ports it writes the counters alone. -/
def Obligations.KeeperFramesLeaveWork : Prop :=
  ∀ (c : Instr) (s t : State), isKeeperFrame c = true → exec c s = .next t →
    t.mem = s.mem ∧ t.bad = s.bad ∧ t.dies = s.dies ∧ t.fab = s.fab ∧ t.pitches = s.pitches ∧ t.lends = s.lends ∧
    { t.ring with order := s.ring.order } = s.ring ∧ t.fw = s.fw ∧ t.tests = s.tests ∧ t.eeprom = s.eeprom ∧ t.tap = s.tap ∧
    t.pending = s.pending ∧ t.ports.map Port.uncounted = s.ports.map Port.uncounted

/-- A dip, a step of a control loop short of a shutdown, and a change of a power state change no stored byte, nothing of a pitch, and
nothing that a cluster holds of results. -/
def Obligations.ThrottlingKeepsResults : Prop :=
  ∀ (c : Instr) (s t : State), throttles c = true → exec c s = .next t →
    t.mem = s.mem ∧ t.bad = s.bad ∧ t.pitches = s.pitches ∧ t.results = s.results

/-! ### Rules of single operations -/

/-- The keeper remembers the TAGs of the last 8 WRITEs that it performed; a WRITE with one of them is acknowledged and not performed
again; a READ changes nothing but the latches and the frames that have come (R432, R433). -/
def Obligations.KeeperWritesOnce : Prop :=
  (∀ (s : State) (ktag addr : Nat) (d : BitVec 32), s.keepersRun = true → addr % 4 = 0 →
    s.kpr.writeTags.contains ktag = true →
    exec (.registerWrite ktag addr d) s = .next (s.arrived.send (kprSent 0x82 ktag addr 0))) ∧
  (∀ (s : State) (ktag addr : Nat) (d : BitVec 32), s.keepersRun = true → addr % 4 = 0 →
    s.kpr.writeTags.contains ktag = false →
    ∃ t, exec (.registerWrite ktag addr d) s = .next t ∧ t.kpr.writeTags = (ktag :: s.kpr.writeTags).take 8 ∧
      t.sent = s.sent ++ [kprSent 0x82 ktag addr 0]) ∧
  (∀ (s : State) (ktag addr : Nat), s.keepersRun = true → addr % 4 = 0 →
    ∃ l, exec (.registerLoRead ktag addr) s =
      .next ((s.arrived.setKpr { s.arrived.kpr with latches := l }).send (kprSent 0x81 ktag addr (s.readReg addr))))

/-- An accumulator that holds the sum of `ps` and into which the products `us` are added holds the sum of both, whatever the draw and
whatever the order of the additions, while they are at most 2^48 together; and a slot of the accumulator buffer that is empty and into
which partial sums of such products are added, each made by additions of its own, holds the sum of all of them, in whatever order they
come (R36). A product lies below 2^94, that is below 2^206 in units of the smallest quantum (R35). -/
def Obligations.SumsAreExact : Prop :=
  (∀ (k : Nat) (a : Acc) (ps us : List Int), (∀ u ∈ ps ++ us, u.natAbs < 2 ^ 206) → (ps ++ us).length ≤ 2 ^ 48 →
    a.sat = false → a.val.toInt = ps.sum →
    (a.addAll k us).val.toInt = ps.sum + us.sum ∧ (a.addAll k us).sat = false ∧ (a.addAll k us).inv = a.inv ∧
    ∀ (j : Nat) (ws : List Int), ws.Perm us → a.addAll j ws = a.addAll k us) ∧
  (∀ (parts : List (Nat × List Int)) (slot : Acc), (∀ u ∈ parts.flatMap (·.2), u.natAbs < 2 ^ 206) →
    (parts.flatMap (·.2)).length ≤ 2 ^ 48 → slot = parts.foldl (fun a x => a.bufferAdd (Acc.addAll x.1 {} x.2)) {} →
    slot.val.toInt = (parts.flatMap (·.2)).sum ∧ slot.sat = false ∧ slot.inv = false ∧
    ∀ (others : List (Nat × List Int)), others.Perm parts →
      others.foldl (fun a x => a.bufferAdd (Acc.addAll x.1 {} x.2)) {} = slot)

/-- A DOORBELL write of t: ignored where t ≤ TAIL; refused where t > ACK + RING_SIZE, with TAIL, HEAD and ACK unchanged, REFUSED set and
REFUSALS counted up; else TAIL := t, and REFUSED is cleared (R141, R142). -/
def Obligations.DoorbellRule : Prop :=
  ∀ (s : State) (tag queue v : Nat) (p : Pitch) (q : Queue), s.pitch? tag = some p → p.queue? queue = some q →
    q.closing = none → v < 2 ^ 64 →
    ∃ t p', exec (.doorbell tag queue v) s = .next t ∧ t.pitch? tag = some p' ∧ p'.queue? queue = some (
      if v ≤ q.tail then q
      else if v > q.ack + q.ringSize then
        { q with refused := true, refusals := if q.refusals < 0xFFFF then q.refusals + 1 else q.refusals }
      else { q with tail := v, refused := false })

/-- An ACK_WR write of a sets ACK to max(ACK, min(a, s0)) and ACK_CLAMPED where a > s0, and changes no other pointer; s0 is the lowest
sequence number from ACK on whose record is not written (R143). -/
def Obligations.AckRule : Prop :=
  (∀ (s : State) (tag queue a : Nat) (p : Pitch) (q : Queue), s.pitch? tag = some p → p.queue? queue = some q → a < 2 ^ 64 →
    ∃ t p' q', exec (.ackWr tag queue a) s = .next t ∧ t.pitch? tag = some p' ∧ p'.queue? queue = some q' ∧
      q'.ack = max q.ack (min a q.unrecorded) ∧ q'.ackClamped = decide (a > q.unrecorded) ∧ q'.head = q.head ∧ q'.tail = q.tail) ∧
  (∀ (q : Queue), q.ack ≤ q.unrecorded ∧ q.unrecorded ∉ q.recorded ∧
    ∀ n, q.ack ≤ n → n < q.unrecorded → n ∈ q.recorded)

/-- DOORBELL and ACK_WR keep ACK ≤ HEAD ≤ TAIL ≤ ACK + RING_SIZE, whatever is written (R140). -/
def Obligations.PointersStayOrdered : Prop :=
  ∀ (s : State) (tag queue v : Nat) (p : Pitch) (q : Queue), s.pitch? tag = some p → p.queue? queue = some q → q.Ordered →
    (∃ t p' q', exec (.doorbell tag queue v) s = .next t ∧ t.pitch? tag = some p' ∧ p'.queue? queue = some q' ∧ q'.Ordered) ∧
    (∃ t p' q', exec (.ackWr tag queue v) s = .next t ∧ t.pitch? tag = some p' ∧ p'.queue? queue = some q' ∧ q'.Ordered)

/-- A destination that passes the test of R69 stores no two strips of its valid box in one place. -/
def Obligations.DestinationsAreInjective : Prop :=
  ∀ (b : Bytes) (v w : List Int), (parseDesc b).injective = true → v ∈ (parseDesc b).boxStrips → w ∈ (parseDesc b).boxStrips →
    (parseDesc b).stripOff v = (parseDesc b).stripOff w → v = w

/-- A submitted request whose REQUEST_ID is in the mailbox's window is not executed again, does not count as outstanding and takes no
acceptance number (R382). -/
def Obligations.DuplicateIsNotExecuted : Prop :=
  ∀ (s : State) (m : Nat) (x : Submission) (e : WinEntry) (rest : List Nat), (s.box m).submitted = some x → s.ring.holding = false →
    s.ring.order = m :: rest →
    (m = 0 ∨ (s.boxesServe = true ∧ (s.box m).bound = some x.tag ∧ x.viaHost = true)) →
    (s.box m).window.find? (fun e => e.requestId = u64 x.bytes 8) = some e →
    ∃ t, exec (.requestSubmit m) s = .next t ∧ t.ring = { s.ring with order := rest } ∧ t.pitches = s.pitches ∧
      (t.box m).outstanding = (s.box m).outstanding ∧ (t.box m).submitted = none

/-- The log stays a ring of consecutive entries whatever command runs: a new entry takes the next sequence number at its end, and a reset
of the keeper domain starts an empty log anew. An ALERT also sets its group's bit and is the last alert (R411, R440); shown on the input
above 50.0 V (R402). -/
def Obligations.EventsAreConsecutive : Prop :=
  (∀ (c : Instr) (s t : State), s.log.Consecutive → exec c s = .next t → t.log.Consecutive) ∧
  (∀ (s t : State), s.log.Consecutive → step s = .next t → t.log.Consecutive) ∧
  (∀ (s : State) (mv : Nat), s.keepersRun = true → 50000 < mv → mv ≤ 56000 → s.log.Consecutive →
    ∃ t, exec (.overVoltage mv) s = .next t ∧ t.log.Consecutive ∧ t.log.next = s.log.next + 1 ∧
      t.log.entries.getLast? = some ⟨s.log.next, s.now, 0x0104, 2, noDie, noTag, mv⟩ ∧
      t.log.alertPend.getLsbD 1 = true ∧ t.log.lastAlert = s.log.next)

/-- A request frame of a pitch or a host, not to the host window, whose tag is not the tag of the die's pitch, and which is no
spoil-engine frame of the tag and home module of a set that the die is lent to, changes no memory, no pitch and nothing of a die but its count of foreign frames, and gets no answer; it leaves one event (R320). MSG frames go to a mailbox, whose check is R319. -/
def Obligations.ForeignFramesAreDiscarded : Prop :=
  ∀ (s : State) (die : Nat) (f : Frame), s.kpr.mod ≠ .keeperOnly → s.fab.assigned = true → isRequest f.typ = true → f.typ ≠ 4 → hostWindow f = false →
    (s.die die).sourceRoom f = true → s.overtakes f = false → f.srcKind ≠ 1 → f.srcKind ≠ 2 → s.dieTag? die ≠ some f.tag →
    (∀ l, s.dieLend? die = some l → ¬ (l.tag = f.tag ∧ l.homeModule = f.srcModule ∧ f.srcPort = 0xFF)) →
    ∃ t, exec (.e2eFrameDeliver die f) s = .next t ∧ t.mem = s.mem ∧ t.bad = s.bad ∧ t.pitches = s.pitches ∧
      t.dies = (s.updDie die fun d => { d with foreign := d.foreign + 1 }).dies ∧
      t.boxes = s.boxes ∧ t.ring = s.ring ∧ t.sent = s.sent ∧ t.log.next = s.log.next + 1

/-- A WRITE, ATOMIC or COLL_UP frame whose outcome its destination die still holds is not executed again: the stored response goes out
again and the source's entry is refreshed (R353), for frames to a die's memory and to the host window alike. -/
def Obligations.DuplicateFramesAreNotExecuted : Prop :=
  ∀ (s : State) (die : Nat) (f : Frame) (x : SourceState) (o : Nat × Frame), s.kpr.mod ≠ .keeperOnly → s.fab.assigned = true →
    f.typ = 1 ∨ f.typ = 3 ∨ f.typ = 5 → s.overtakes f = false →
    hostWindow f = true ∨ (s.tagOk die f = true ∧ s.suspendRefuses f = false) →
    (s.forwardDest f).filter (fun d => d / 2 ^ 43 != s.fab.moduleId * 32 + die) = none → (s.die die).source? f = some x →
    x.outcomes.find? (fun o => o.1 = f.txn) = some o →
    exec (.e2eFrameDeliver die f) s =
      .next ((s.updDie die fun d => d.seen f s.now).toRouter die ⟨o.2, false, s.now, none, false⟩)

/-- Once RST_LOCK is set no keeper frame clears it or makes a reset due, and a WRITE of RESET without its key makes none due (R436). -/
def Obligations.ResetLockHolds : Prop :=
  (∀ (c : Instr) (s t : State), isKeeperFrame c = true → exec c s = .next t → s.kpr.rstLock = true →
    t.kpr.rstLock = true ∧ t.kpr.resetDue = s.kpr.resetDue) ∧
  (∀ (s t : State) (ktag : Nat) (d : BitVec 32), (d >>> 16).toNat ≠ 0xA55A → exec (.reset ktag d) s = .next t →
    t.kpr.resetDue = s.kpr.resetDue)

/-- A READ of a _LO register latches the upper half: while no keeper frame changes the latches, the next READ of the _HI register
returns the upper half as it was at the first READ, and the one after it the live value (R435). -/
def Obligations.LatchedHalvesAreConsistent : Prop :=
  (∀ (s t u : State) (ktag addr : Nat), s.keepersRun = true → isLo addr = true → exec (.registerLoRead ktag addr) s = .next t →
    u.kpr.latches = t.kpr.latches → u.readReg (addr + 4) = BitVec.ofNat 32 (s.readLive (addr + 4))) ∧
  (∀ (s t u : State) (ktag addr : Nat), s.keepersRun = true → isLo addr = true → exec (.registerLoRead ktag (addr + 4)) s = .next t →
    u.kpr.latches = t.kpr.latches → u.readReg (addr + 4) = BitVec.ofNat 32 (u.readLive (addr + 4)))

/-- A refused submission is not accepted: it takes no acceptance number and does not count as outstanding. One with a foreign stamp
leaves an event; one above 64 outstanding commands sets REFUSED and counts in REFUSALS; an operator-only command from a pitch mailbox is
answered NOT_PERMITTED (R319, R373, R376, R378). -/
def Obligations.RefusedSubmissions : Prop :=
  (∀ (s : State) (m : Nat) (x : Submission) (rest : List Nat), (s.box m).submitted = some x → s.ring.holding = false → s.ring.order = m :: rest → s.boxesServe = true → m ≠ 0 →
    ¬ ((s.box m).bound = some x.tag ∧ x.viaHost = true) →
    ∃ t, exec (.requestSubmit m) s = .next t ∧ t.ring = { s.ring with order := rest } ∧
      t.pitches = s.pitches ∧ (t.box m).window = (s.box m).window ∧ (t.box m).outstanding = (s.box m).outstanding ∧ t.log.next = s.log.next + 1) ∧
  (∀ (s : State) (m : Nat) (x : Submission) (rest : List Nat), (s.box m).submitted = some x → s.ring.holding = false → s.ring.order = m :: rest →
    (m = 0 ∨ (s.boxesServe = true ∧ (s.box m).bound = some x.tag ∧ x.viaHost = true)) →
    (s.box m).window.find? (fun e => e.requestId = u64 x.bytes 8) = none → 64 ≤ (s.box m).outstanding →
    ∃ t, exec (.requestSubmit m) s = .next t ∧ t.ring = { s.ring with order := rest } ∧
      t.pitches = s.pitches ∧ (t.box m).window = (s.box m).window ∧ (t.box m).outstanding = (s.box m).outstanding ∧ (t.box m).refused = true ∧
      (t.box m).refusals = satInc (s.box m).refusals 0xFFFF) ∧
  (∀ (s u : State) (m : Nat) (x : Submission) (rest : List Nat), (s.box m).submitted = some x → s.ring.holding = false → s.ring.order = m :: rest → m ≠ 0 →
    (s.boxesServe = true ∧ (s.box m).bound = some x.tag ∧ x.viaHost = true) →
    (s.box m).window.find? (fun e => e.requestId = u64 x.bytes 8) = none → (s.box m).outstanding < 64 →
    headerOk x.bytes = true → catalogue (u16 x.bytes 0) = some 0 → 
    u = (s.updBox m fun b => { b with submitted := none }).setRing { s.ring with order := rest } →
    exec (.requestSubmit m) s = .next (u.refuseRequest m x stNotPermitted))

/-- BOOT does not make the module READY from a flash whose record says WRITING or whose image fails its checks; where the image passes,
its SVN is not below SVN_MIN, and it is the image that a READY module runs; and no firmware command lowers SVN_MIN (R384, R386, R389).
-/
def Obligations.OldFirmwareNeverRuns : Prop :=
  (∀ (s t : State), exec .boot s = .next t → s.kpr.mod ≠ .ready →
    s.fw.writing = true ∨ verifyImage s.fw (s.fw.flash.take s.fw.imageBytes) = none → t.kpr.mod ≠ .ready) ∧
  (∀ (s t : State) (i : Image), exec .boot s = .next t → s.kpr.mod ≠ .ready →
    verifyImage s.fw (s.fw.flash.take s.fw.imageBytes) = some i →
    s.fw.svnMin ≤ i.svn ∧ (t.kpr.mod = .ready → t.fw.running = some i)) ∧
  (∀ (c : Instr) (s t : State), isFirmware c = true → exec c s = .next t → s.fw.svnMin ≤ t.fw.svnMin)

/-- In SWAP, Gulper submits a descriptor of a step of the new epoch only while the gate of its package layer is open (R302): of the
descriptors that a step has not submitted, those up to the first one with a closed gate go to the queue of the instance, in order, and
the others wait. -/
def Obligations.GatesHoldDescriptors : Prop :=
  ∀ (p : Pitch) (model step : Nat) (m : Model) (t : TokStep) (q : Queue) (pl : Plan), p.model? model = some m →
    m.steps.find? (fun t => t.id = step) = some t → p.queue? (gulperQueue model) = some q → p.planOf? m.id = some pl →
    pl.stage = 3 → t.epoch = m.epoch →
    ∃ ws rest, t.todo = ws ++ rest ∧ (p.submitStep model step).queue? (gulperQueue model) = some (q.submitWork ws) ∧
      (∀ w ∈ ws, pl.gates.getD (layerOf pl.bounds w.index) true = true) ∧
      ∀ w, rest.head? = some w → pl.gates.getD (layerOf pl.bounds w.index) true = false
end

