-- ==== Sys2Proof/Laws/Memory.lean ====
section
/-! SUPPORT. The laws of memory: a read after a write, and that every memory operation keeps the canonical form. -/

namespace Sys2Proof.Machine

open Sys2Proof

/-- The canonical form in terms of the list: keys rise, no zero is listed. -/
theorem wf_iff (m : List Host.Cell) :
    Memory.wf m = true ↔ m.Pairwise (fun c d => c.1 < d.1) ∧ ∀ c ∈ m, c.2 ≠ 0 := by
  induction m with
  | nil => simp [Memory.wf]
  | cons c m ih =>
    cases m with
    | nil => simp [Memory.wf]
    | cons d m =>
      simp only [Memory.wf, Bool.and_eq_true, bne_iff_ne, ne_eq, decide_eq_true_eq, ih]
      constructor
      · rintro ⟨⟨h1, h2⟩, h3, h4⟩
        refine ⟨List.pairwise_cons.2 ⟨?_, h3⟩, ?_⟩
        · intro e he
          rcases List.mem_cons.1 he with rfl | he
          · exact h2
          · exact lt_trans h2 ((List.pairwise_cons.1 h3).1 e he)
        · intro e he
          rcases List.mem_cons.1 he with rfl | he
          · exact h1
          · exact h4 e he
      · rintro ⟨h1, h2⟩
        have h3 := List.pairwise_cons.1 h1
        exact ⟨⟨h2 c (by simp), h3.1 d (by simp)⟩, h3.2, fun e he => h2 e (List.mem_cons_of_mem _ he)⟩

theorem wf_nil : Memory.wf [] = true := rfl

/-- Entries left out keep the form. -/
theorem wf_filter {m : List Host.Cell} (h : Memory.wf m = true) (f : Host.Cell → Bool) : Memory.wf (m.filter f) = true := by
  rw [wf_iff] at h ⊢
  exact ⟨h.1.filter _, fun c hc => h.2 c (List.mem_filter.1 hc).1⟩

theorem wf_memClear {m : List Host.Cell} (h : Memory.wf m = true) (lo n : Nat) : Memory.wf (memClear m lo n) = true :=
  wf_filter h _

/-- A key that a write leaves listed is one listed before or the one written. -/
theorem mem_memSet {m : List Host.Cell} {a : Nat} {v : Byte} {c : Host.Cell} (hc : c ∈ memSet m a v) :
    c ∈ m ∨ (c = (a, v) ∧ v ≠ 0) := by
  induction m with
  | nil =>
    simp only [memSet] at hc
    split at hc <;> simp_all
  | cons d m ih =>
    obtain ⟨k, w⟩ := d
    simp only [memSet] at hc
    split at hc
    · split at hc
      · exact .inl hc
      · rcases List.mem_cons.1 hc with h | h
        · exact .inr ⟨h, by assumption⟩
        · exact .inl h
    · split at hc
      · split at hc
        · exact .inl (List.mem_cons_of_mem _ hc)
        · rcases List.mem_cons.1 hc with h | h
          · exact .inr ⟨h, by assumption⟩
          · exact .inl (List.mem_cons_of_mem _ h)
      · rcases List.mem_cons.1 hc with h | h
        · exact .inl (by simp [h])
        · exact (ih h).imp (List.mem_cons_of_mem _) id

/-- A byte written keeps the form. -/
theorem wf_memSet {m : List Host.Cell} (h : Memory.wf m = true) (a : Nat) (v : Byte) : Memory.wf (memSet m a v) = true := by
  rw [wf_iff] at h ⊢
  refine ⟨?_, ?_⟩
  · induction m with
    | nil => simp only [memSet]; split <;> simp
    | cons d m ih =>
      obtain ⟨k, w⟩ := d
      have h1 := List.pairwise_cons.1 h.1
      have h2 := ih ⟨h1.2, fun c hc => h.2 c (List.mem_cons_of_mem _ hc)⟩
      simp only [memSet]
      split
      · split
        · exact h.1
        · refine List.pairwise_cons.2 ⟨?_, h.1⟩
          intro c hc
          rcases List.mem_cons.1 hc with rfl | hc
          · assumption
          · exact lt_trans (by assumption) (h1.1 c hc)
      · split
        · split
          · exact h1.2
          · refine List.pairwise_cons.2 ⟨?_, h1.2⟩
            intro c hc
            have := h1.1 c hc
            simp_all
        · refine List.pairwise_cons.2 ⟨?_, h2⟩
          intro c hc
          rcases mem_memSet hc with h3 | ⟨rfl, -⟩
          · exact h1.1 c h3
          · simp; omega
  · intro c hc
    rcases mem_memSet hc with h3 | ⟨rfl, h4⟩
    · exact h.2 c h3
    · exact h4

theorem wf_memWrite {m : List Host.Cell} (h : Memory.wf m = true) (cs : List Host.Cell) : Memory.wf (memWrite m cs) = true := by
  induction cs generalizing m with
  | nil => exact h
  | cons c cs ih => exact ih (wf_memSet h c.1 c.2)

theorem wf_memTurn {m : List Host.Cell} (h : Memory.wf m = true) (a b c n : Nat) : Memory.wf (memTurn m a b c n) = true :=
  wf_memWrite (wf_memWrite (wf_memClear (wf_memClear (wf_memClear h a n) b n) c n) _) _

theorem wf_foldClear {m : List Host.Cell} (h : Memory.wf m = true) (rs : List (Nat × Nat)) :
    Memory.wf (rs.foldl (fun m r => memClear m r.1 r.2) m) = true := by
  induction rs generalizing m with
  | nil => exact h
  | cons r rs ih => exact ih (wf_memClear h r.1 r.2)

theorem wf_moveRanges {m : List Host.Cell} (h : Memory.wf m = true) (olds news : List (Nat × Nat)) :
    Memory.wf (moveRanges m olds news) = true := wf_memWrite (wf_foldClear h _) _

theorem wf_keptMem {m : List Host.Cell} (h : Memory.wf m = true) : Memory.wf (keptMem m) = true := wf_filter h _

/-- In the canonical form a byte reads as its entry, or as zero. -/
theorem memGet_of_lt {m : List Host.Cell} {a : Nat} (h : ∀ c ∈ m, a < c.1) : memGet m a = 0 := by
  cases m with
  | nil => rfl
  | cons c m =>
    obtain ⟨k, v⟩ := c
    have := h (k, v) (by simp)
    have h1 : k ≠ a := by simp at this; omega
    have h2 : a < k := by simpa using this
    simp [memGet, h1, h2]

/-- A read after a write of one byte. -/
theorem memGet_memSet {m : List Host.Cell} (h : Memory.wf m = true) (a b : Nat) (v : Byte) :
    memGet (memSet m a v) b = if b = a then v else memGet m b := by
  induction m with
  | nil =>
    simp only [memSet]
    split
    · subst v; split <;> simp [memGet]
    · simp only [memGet]
      by_cases hab : a = b
      · simp [hab]
      · have : b ≠ a := fun h => hab h.symm
        simp [hab, this]
  | cons d m ih =>
    obtain ⟨k, w⟩ := d
    have hw := (wf_iff _).1 h
    have h1 := List.pairwise_cons.1 hw.1
    have hm : Memory.wf m = true := (wf_iff _).2 ⟨h1.2, fun c hc => hw.2 c (List.mem_cons_of_mem _ hc)⟩
    have hlow : memGet m k = 0 := memGet_of_lt h1.1
    simp only [memSet]
    split
    · split
      · subst v
        by_cases hb : b = a
        · subst hb; simp only [if_true, memGet]; rw [if_neg (by omega), if_pos (by assumption)]
        · simp [hb]
      · simp only [memGet]
        by_cases hb : b = a
        · subst hb; simp
        · rw [if_neg (fun h => hb h.symm), if_neg hb]
          by_cases h3 : b < a
          · rw [if_pos h3, if_neg (by omega), if_pos (by omega)]
          · rw [if_neg h3]
    · split
      · have hak : a = k := by assumption
        subst hak
        split
        · subst v
          by_cases hb : b = a
          · subst hb; simp [hlow]
          · rw [if_neg hb]
            simp only [memGet]
            rw [if_neg (fun h => hb h.symm)]
            split
            · exact memGet_of_lt fun c hc => lt_trans (by assumption) (h1.1 c hc)
            · rfl
        · simp only [memGet]
          by_cases hb : b = a
          · subst hb; simp
          · have hab : ¬ a = b := fun h => hb h.symm
            simp only [if_neg hb, if_neg hab]
      · simp only [memGet, ih hm]
        by_cases hb : b = a
        · subst hb; rw [if_neg (by omega), if_neg (by omega)]; simp
        · simp only [if_neg hb]

/-- A byte that a write does not name reads as before. -/
theorem memGet_memWrite_other {m : List Host.Cell} (h : Memory.wf m = true) (cs : List Host.Cell) (b : Nat)
    (hb : ∀ c ∈ cs, c.1 ≠ b) : memGet (memWrite m cs) b = memGet m b := by
  induction cs generalizing m with
  | nil => rfl
  | cons c cs ih =>
    have h1 : b ≠ c.1 := fun h => hb c (by simp) h.symm
    show memGet (memWrite (memSet m c.1 c.2) cs) b = _
    rw [ih (wf_memSet h _ _) fun d hd => hb d (List.mem_cons_of_mem _ hd), memGet_memSet h, if_neg h1]

/-- Memory after reset, which lists nothing, is canonical. -/
theorem wf_reset : Memory.wf State.reset.mem = true := rfl

end Sys2Proof.Machine
end

