-- ==== Sys2Proof/Laws/State.lean ====
section
/-! SUPPORT. One lemma per updater of `State` and field: what an update leaves, and the field that it writes. -/

namespace Sys2Proof.Machine

open Sys2Proof

/-! `State.setMem` -/

@[simp] theorem setMem_pending (s : State) (m : List Host.Cell) : (s.setMem m).pending = s.pending := rfl
@[simp] theorem setMem_mem (s : State) (m : List Host.Cell) : (s.setMem m).mem = m := rfl
@[simp] theorem setMem_bad (s : State) (m : List Host.Cell) : (s.setMem m).bad = s.bad := rfl
@[simp] theorem setMem_dies (s : State) (m : List Host.Cell) : (s.setMem m).dies = s.dies := rfl
@[simp] theorem setMem_ports (s : State) (m : List Host.Cell) : (s.setMem m).ports = s.ports := rfl
@[simp] theorem setMem_fab (s : State) (m : List Host.Cell) : (s.setMem m).fab = s.fab := rfl
@[simp] theorem setMem_pitches (s : State) (m : List Host.Cell) : (s.setMem m).pitches = s.pitches := rfl
@[simp] theorem setMem_lends (s : State) (m : List Host.Cell) : (s.setMem m).lends = s.lends := rfl
@[simp] theorem setMem_boxes (s : State) (m : List Host.Cell) : (s.setMem m).boxes = s.boxes := rfl
@[simp] theorem setMem_mbx0 (s : State) (m : List Host.Cell) : (s.setMem m).mbx0 = s.mbx0 := rfl
@[simp] theorem setMem_ring (s : State) (m : List Host.Cell) : (s.setMem m).ring = s.ring := rfl
@[simp] theorem setMem_fw (s : State) (m : List Host.Cell) : (s.setMem m).fw = s.fw := rfl
@[simp] theorem setMem_power (s : State) (m : List Host.Cell) : (s.setMem m).power = s.power := rfl
@[simp] theorem setMem_kpr (s : State) (m : List Host.Cell) : (s.setMem m).kpr = s.kpr := rfl
@[simp] theorem setMem_log (s : State) (m : List Host.Cell) : (s.setMem m).log = s.log := rfl
@[simp] theorem setMem_tests (s : State) (m : List Host.Cell) : (s.setMem m).tests = s.tests := rfl
@[simp] theorem setMem_eeprom (s : State) (m : List Host.Cell) : (s.setMem m).eeprom = s.eeprom := rfl
@[simp] theorem setMem_tap (s : State) (m : List Host.Cell) : (s.setMem m).tap = s.tap := rfl
@[simp] theorem setMem_sent (s : State) (m : List Host.Cell) : (s.setMem m).sent = s.sent := rfl
@[simp] theorem setMem_free (s : State) (m : List Host.Cell) : (s.setMem m).free = s.free := rfl

/-! `State.setBad` -/

@[simp] theorem setBad_pending (s : State) (b : List Nat) : (s.setBad b).pending = s.pending := rfl
@[simp] theorem setBad_mem (s : State) (b : List Nat) : (s.setBad b).mem = s.mem := rfl
@[simp] theorem setBad_bad (s : State) (b : List Nat) : (s.setBad b).bad = b := rfl
@[simp] theorem setBad_dies (s : State) (b : List Nat) : (s.setBad b).dies = s.dies := rfl
@[simp] theorem setBad_ports (s : State) (b : List Nat) : (s.setBad b).ports = s.ports := rfl
@[simp] theorem setBad_fab (s : State) (b : List Nat) : (s.setBad b).fab = s.fab := rfl
@[simp] theorem setBad_pitches (s : State) (b : List Nat) : (s.setBad b).pitches = s.pitches := rfl
@[simp] theorem setBad_lends (s : State) (b : List Nat) : (s.setBad b).lends = s.lends := rfl
@[simp] theorem setBad_boxes (s : State) (b : List Nat) : (s.setBad b).boxes = s.boxes := rfl
@[simp] theorem setBad_mbx0 (s : State) (b : List Nat) : (s.setBad b).mbx0 = s.mbx0 := rfl
@[simp] theorem setBad_ring (s : State) (b : List Nat) : (s.setBad b).ring = s.ring := rfl
@[simp] theorem setBad_fw (s : State) (b : List Nat) : (s.setBad b).fw = s.fw := rfl
@[simp] theorem setBad_power (s : State) (b : List Nat) : (s.setBad b).power = s.power := rfl
@[simp] theorem setBad_kpr (s : State) (b : List Nat) : (s.setBad b).kpr = s.kpr := rfl
@[simp] theorem setBad_log (s : State) (b : List Nat) : (s.setBad b).log = s.log := rfl
@[simp] theorem setBad_tests (s : State) (b : List Nat) : (s.setBad b).tests = s.tests := rfl
@[simp] theorem setBad_eeprom (s : State) (b : List Nat) : (s.setBad b).eeprom = s.eeprom := rfl
@[simp] theorem setBad_tap (s : State) (b : List Nat) : (s.setBad b).tap = s.tap := rfl
@[simp] theorem setBad_sent (s : State) (b : List Nat) : (s.setBad b).sent = s.sent := rfl
@[simp] theorem setBad_free (s : State) (b : List Nat) : (s.setBad b).free = s.free := rfl

/-! `State.setDies` -/

@[simp] theorem setDies_pending (s : State) (d : List Die) : (s.setDies d).pending = s.pending := rfl
@[simp] theorem setDies_mem (s : State) (d : List Die) : (s.setDies d).mem = s.mem := rfl
@[simp] theorem setDies_bad (s : State) (d : List Die) : (s.setDies d).bad = s.bad := rfl
@[simp] theorem setDies_dies (s : State) (d : List Die) : (s.setDies d).dies = d := rfl
@[simp] theorem setDies_ports (s : State) (d : List Die) : (s.setDies d).ports = s.ports := rfl
@[simp] theorem setDies_fab (s : State) (d : List Die) : (s.setDies d).fab = s.fab := rfl
@[simp] theorem setDies_pitches (s : State) (d : List Die) : (s.setDies d).pitches = s.pitches := rfl
@[simp] theorem setDies_lends (s : State) (d : List Die) : (s.setDies d).lends = s.lends := rfl
@[simp] theorem setDies_boxes (s : State) (d : List Die) : (s.setDies d).boxes = s.boxes := rfl
@[simp] theorem setDies_mbx0 (s : State) (d : List Die) : (s.setDies d).mbx0 = s.mbx0 := rfl
@[simp] theorem setDies_ring (s : State) (d : List Die) : (s.setDies d).ring = s.ring := rfl
@[simp] theorem setDies_fw (s : State) (d : List Die) : (s.setDies d).fw = s.fw := rfl
@[simp] theorem setDies_power (s : State) (d : List Die) : (s.setDies d).power = s.power := rfl
@[simp] theorem setDies_kpr (s : State) (d : List Die) : (s.setDies d).kpr = s.kpr := rfl
@[simp] theorem setDies_log (s : State) (d : List Die) : (s.setDies d).log = s.log := rfl
@[simp] theorem setDies_tests (s : State) (d : List Die) : (s.setDies d).tests = s.tests := rfl
@[simp] theorem setDies_eeprom (s : State) (d : List Die) : (s.setDies d).eeprom = s.eeprom := rfl
@[simp] theorem setDies_tap (s : State) (d : List Die) : (s.setDies d).tap = s.tap := rfl
@[simp] theorem setDies_sent (s : State) (d : List Die) : (s.setDies d).sent = s.sent := rfl
@[simp] theorem setDies_free (s : State) (d : List Die) : (s.setDies d).free = s.free := rfl

/-! `State.setPorts` -/

@[simp] theorem setPorts_pending (s : State) (p : List Port) : (s.setPorts p).pending = s.pending := rfl
@[simp] theorem setPorts_mem (s : State) (p : List Port) : (s.setPorts p).mem = s.mem := rfl
@[simp] theorem setPorts_bad (s : State) (p : List Port) : (s.setPorts p).bad = s.bad := rfl
@[simp] theorem setPorts_dies (s : State) (p : List Port) : (s.setPorts p).dies = s.dies := rfl
@[simp] theorem setPorts_ports (s : State) (p : List Port) : (s.setPorts p).ports = p := rfl
@[simp] theorem setPorts_fab (s : State) (p : List Port) : (s.setPorts p).fab = s.fab := rfl
@[simp] theorem setPorts_pitches (s : State) (p : List Port) : (s.setPorts p).pitches = s.pitches := rfl
@[simp] theorem setPorts_lends (s : State) (p : List Port) : (s.setPorts p).lends = s.lends := rfl
@[simp] theorem setPorts_boxes (s : State) (p : List Port) : (s.setPorts p).boxes = s.boxes := rfl
@[simp] theorem setPorts_mbx0 (s : State) (p : List Port) : (s.setPorts p).mbx0 = s.mbx0 := rfl
@[simp] theorem setPorts_ring (s : State) (p : List Port) : (s.setPorts p).ring = s.ring := rfl
@[simp] theorem setPorts_fw (s : State) (p : List Port) : (s.setPorts p).fw = s.fw := rfl
@[simp] theorem setPorts_power (s : State) (p : List Port) : (s.setPorts p).power = s.power := rfl
@[simp] theorem setPorts_kpr (s : State) (p : List Port) : (s.setPorts p).kpr = s.kpr := rfl
@[simp] theorem setPorts_log (s : State) (p : List Port) : (s.setPorts p).log = s.log := rfl
@[simp] theorem setPorts_tests (s : State) (p : List Port) : (s.setPorts p).tests = s.tests := rfl
@[simp] theorem setPorts_eeprom (s : State) (p : List Port) : (s.setPorts p).eeprom = s.eeprom := rfl
@[simp] theorem setPorts_tap (s : State) (p : List Port) : (s.setPorts p).tap = s.tap := rfl
@[simp] theorem setPorts_sent (s : State) (p : List Port) : (s.setPorts p).sent = s.sent := rfl
@[simp] theorem setPorts_free (s : State) (p : List Port) : (s.setPorts p).free = s.free := rfl

/-! `State.setFab` -/

@[simp] theorem setFab_pending (s : State) (f : Fabric) : (s.setFab f).pending = s.pending := rfl
@[simp] theorem setFab_mem (s : State) (f : Fabric) : (s.setFab f).mem = s.mem := rfl
@[simp] theorem setFab_bad (s : State) (f : Fabric) : (s.setFab f).bad = s.bad := rfl
@[simp] theorem setFab_dies (s : State) (f : Fabric) : (s.setFab f).dies = s.dies := rfl
@[simp] theorem setFab_ports (s : State) (f : Fabric) : (s.setFab f).ports = s.ports := rfl
@[simp] theorem setFab_fab (s : State) (f : Fabric) : (s.setFab f).fab = f := rfl
@[simp] theorem setFab_pitches (s : State) (f : Fabric) : (s.setFab f).pitches = s.pitches := rfl
@[simp] theorem setFab_lends (s : State) (f : Fabric) : (s.setFab f).lends = s.lends := rfl
@[simp] theorem setFab_boxes (s : State) (f : Fabric) : (s.setFab f).boxes = s.boxes := rfl
@[simp] theorem setFab_mbx0 (s : State) (f : Fabric) : (s.setFab f).mbx0 = s.mbx0 := rfl
@[simp] theorem setFab_ring (s : State) (f : Fabric) : (s.setFab f).ring = s.ring := rfl
@[simp] theorem setFab_fw (s : State) (f : Fabric) : (s.setFab f).fw = s.fw := rfl
@[simp] theorem setFab_power (s : State) (f : Fabric) : (s.setFab f).power = s.power := rfl
@[simp] theorem setFab_kpr (s : State) (f : Fabric) : (s.setFab f).kpr = s.kpr := rfl
@[simp] theorem setFab_log (s : State) (f : Fabric) : (s.setFab f).log = s.log := rfl
@[simp] theorem setFab_tests (s : State) (f : Fabric) : (s.setFab f).tests = s.tests := rfl
@[simp] theorem setFab_eeprom (s : State) (f : Fabric) : (s.setFab f).eeprom = s.eeprom := rfl
@[simp] theorem setFab_tap (s : State) (f : Fabric) : (s.setFab f).tap = s.tap := rfl
@[simp] theorem setFab_sent (s : State) (f : Fabric) : (s.setFab f).sent = s.sent := rfl
@[simp] theorem setFab_free (s : State) (f : Fabric) : (s.setFab f).free = s.free := rfl

/-! `State.setPitches` -/

@[simp] theorem setPitches_pending (s : State) (p : List Pitch) : (s.setPitches p).pending = s.pending := rfl
@[simp] theorem setPitches_mem (s : State) (p : List Pitch) : (s.setPitches p).mem = s.mem := rfl
@[simp] theorem setPitches_bad (s : State) (p : List Pitch) : (s.setPitches p).bad = s.bad := rfl
@[simp] theorem setPitches_dies (s : State) (p : List Pitch) : (s.setPitches p).dies = s.dies := rfl
@[simp] theorem setPitches_ports (s : State) (p : List Pitch) : (s.setPitches p).ports = s.ports := rfl
@[simp] theorem setPitches_fab (s : State) (p : List Pitch) : (s.setPitches p).fab = s.fab := rfl
@[simp] theorem setPitches_pitches (s : State) (p : List Pitch) : (s.setPitches p).pitches = p := rfl
@[simp] theorem setPitches_lends (s : State) (p : List Pitch) : (s.setPitches p).lends = s.lends := rfl
@[simp] theorem setPitches_boxes (s : State) (p : List Pitch) : (s.setPitches p).boxes = s.boxes := rfl
@[simp] theorem setPitches_mbx0 (s : State) (p : List Pitch) : (s.setPitches p).mbx0 = s.mbx0 := rfl
@[simp] theorem setPitches_ring (s : State) (p : List Pitch) : (s.setPitches p).ring = s.ring := rfl
@[simp] theorem setPitches_fw (s : State) (p : List Pitch) : (s.setPitches p).fw = s.fw := rfl
@[simp] theorem setPitches_power (s : State) (p : List Pitch) : (s.setPitches p).power = s.power := rfl
@[simp] theorem setPitches_kpr (s : State) (p : List Pitch) : (s.setPitches p).kpr = s.kpr := rfl
@[simp] theorem setPitches_log (s : State) (p : List Pitch) : (s.setPitches p).log = s.log := rfl
@[simp] theorem setPitches_tests (s : State) (p : List Pitch) : (s.setPitches p).tests = s.tests := rfl
@[simp] theorem setPitches_eeprom (s : State) (p : List Pitch) : (s.setPitches p).eeprom = s.eeprom := rfl
@[simp] theorem setPitches_tap (s : State) (p : List Pitch) : (s.setPitches p).tap = s.tap := rfl
@[simp] theorem setPitches_sent (s : State) (p : List Pitch) : (s.setPitches p).sent = s.sent := rfl
@[simp] theorem setPitches_free (s : State) (p : List Pitch) : (s.setPitches p).free = s.free := rfl

/-! `State.setLends` -/

@[simp] theorem setLends_pending (s : State) (l : List Lend) : (s.setLends l).pending = s.pending := rfl
@[simp] theorem setLends_mem (s : State) (l : List Lend) : (s.setLends l).mem = s.mem := rfl
@[simp] theorem setLends_bad (s : State) (l : List Lend) : (s.setLends l).bad = s.bad := rfl
@[simp] theorem setLends_dies (s : State) (l : List Lend) : (s.setLends l).dies = s.dies := rfl
@[simp] theorem setLends_ports (s : State) (l : List Lend) : (s.setLends l).ports = s.ports := rfl
@[simp] theorem setLends_fab (s : State) (l : List Lend) : (s.setLends l).fab = s.fab := rfl
@[simp] theorem setLends_pitches (s : State) (l : List Lend) : (s.setLends l).pitches = s.pitches := rfl
@[simp] theorem setLends_lends (s : State) (l : List Lend) : (s.setLends l).lends = l := rfl
@[simp] theorem setLends_boxes (s : State) (l : List Lend) : (s.setLends l).boxes = s.boxes := rfl
@[simp] theorem setLends_mbx0 (s : State) (l : List Lend) : (s.setLends l).mbx0 = s.mbx0 := rfl
@[simp] theorem setLends_ring (s : State) (l : List Lend) : (s.setLends l).ring = s.ring := rfl
@[simp] theorem setLends_fw (s : State) (l : List Lend) : (s.setLends l).fw = s.fw := rfl
@[simp] theorem setLends_power (s : State) (l : List Lend) : (s.setLends l).power = s.power := rfl
@[simp] theorem setLends_kpr (s : State) (l : List Lend) : (s.setLends l).kpr = s.kpr := rfl
@[simp] theorem setLends_log (s : State) (l : List Lend) : (s.setLends l).log = s.log := rfl
@[simp] theorem setLends_tests (s : State) (l : List Lend) : (s.setLends l).tests = s.tests := rfl
@[simp] theorem setLends_eeprom (s : State) (l : List Lend) : (s.setLends l).eeprom = s.eeprom := rfl
@[simp] theorem setLends_tap (s : State) (l : List Lend) : (s.setLends l).tap = s.tap := rfl
@[simp] theorem setLends_sent (s : State) (l : List Lend) : (s.setLends l).sent = s.sent := rfl
@[simp] theorem setLends_free (s : State) (l : List Lend) : (s.setLends l).free = s.free := rfl

/-! `State.setBoxes` -/

@[simp] theorem setBoxes_pending (s : State) (b : List Mailbox) : (s.setBoxes b).pending = s.pending := rfl
@[simp] theorem setBoxes_mem (s : State) (b : List Mailbox) : (s.setBoxes b).mem = s.mem := rfl
@[simp] theorem setBoxes_bad (s : State) (b : List Mailbox) : (s.setBoxes b).bad = s.bad := rfl
@[simp] theorem setBoxes_dies (s : State) (b : List Mailbox) : (s.setBoxes b).dies = s.dies := rfl
@[simp] theorem setBoxes_ports (s : State) (b : List Mailbox) : (s.setBoxes b).ports = s.ports := rfl
@[simp] theorem setBoxes_fab (s : State) (b : List Mailbox) : (s.setBoxes b).fab = s.fab := rfl
@[simp] theorem setBoxes_pitches (s : State) (b : List Mailbox) : (s.setBoxes b).pitches = s.pitches := rfl
@[simp] theorem setBoxes_lends (s : State) (b : List Mailbox) : (s.setBoxes b).lends = s.lends := rfl
@[simp] theorem setBoxes_boxes (s : State) (b : List Mailbox) : (s.setBoxes b).boxes = b := rfl
@[simp] theorem setBoxes_mbx0 (s : State) (b : List Mailbox) : (s.setBoxes b).mbx0 = s.mbx0 := rfl
@[simp] theorem setBoxes_ring (s : State) (b : List Mailbox) : (s.setBoxes b).ring = s.ring := rfl
@[simp] theorem setBoxes_fw (s : State) (b : List Mailbox) : (s.setBoxes b).fw = s.fw := rfl
@[simp] theorem setBoxes_power (s : State) (b : List Mailbox) : (s.setBoxes b).power = s.power := rfl
@[simp] theorem setBoxes_kpr (s : State) (b : List Mailbox) : (s.setBoxes b).kpr = s.kpr := rfl
@[simp] theorem setBoxes_log (s : State) (b : List Mailbox) : (s.setBoxes b).log = s.log := rfl
@[simp] theorem setBoxes_tests (s : State) (b : List Mailbox) : (s.setBoxes b).tests = s.tests := rfl
@[simp] theorem setBoxes_eeprom (s : State) (b : List Mailbox) : (s.setBoxes b).eeprom = s.eeprom := rfl
@[simp] theorem setBoxes_tap (s : State) (b : List Mailbox) : (s.setBoxes b).tap = s.tap := rfl
@[simp] theorem setBoxes_sent (s : State) (b : List Mailbox) : (s.setBoxes b).sent = s.sent := rfl
@[simp] theorem setBoxes_free (s : State) (b : List Mailbox) : (s.setBoxes b).free = s.free := rfl

/-! `State.setMbx0` -/

@[simp] theorem setMbx0_pending (s : State) (m : Mbx0) : (s.setMbx0 m).pending = s.pending := rfl
@[simp] theorem setMbx0_mem (s : State) (m : Mbx0) : (s.setMbx0 m).mem = s.mem := rfl
@[simp] theorem setMbx0_bad (s : State) (m : Mbx0) : (s.setMbx0 m).bad = s.bad := rfl
@[simp] theorem setMbx0_dies (s : State) (m : Mbx0) : (s.setMbx0 m).dies = s.dies := rfl
@[simp] theorem setMbx0_ports (s : State) (m : Mbx0) : (s.setMbx0 m).ports = s.ports := rfl
@[simp] theorem setMbx0_fab (s : State) (m : Mbx0) : (s.setMbx0 m).fab = s.fab := rfl
@[simp] theorem setMbx0_pitches (s : State) (m : Mbx0) : (s.setMbx0 m).pitches = s.pitches := rfl
@[simp] theorem setMbx0_lends (s : State) (m : Mbx0) : (s.setMbx0 m).lends = s.lends := rfl
@[simp] theorem setMbx0_boxes (s : State) (m : Mbx0) : (s.setMbx0 m).boxes = s.boxes := rfl
@[simp] theorem setMbx0_mbx0 (s : State) (m : Mbx0) : (s.setMbx0 m).mbx0 = m := rfl
@[simp] theorem setMbx0_ring (s : State) (m : Mbx0) : (s.setMbx0 m).ring = s.ring := rfl
@[simp] theorem setMbx0_fw (s : State) (m : Mbx0) : (s.setMbx0 m).fw = s.fw := rfl
@[simp] theorem setMbx0_power (s : State) (m : Mbx0) : (s.setMbx0 m).power = s.power := rfl
@[simp] theorem setMbx0_kpr (s : State) (m : Mbx0) : (s.setMbx0 m).kpr = s.kpr := rfl
@[simp] theorem setMbx0_log (s : State) (m : Mbx0) : (s.setMbx0 m).log = s.log := rfl
@[simp] theorem setMbx0_tests (s : State) (m : Mbx0) : (s.setMbx0 m).tests = s.tests := rfl
@[simp] theorem setMbx0_eeprom (s : State) (m : Mbx0) : (s.setMbx0 m).eeprom = s.eeprom := rfl
@[simp] theorem setMbx0_tap (s : State) (m : Mbx0) : (s.setMbx0 m).tap = s.tap := rfl
@[simp] theorem setMbx0_sent (s : State) (m : Mbx0) : (s.setMbx0 m).sent = s.sent := rfl
@[simp] theorem setMbx0_free (s : State) (m : Mbx0) : (s.setMbx0 m).free = s.free := rfl

/-! `State.setRing` -/

@[simp] theorem setRing_pending (s : State) (r : Ringmaster) : (s.setRing r).pending = s.pending := rfl
@[simp] theorem setRing_mem (s : State) (r : Ringmaster) : (s.setRing r).mem = s.mem := rfl
@[simp] theorem setRing_bad (s : State) (r : Ringmaster) : (s.setRing r).bad = s.bad := rfl
@[simp] theorem setRing_dies (s : State) (r : Ringmaster) : (s.setRing r).dies = s.dies := rfl
@[simp] theorem setRing_ports (s : State) (r : Ringmaster) : (s.setRing r).ports = s.ports := rfl
@[simp] theorem setRing_fab (s : State) (r : Ringmaster) : (s.setRing r).fab = s.fab := rfl
@[simp] theorem setRing_pitches (s : State) (r : Ringmaster) : (s.setRing r).pitches = s.pitches := rfl
@[simp] theorem setRing_lends (s : State) (r : Ringmaster) : (s.setRing r).lends = s.lends := rfl
@[simp] theorem setRing_boxes (s : State) (r : Ringmaster) : (s.setRing r).boxes = s.boxes := rfl
@[simp] theorem setRing_mbx0 (s : State) (r : Ringmaster) : (s.setRing r).mbx0 = s.mbx0 := rfl
@[simp] theorem setRing_ring (s : State) (r : Ringmaster) : (s.setRing r).ring = r := rfl
@[simp] theorem setRing_fw (s : State) (r : Ringmaster) : (s.setRing r).fw = s.fw := rfl
@[simp] theorem setRing_power (s : State) (r : Ringmaster) : (s.setRing r).power = s.power := rfl
@[simp] theorem setRing_kpr (s : State) (r : Ringmaster) : (s.setRing r).kpr = s.kpr := rfl
@[simp] theorem setRing_log (s : State) (r : Ringmaster) : (s.setRing r).log = s.log := rfl
@[simp] theorem setRing_tests (s : State) (r : Ringmaster) : (s.setRing r).tests = s.tests := rfl
@[simp] theorem setRing_eeprom (s : State) (r : Ringmaster) : (s.setRing r).eeprom = s.eeprom := rfl
@[simp] theorem setRing_tap (s : State) (r : Ringmaster) : (s.setRing r).tap = s.tap := rfl
@[simp] theorem setRing_sent (s : State) (r : Ringmaster) : (s.setRing r).sent = s.sent := rfl
@[simp] theorem setRing_free (s : State) (r : Ringmaster) : (s.setRing r).free = s.free := rfl

/-! `State.setFw` -/

@[simp] theorem setFw_pending (s : State) (f : Firmware) : (s.setFw f).pending = s.pending := rfl
@[simp] theorem setFw_mem (s : State) (f : Firmware) : (s.setFw f).mem = s.mem := rfl
@[simp] theorem setFw_bad (s : State) (f : Firmware) : (s.setFw f).bad = s.bad := rfl
@[simp] theorem setFw_dies (s : State) (f : Firmware) : (s.setFw f).dies = s.dies := rfl
@[simp] theorem setFw_ports (s : State) (f : Firmware) : (s.setFw f).ports = s.ports := rfl
@[simp] theorem setFw_fab (s : State) (f : Firmware) : (s.setFw f).fab = s.fab := rfl
@[simp] theorem setFw_pitches (s : State) (f : Firmware) : (s.setFw f).pitches = s.pitches := rfl
@[simp] theorem setFw_lends (s : State) (f : Firmware) : (s.setFw f).lends = s.lends := rfl
@[simp] theorem setFw_boxes (s : State) (f : Firmware) : (s.setFw f).boxes = s.boxes := rfl
@[simp] theorem setFw_mbx0 (s : State) (f : Firmware) : (s.setFw f).mbx0 = s.mbx0 := rfl
@[simp] theorem setFw_ring (s : State) (f : Firmware) : (s.setFw f).ring = s.ring := rfl
@[simp] theorem setFw_fw (s : State) (f : Firmware) : (s.setFw f).fw = f := rfl
@[simp] theorem setFw_power (s : State) (f : Firmware) : (s.setFw f).power = s.power := rfl
@[simp] theorem setFw_kpr (s : State) (f : Firmware) : (s.setFw f).kpr = s.kpr := rfl
@[simp] theorem setFw_log (s : State) (f : Firmware) : (s.setFw f).log = s.log := rfl
@[simp] theorem setFw_tests (s : State) (f : Firmware) : (s.setFw f).tests = s.tests := rfl
@[simp] theorem setFw_eeprom (s : State) (f : Firmware) : (s.setFw f).eeprom = s.eeprom := rfl
@[simp] theorem setFw_tap (s : State) (f : Firmware) : (s.setFw f).tap = s.tap := rfl
@[simp] theorem setFw_sent (s : State) (f : Firmware) : (s.setFw f).sent = s.sent := rfl
@[simp] theorem setFw_free (s : State) (f : Firmware) : (s.setFw f).free = s.free := rfl

/-! `State.setPower` -/

@[simp] theorem setPower_pending (s : State) (p : Power) : (s.setPower p).pending = s.pending := rfl
@[simp] theorem setPower_mem (s : State) (p : Power) : (s.setPower p).mem = s.mem := rfl
@[simp] theorem setPower_bad (s : State) (p : Power) : (s.setPower p).bad = s.bad := rfl
@[simp] theorem setPower_dies (s : State) (p : Power) : (s.setPower p).dies = s.dies := rfl
@[simp] theorem setPower_ports (s : State) (p : Power) : (s.setPower p).ports = s.ports := rfl
@[simp] theorem setPower_fab (s : State) (p : Power) : (s.setPower p).fab = s.fab := rfl
@[simp] theorem setPower_pitches (s : State) (p : Power) : (s.setPower p).pitches = s.pitches := rfl
@[simp] theorem setPower_lends (s : State) (p : Power) : (s.setPower p).lends = s.lends := rfl
@[simp] theorem setPower_boxes (s : State) (p : Power) : (s.setPower p).boxes = s.boxes := rfl
@[simp] theorem setPower_mbx0 (s : State) (p : Power) : (s.setPower p).mbx0 = s.mbx0 := rfl
@[simp] theorem setPower_ring (s : State) (p : Power) : (s.setPower p).ring = s.ring := rfl
@[simp] theorem setPower_fw (s : State) (p : Power) : (s.setPower p).fw = s.fw := rfl
@[simp] theorem setPower_power (s : State) (p : Power) : (s.setPower p).power = p := rfl
@[simp] theorem setPower_kpr (s : State) (p : Power) : (s.setPower p).kpr = s.kpr := rfl
@[simp] theorem setPower_log (s : State) (p : Power) : (s.setPower p).log = s.log := rfl
@[simp] theorem setPower_tests (s : State) (p : Power) : (s.setPower p).tests = s.tests := rfl
@[simp] theorem setPower_eeprom (s : State) (p : Power) : (s.setPower p).eeprom = s.eeprom := rfl
@[simp] theorem setPower_tap (s : State) (p : Power) : (s.setPower p).tap = s.tap := rfl
@[simp] theorem setPower_sent (s : State) (p : Power) : (s.setPower p).sent = s.sent := rfl
@[simp] theorem setPower_free (s : State) (p : Power) : (s.setPower p).free = s.free := rfl

/-! `State.setKpr` -/

@[simp] theorem setKpr_pending (s : State) (k : Keeper) : (s.setKpr k).pending = s.pending := rfl
@[simp] theorem setKpr_mem (s : State) (k : Keeper) : (s.setKpr k).mem = s.mem := rfl
@[simp] theorem setKpr_bad (s : State) (k : Keeper) : (s.setKpr k).bad = s.bad := rfl
@[simp] theorem setKpr_dies (s : State) (k : Keeper) : (s.setKpr k).dies = s.dies := rfl
@[simp] theorem setKpr_ports (s : State) (k : Keeper) : (s.setKpr k).ports = s.ports := rfl
@[simp] theorem setKpr_fab (s : State) (k : Keeper) : (s.setKpr k).fab = s.fab := rfl
@[simp] theorem setKpr_pitches (s : State) (k : Keeper) : (s.setKpr k).pitches = s.pitches := rfl
@[simp] theorem setKpr_lends (s : State) (k : Keeper) : (s.setKpr k).lends = s.lends := rfl
@[simp] theorem setKpr_boxes (s : State) (k : Keeper) : (s.setKpr k).boxes = s.boxes := rfl
@[simp] theorem setKpr_mbx0 (s : State) (k : Keeper) : (s.setKpr k).mbx0 = s.mbx0 := rfl
@[simp] theorem setKpr_ring (s : State) (k : Keeper) : (s.setKpr k).ring = s.ring := rfl
@[simp] theorem setKpr_fw (s : State) (k : Keeper) : (s.setKpr k).fw = s.fw := rfl
@[simp] theorem setKpr_power (s : State) (k : Keeper) : (s.setKpr k).power = s.power := rfl
@[simp] theorem setKpr_kpr (s : State) (k : Keeper) : (s.setKpr k).kpr = k := rfl
@[simp] theorem setKpr_log (s : State) (k : Keeper) : (s.setKpr k).log = s.log := rfl
@[simp] theorem setKpr_tests (s : State) (k : Keeper) : (s.setKpr k).tests = s.tests := rfl
@[simp] theorem setKpr_eeprom (s : State) (k : Keeper) : (s.setKpr k).eeprom = s.eeprom := rfl
@[simp] theorem setKpr_tap (s : State) (k : Keeper) : (s.setKpr k).tap = s.tap := rfl
@[simp] theorem setKpr_sent (s : State) (k : Keeper) : (s.setKpr k).sent = s.sent := rfl
@[simp] theorem setKpr_free (s : State) (k : Keeper) : (s.setKpr k).free = s.free := rfl

/-! `State.setLog` -/

@[simp] theorem setLog_pending (s : State) (l : Log) : (s.setLog l).pending = s.pending := rfl
@[simp] theorem setLog_mem (s : State) (l : Log) : (s.setLog l).mem = s.mem := rfl
@[simp] theorem setLog_bad (s : State) (l : Log) : (s.setLog l).bad = s.bad := rfl
@[simp] theorem setLog_dies (s : State) (l : Log) : (s.setLog l).dies = s.dies := rfl
@[simp] theorem setLog_ports (s : State) (l : Log) : (s.setLog l).ports = s.ports := rfl
@[simp] theorem setLog_fab (s : State) (l : Log) : (s.setLog l).fab = s.fab := rfl
@[simp] theorem setLog_pitches (s : State) (l : Log) : (s.setLog l).pitches = s.pitches := rfl
@[simp] theorem setLog_lends (s : State) (l : Log) : (s.setLog l).lends = s.lends := rfl
@[simp] theorem setLog_boxes (s : State) (l : Log) : (s.setLog l).boxes = s.boxes := rfl
@[simp] theorem setLog_mbx0 (s : State) (l : Log) : (s.setLog l).mbx0 = s.mbx0 := rfl
@[simp] theorem setLog_ring (s : State) (l : Log) : (s.setLog l).ring = s.ring := rfl
@[simp] theorem setLog_fw (s : State) (l : Log) : (s.setLog l).fw = s.fw := rfl
@[simp] theorem setLog_power (s : State) (l : Log) : (s.setLog l).power = s.power := rfl
@[simp] theorem setLog_kpr (s : State) (l : Log) : (s.setLog l).kpr = s.kpr := rfl
@[simp] theorem setLog_log (s : State) (l : Log) : (s.setLog l).log = l := rfl
@[simp] theorem setLog_tests (s : State) (l : Log) : (s.setLog l).tests = s.tests := rfl
@[simp] theorem setLog_eeprom (s : State) (l : Log) : (s.setLog l).eeprom = s.eeprom := rfl
@[simp] theorem setLog_tap (s : State) (l : Log) : (s.setLog l).tap = s.tap := rfl
@[simp] theorem setLog_sent (s : State) (l : Log) : (s.setLog l).sent = s.sent := rfl
@[simp] theorem setLog_free (s : State) (l : Log) : (s.setLog l).free = s.free := rfl

/-! `State.setTests` -/

@[simp] theorem setTests_pending (s : State) (t : Tests) : (s.setTests t).pending = s.pending := rfl
@[simp] theorem setTests_mem (s : State) (t : Tests) : (s.setTests t).mem = s.mem := rfl
@[simp] theorem setTests_bad (s : State) (t : Tests) : (s.setTests t).bad = s.bad := rfl
@[simp] theorem setTests_dies (s : State) (t : Tests) : (s.setTests t).dies = s.dies := rfl
@[simp] theorem setTests_ports (s : State) (t : Tests) : (s.setTests t).ports = s.ports := rfl
@[simp] theorem setTests_fab (s : State) (t : Tests) : (s.setTests t).fab = s.fab := rfl
@[simp] theorem setTests_pitches (s : State) (t : Tests) : (s.setTests t).pitches = s.pitches := rfl
@[simp] theorem setTests_lends (s : State) (t : Tests) : (s.setTests t).lends = s.lends := rfl
@[simp] theorem setTests_boxes (s : State) (t : Tests) : (s.setTests t).boxes = s.boxes := rfl
@[simp] theorem setTests_mbx0 (s : State) (t : Tests) : (s.setTests t).mbx0 = s.mbx0 := rfl
@[simp] theorem setTests_ring (s : State) (t : Tests) : (s.setTests t).ring = s.ring := rfl
@[simp] theorem setTests_fw (s : State) (t : Tests) : (s.setTests t).fw = s.fw := rfl
@[simp] theorem setTests_power (s : State) (t : Tests) : (s.setTests t).power = s.power := rfl
@[simp] theorem setTests_kpr (s : State) (t : Tests) : (s.setTests t).kpr = s.kpr := rfl
@[simp] theorem setTests_log (s : State) (t : Tests) : (s.setTests t).log = s.log := rfl
@[simp] theorem setTests_tests (s : State) (t : Tests) : (s.setTests t).tests = t := rfl
@[simp] theorem setTests_eeprom (s : State) (t : Tests) : (s.setTests t).eeprom = s.eeprom := rfl
@[simp] theorem setTests_tap (s : State) (t : Tests) : (s.setTests t).tap = s.tap := rfl
@[simp] theorem setTests_sent (s : State) (t : Tests) : (s.setTests t).sent = s.sent := rfl
@[simp] theorem setTests_free (s : State) (t : Tests) : (s.setTests t).free = s.free := rfl

/-! `State.setEeprom` -/

@[simp] theorem setEeprom_pending (s : State) (e : Eeprom) : (s.setEeprom e).pending = s.pending := rfl
@[simp] theorem setEeprom_mem (s : State) (e : Eeprom) : (s.setEeprom e).mem = s.mem := rfl
@[simp] theorem setEeprom_bad (s : State) (e : Eeprom) : (s.setEeprom e).bad = s.bad := rfl
@[simp] theorem setEeprom_dies (s : State) (e : Eeprom) : (s.setEeprom e).dies = s.dies := rfl
@[simp] theorem setEeprom_ports (s : State) (e : Eeprom) : (s.setEeprom e).ports = s.ports := rfl
@[simp] theorem setEeprom_fab (s : State) (e : Eeprom) : (s.setEeprom e).fab = s.fab := rfl
@[simp] theorem setEeprom_pitches (s : State) (e : Eeprom) : (s.setEeprom e).pitches = s.pitches := rfl
@[simp] theorem setEeprom_lends (s : State) (e : Eeprom) : (s.setEeprom e).lends = s.lends := rfl
@[simp] theorem setEeprom_boxes (s : State) (e : Eeprom) : (s.setEeprom e).boxes = s.boxes := rfl
@[simp] theorem setEeprom_mbx0 (s : State) (e : Eeprom) : (s.setEeprom e).mbx0 = s.mbx0 := rfl
@[simp] theorem setEeprom_ring (s : State) (e : Eeprom) : (s.setEeprom e).ring = s.ring := rfl
@[simp] theorem setEeprom_fw (s : State) (e : Eeprom) : (s.setEeprom e).fw = s.fw := rfl
@[simp] theorem setEeprom_power (s : State) (e : Eeprom) : (s.setEeprom e).power = s.power := rfl
@[simp] theorem setEeprom_kpr (s : State) (e : Eeprom) : (s.setEeprom e).kpr = s.kpr := rfl
@[simp] theorem setEeprom_log (s : State) (e : Eeprom) : (s.setEeprom e).log = s.log := rfl
@[simp] theorem setEeprom_tests (s : State) (e : Eeprom) : (s.setEeprom e).tests = s.tests := rfl
@[simp] theorem setEeprom_eeprom (s : State) (e : Eeprom) : (s.setEeprom e).eeprom = e := rfl
@[simp] theorem setEeprom_tap (s : State) (e : Eeprom) : (s.setEeprom e).tap = s.tap := rfl
@[simp] theorem setEeprom_sent (s : State) (e : Eeprom) : (s.setEeprom e).sent = s.sent := rfl
@[simp] theorem setEeprom_free (s : State) (e : Eeprom) : (s.setEeprom e).free = s.free := rfl

/-! `State.send` -/

@[simp] theorem send_pending (s : State) (x : Sent) : (s.send x).pending = s.pending := rfl
@[simp] theorem send_mem (s : State) (x : Sent) : (s.send x).mem = s.mem := rfl
@[simp] theorem send_bad (s : State) (x : Sent) : (s.send x).bad = s.bad := rfl
@[simp] theorem send_dies (s : State) (x : Sent) : (s.send x).dies = s.dies := rfl
@[simp] theorem send_ports (s : State) (x : Sent) : (s.send x).ports = s.ports := rfl
@[simp] theorem send_fab (s : State) (x : Sent) : (s.send x).fab = s.fab := rfl
@[simp] theorem send_pitches (s : State) (x : Sent) : (s.send x).pitches = s.pitches := rfl
@[simp] theorem send_lends (s : State) (x : Sent) : (s.send x).lends = s.lends := rfl
@[simp] theorem send_boxes (s : State) (x : Sent) : (s.send x).boxes = s.boxes := rfl
@[simp] theorem send_mbx0 (s : State) (x : Sent) : (s.send x).mbx0 = s.mbx0 := rfl
@[simp] theorem send_ring (s : State) (x : Sent) : (s.send x).ring = s.ring := rfl
@[simp] theorem send_fw (s : State) (x : Sent) : (s.send x).fw = s.fw := rfl
@[simp] theorem send_power (s : State) (x : Sent) : (s.send x).power = s.power := rfl
@[simp] theorem send_kpr (s : State) (x : Sent) : (s.send x).kpr = s.kpr := rfl
@[simp] theorem send_log (s : State) (x : Sent) : (s.send x).log = s.log := rfl
@[simp] theorem send_tests (s : State) (x : Sent) : (s.send x).tests = s.tests := rfl
@[simp] theorem send_eeprom (s : State) (x : Sent) : (s.send x).eeprom = s.eeprom := rfl
@[simp] theorem send_tap (s : State) (x : Sent) : (s.send x).tap = s.tap := rfl
@[simp] theorem send_sent (s : State) (x : Sent) : (s.send x).sent = s.sent ++ [x] := rfl
@[simp] theorem send_free (s : State) (x : Sent) : (s.send x).free = s.free := rfl

/-! `State.draw` -/

@[simp] theorem draw_pending (s : State) : s.draw.pending = s.pending := rfl
@[simp] theorem draw_mem (s : State) : s.draw.mem = s.mem := rfl
@[simp] theorem draw_bad (s : State) : s.draw.bad = s.bad := rfl
@[simp] theorem draw_dies (s : State) : s.draw.dies = s.dies := rfl
@[simp] theorem draw_ports (s : State) : s.draw.ports = s.ports := rfl
@[simp] theorem draw_fab (s : State) : s.draw.fab = s.fab := rfl
@[simp] theorem draw_pitches (s : State) : s.draw.pitches = s.pitches := rfl
@[simp] theorem draw_lends (s : State) : s.draw.lends = s.lends := rfl
@[simp] theorem draw_boxes (s : State) : s.draw.boxes = s.boxes := rfl
@[simp] theorem draw_mbx0 (s : State) : s.draw.mbx0 = s.mbx0 := rfl
@[simp] theorem draw_ring (s : State) : s.draw.ring = s.ring := rfl
@[simp] theorem draw_fw (s : State) : s.draw.fw = s.fw := rfl
@[simp] theorem draw_power (s : State) : s.draw.power = s.power := rfl
@[simp] theorem draw_kpr (s : State) : s.draw.kpr = s.kpr := rfl
@[simp] theorem draw_log (s : State) : s.draw.log = s.log := rfl
@[simp] theorem draw_tests (s : State) : s.draw.tests = s.tests := rfl
@[simp] theorem draw_eeprom (s : State) : s.draw.eeprom = s.eeprom := rfl
@[simp] theorem draw_tap (s : State) : s.draw.tap = s.tap := rfl
@[simp] theorem draw_sent (s : State) : s.draw.sent = s.sent := rfl
@[simp] theorem draw_free (s : State) : s.draw.free = s.free + 1 := rfl

end Sys2Proof.Machine
end

