-- ==== Sys2Proof/Laws/Store.lean ====
section
/-! SUPPORT. The operations of the machine that write no memory: each leaves module memory, the request buffer of mailbox 0 and the
queue of waiting commands as they were. -/

namespace Sys2Proof.Machine

open Sys2Proof

/-- The byte stores of the machine, module memory, the request buffer of mailbox 0 and the staging area, and the queue of waiting
commands. -/
abbrev Stores := List Host.Cell × List Host.Cell × List Host.Cell × List Instr

/-- Those of a state. -/
def State.store (s : State) : Stores := (s.mem, s.mbx0.req, s.fw.stageData, s.pending)

variable {wq : List Instr}

/-- The byte stores stand in their canonical form, and the queue is `wq`. -/
def StoreOk (wq : List Instr) (m : Stores) : Prop :=
  Memory.wf m.1 = true ∧ Memory.wf m.2.1 = true ∧ Memory.wf m.2.2.1 = true ∧ m.2.2.2 = wq

theorem inv_iff (s : State) : s.Inv ↔ StoreOk s.pending s.store := by simp [State.Inv, StoreOk, State.store]

/-- A write that may fail leaves canonical memories. -/
def ExOk (wq : List Instr) : Except Nat State → Prop
  | .ok s => StoreOk wq s.store
  | .error _ => True

/-- The outcome of a command, if it is a next state, has canonical memories. -/
def OutOk (wq : List Instr) : Host.Outcome State Fault Refusal → Prop
  | .next s => StoreOk wq s.store
  | _ => True

/-- The outcome of a command, if it is a next state, has the memories of `s`. -/
def OutSame (s : State) : Host.Outcome State Fault Refusal → Prop
  | .next t => t.store = s.store
  | _ => True

@[simp] theorem outSame_next (s t : State) : OutSame s (.next t) ↔ t.store = s.store := Iff.rfl
@[simp] theorem outOk_next (t : State) : OutOk wq (.next t) ↔ StoreOk wq t.store := Iff.rfl
@[simp] theorem exOk_ok (t : State) : ExOk wq (.ok t) ↔ StoreOk wq t.store := Iff.rfl
@[simp] theorem exOk_error (e : Nat) : ExOk wq (.error e) ↔ True := Iff.rfl

@[simp] theorem store_pair (s : State) : (s.mem, s.mbx0.req, s.fw.stageData, s.pending) = s.store := rfl

@[simp] theorem store_elim {α : Type} (o : Option α) {s : State} {f : α → State} (h : ∀ a, (f a).store = s.store) :
    (o.elim s f).store = s.store := by
  cases o with
  | none => rfl
  | some a => exact h a

theorem store_foldl {α : Type} {f : State → α → State} (h : ∀ s a, (f s a).store = s.store) (l : List α) (s : State) :
    (l.foldl f s).store = s.store := by
  induction l generalizing s with
  | nil => rfl
  | cons a l ih => exact (ih _).trans (h s a)

theorem store_foldl_fst {α β : Type} {f : State × β → α → State × β} (h : ∀ s a, (f s a).1.store = s.1.store) (l : List α)
    (s : State × β) : (l.foldl f s).1.store = s.1.store := by
  induction l generalizing s with
  | nil => rfl
  | cons a l ih => exact (ih _).trans (h s a)

theorem ok_foldl {α : Type} {f : State → α → State} (h : ∀ s a, StoreOk wq s.store → StoreOk wq (f s a).store) (l : List α)
    (s : State) (hs : StoreOk wq s.store) : StoreOk wq (l.foldl f s).store := by
  induction l generalizing s with
  | nil => exact hs
  | cons a l ih => exact ih _ (h s a hs)

theorem ok_foldl_fst {α β : Type} {f : State × β → α → State × β} (h : ∀ s a, StoreOk wq s.1.store → StoreOk wq (f s a).1.store)
    (l : List α) (s : State × β) (hs : StoreOk wq s.1.store) : StoreOk wq (l.foldl f s).1.store := by
  induction l generalizing s with
  | nil => exact hs
  | cons a l ih => exact ih _ (h s a hs)

theorem ok_kept {s : State} {r : Except Nat State} (hs : StoreOk wq s.store) (h : ExOk wq r) :
    StoreOk wq (kept s r).1.store := by
  cases r with
  | ok t => exact h
  | error e => exact hs

@[simp] theorem store_ite (c : Prop) [Decidable c] (s t : State) :
    (if c then s else t).store = if c then s.store else t.store := by
  split <;> rfl

@[simp] theorem setMbx0_store (s : State) (m : Mbx0) : (s.setMbx0 m).store = (s.mem, m.req, s.fw.stageData, s.pending) := (rfl)

@[simp] theorem setFw_store (s : State) (f : Firmware) : (s.setFw f).store = (s.mem, s.mbx0.req, f.stageData, s.pending) := (rfl)

@[simp] theorem store_setMem (s : State) (m : List Host.Cell) : (s.setMem m).store = (m, s.mbx0.req, s.fw.stageData, s.pending) := (rfl)

@[simp] theorem store_setBad (s : State) (b : List ℕ) : (State.setBad s b).store = s.store := (rfl)

@[simp] theorem store_setDies (s : State) (d : List Die) : (State.setDies s d).store = s.store := (rfl)

@[simp] theorem store_setPorts (s : State) (p : List Port) : (State.setPorts s p).store = s.store := (rfl)

@[simp] theorem store_setFab (s : State) (f : Fabric) : (State.setFab s f).store = s.store := (rfl)

@[simp] theorem store_setPitches (s : State) (p : List Pitch) : (State.setPitches s p).store = s.store := (rfl)

@[simp] theorem store_setLends (s : State) (l : List Lend) : (State.setLends s l).store = s.store := (rfl)

@[simp] theorem store_setBoxes (s : State) (b : List Mailbox) : (State.setBoxes s b).store = s.store := (rfl)

@[simp] theorem store_setRing (s : State) (r : Ringmaster) : (State.setRing s r).store = s.store := (rfl)

@[simp] theorem store_setPower (s : State) (p : Power) : (State.setPower s p).store = s.store := (rfl)

@[simp] theorem store_setKpr (s : State) (k : Keeper) : (State.setKpr s k).store = s.store := (rfl)

@[simp] theorem store_setLog (s : State) (l : Log) : (State.setLog s l).store = s.store := (rfl)

@[simp] theorem store_setTests (s : State) (t : Tests) : (State.setTests s t).store = s.store := (rfl)

@[simp] theorem store_setEeprom (s : State) (e : Eeprom) : (State.setEeprom s e).store = s.store := (rfl)

@[simp] theorem store_send (s : State) (x : Sent) : (State.send s x).store = s.store := (rfl)

@[simp] theorem store_draw (s : State) : (State.draw s).store = s.store := (rfl)

@[simp] theorem store_updDie (s : State) (d : ℕ) (f : Die → Die) :
    (State.updDie s d f).store = s.store := (rfl)

@[simp] theorem store_updCluster (s : State) (p : Place) (f : Cluster → Cluster) :
    (State.updCluster s p f).store = s.store := (rfl)

@[simp] theorem store_updPort (s : State) (p : ℕ) (f : Port → Port) :
    (State.updPort s p f).store = s.store := (rfl)

@[simp] theorem store_updBox (s : State) (m : ℕ) (f : Mailbox → Mailbox) :
    (State.updBox s m f).store = s.store := (rfl)

@[simp] theorem store_updPitch (s : State) (tag : ℕ) (f : Pitch → Pitch) :
    (State.updPitch s tag f).store = s.store := (rfl)

@[simp] theorem store_updQueue (s : State) (tag : ℕ) (id : ℕ) (f : Queue → Queue) :
    (State.updQueue s tag id f).store = s.store := (rfl)

@[simp] theorem store_updItem (s : State) (k : ItemKey) (f : Item → Item) :
    (State.updItem s k f).store = s.store := (rfl)

@[simp] theorem store_logEvent (s : State) (code : ℕ) (sev : ℕ) (die : ℕ) (tag : ℕ) (data : ℕ) :
    (State.logEvent s code sev die tag data).store = s.store := (rfl)

@[simp] theorem store_logNote (s : State) (group : ℕ) (name : String) (sev : Option ℕ) (die : ℕ) (tag : ℕ) (data : ℕ) :
    (State.logNote s group name sev die tag data).store = s.store := (rfl)

@[simp] theorem store_logFact (s : State) (group : ℕ) (name : String) (sev : Option ℕ) (die : ℕ) (tag : ℕ) (data : ℕ) :
    (State.logFact s group name sev die tag data).store = s.store := (rfl)

@[simp] theorem store_countDiscard (s : State) (port : ℕ) :
    (State.countDiscard s port).store = s.store := (rfl)

@[simp] theorem store_onLink (s : State) (port : Nat) (f : Frame) :
    (State.onLink s port f).store = s.store := by
  unfold State.onLink; repeat' (first | rfl | (simp [store_foldl]; done) | split)
  all_goals simp [store_foldl, store_foldl_fst]

@[simp] theorem store_transmit (s : State) (port : ℕ) (vc : ℕ) (f : Frame) :
    (State.transmit s port vc f).store = s.store := (rfl)

@[simp] theorem store_control (s : State) (port : Nat) (c : CtrlItem) :
    (State.control s port c).store = s.store := by
  unfold State.control; repeat' (first | rfl | (simp [store_foldl]; done) | split)
  all_goals simp [store_foldl, store_foldl_fst]

@[simp] theorem store_tellCredits (s : State) (port : Nat) :
    (State.tellCredits s port).store = s.store := by
  unfold State.tellCredits; repeat' (first | rfl | (simp [store_foldl]; done) | split)
  all_goals simp [store_foldl, store_foldl_fst]

theorem store_hostLine (port : Nat) (l : List (Nat × Frame)) (blocked : List Nat) (s : State) :
    (State.hostLine port l blocked s).store = s.store := by
  induction l generalizing s blocked with
  | nil => rfl
  | cons x l ih => unfold State.hostLine; split <;> simp [ih]

@[simp] theorem store_flushHost (s : State) (port : ℕ) :
    (State.flushHost s port).store = s.store := by simp [State.flushHost, store_hostLine]

@[simp] theorem store_meterHost (s : State) (tag : ℕ) (n : ℕ) :
    (State.meterHost s tag n).store = s.store := (rfl)

@[simp] theorem store_sendHost (s : State) (port vc : ℕ) (f : Frame) :
    (State.sendHost s port vc f).store = s.store := by simp [State.sendHost]

@[simp] theorem store_toRouter (s : State) (die : ℕ) (w : Waiting) :
    (State.toRouter s die w).store = s.store := (rfl)

@[simp] theorem store_beginTxn (s : State) (die : Nat) (f : Frame) (owner : Option ItemKey) :
    (State.beginTxn s die f owner).store = s.store := by
  unfold State.beginTxn; repeat' (first | rfl | (simp [store_foldl]; done) | split)
  all_goals simp [store_foldl, store_foldl_fst]

@[simp] theorem store_originate (s : State) (die : Nat) (f : Frame) (owner : Option ItemKey) :
    (State.originate s die f owner).store = s.store := by
  unfold State.originate; repeat' (first | rfl | (simp [store_foldl]; done) | split)
  all_goals simp [store_foldl, store_foldl_fst]

@[simp] theorem store_endTxn (s : State) (die : Nat) (txn : Nat) :
    (State.endTxn s die txn).store = s.store := by
  unfold State.endTxn; dsimp only; split <;> simp

@[simp] theorem store_firmwareFrame (s : State) (dest : Nat) (tag : Nat) (srcPort : Nat) (hchan : Nat) (htag : Nat) (payload : Bytes) :
    (State.firmwareFrame s dest tag srcPort hchan htag payload).store = s.store := by
  unfold State.firmwareFrame; repeat' (first | rfl | (simp [store_foldl]; done) | split)
  all_goals simp [store_foldl, store_foldl_fst]

@[simp] theorem store_sendMessage (s : State) (module : Nat) (tag : Nat) (requestId : Nat) (kind : Nat) (data : Bytes) :
    (State.sendMessage s module tag requestId kind data).store = s.store := by
  unfold State.sendMessage; repeat' (first | rfl | (simp [store_foldl]; done) | split)
  all_goals simp [store_foldl, store_foldl_fst]

@[simp] theorem store_toAdapter (s : State) (srcModule : Nat) (srcPort : Nat) (hchan : Nat) (htag : Nat) (tag : Nat) (payload : Bytes) :
    (State.toAdapter s srcModule srcPort hchan htag tag payload).store = s.store := by
  unfold State.toAdapter; repeat' (first | rfl | (simp [store_foldl]; done) | split)
  all_goals simp [store_foldl, store_foldl_fst]

@[simp] theorem store_deliver (s : State) (mailbox : ℕ) (srcModule : ℕ) (srcPort : ℕ) (hchan : ℕ) (htag : ℕ) (requestId : ℕ) (msg : Bytes) (counted : Bool) :
    (State.deliver s mailbox srcModule srcPort hchan htag requestId msg counted).store = s.store := by simp [State.deliver, store_foldl]

@[simp] theorem store_respond (s : State) (seq : ℕ) (status : ℕ) (body : Bytes) :
    (State.respond s seq status body).store = s.store := by
  unfold State.respond; repeat' split
  all_goals simp [store_foldl, store_foldl_fst]

@[simp] theorem store_onRequest (s : State) (seq : ℕ) (command : ℕ) (f : Request → Pitch → State) (hf : ∀ a0 a1, (f a0 a1).store = s.store) :
    (State.onRequest s seq command f).store = s.store := by
  unfold State.onRequest
  first
    | rfl
    | simp [store_foldl, store_foldl_fst]; done
    | (refine (store_foldl (fun s a => ?_) _ _).trans ?_ <;> (repeat' split) <;> simp); done
    | ((repeat' split) <;> first | (simp; done) | (refine (store_foldl (fun s a => ?_) _ _).trans ?_ <;> simp)); done
    | ((repeat' split) <;> simp_all [store_foldl, store_foldl_fst]); done
    | ((repeat' split) <;> (try simp [store_foldl, store_foldl_fst]) <;> (repeat' split) <;> simp_all [store_foldl, store_foldl_fst]); done

@[simp] theorem store_onRequestOp (s : State) (seq : ℕ) (command : ℕ) (off : ℕ) (n : ℕ) (op : ℕ) (f : Request → Pitch → State) (hf : ∀ a0 a1, (f a0 a1).store = s.store) :
    (State.onRequestOp s seq command off n op f).store = s.store := by
  unfold State.onRequestOp
  first
    | rfl
    | simp [store_foldl, store_foldl_fst]; done
    | (refine (store_foldl (fun s a => ?_) _ _).trans ?_ <;> (repeat' split) <;> simp); done
    | ((repeat' split) <;> first | (simp; done) | (refine (store_foldl (fun s a => ?_) _ _).trans ?_ <;> simp)); done
    | ((repeat' split) <;> simp_all [store_foldl, store_foldl_fst]); done
    | ((repeat' split) <;> (try simp [store_foldl, store_foldl_fst]) <;> (repeat' split) <;> simp_all [store_foldl, store_foldl_fst]); done

@[simp] theorem store_onOperator (s : State) (seq : ℕ) (command : ℕ) (f : Request → State) (hf : ∀ a0, (f a0).store = s.store) :
    (State.onOperator s seq command f).store = s.store := by
  unfold State.onOperator
  first
    | rfl
    | simp [store_foldl, store_foldl_fst]; done
    | (refine (store_foldl (fun s a => ?_) _ _).trans ?_ <;> (repeat' split) <;> simp); done
    | ((repeat' split) <;> first | (simp; done) | (refine (store_foldl (fun s a => ?_) _ _).trans ?_ <;> simp)); done
    | ((repeat' split) <;> simp_all [store_foldl, store_foldl_fst]); done
    | ((repeat' split) <;> (try simp [store_foldl, store_foldl_fst]) <;> (repeat' split) <;> simp_all [store_foldl, store_foldl_fst]); done

@[simp] theorem store_onOperatorOp (s : State) (seq : ℕ) (command : ℕ) (off : ℕ) (n : ℕ) (op : ℕ) (f : Request → State) (hf : ∀ a0, (f a0).store = s.store) :
    (State.onOperatorOp s seq command off n op f).store = s.store := by
  unfold State.onOperatorOp
  first
    | rfl
    | simp [store_foldl, store_foldl_fst]; done
    | (refine (store_foldl (fun s a => ?_) _ _).trans ?_ <;> (repeat' split) <;> simp); done
    | ((repeat' split) <;> first | (simp; done) | (refine (store_foldl (fun s a => ?_) _ _).trans ?_ <;> simp)); done
    | ((repeat' split) <;> simp_all [store_foldl, store_foldl_fst]); done
    | ((repeat' split) <;> (try simp [store_foldl, store_foldl_fst]) <;> (repeat' split) <;> simp_all [store_foldl, store_foldl_fst]); done

@[simp] theorem store_moveTasks (s : State) (c : Nat) : (s.moveTasks c).store = s.store := by
  unfold State.moveTasks; split
  · rfl
  · simp

@[simp] theorem store_rehome (s : State) : s.rehome.store = s.store := by
  rw [State.rehome, store_foldl store_moveTasks]

@[simp] theorem store_logPageWrite (s : State) (tag : ℕ) (queue : ℕ) (off : ℕ) :
    (State.logPageWrite s tag queue off).store = s.store := (rfl)

@[simp] theorem store_writePage (s : State) (tag : ℕ) (queue : ℕ) (off : ℕ) (data : Bytes) :
    (State.writePage s tag queue off data).store = s.store := by simp [State.writePage]

@[simp] theorem store_logUnmarched (s : State) (die tag what : ℕ) :
    (State.logUnmarched s die tag what).store = s.store := (rfl)

@[simp] theorem store_firstWrite (s : State) (die page : ℕ) :
    (State.firstWrite s die page).store = s.store := by simp [State.firstWrite]

@[simp] theorem store_markWritten (s : State) (k : ℕ) :
    (State.markWritten s k).store = s.store := by simp [State.markWritten]

@[simp] theorem store_dramNeed (s : State) (die : ℕ) : (State.dramNeed s die).store = s.store := (rfl)

@[simp] theorem store_onItem (s : State) (k : ItemKey) (f : Pitch → Item → State) (hf : ∀ a0 a1, (f a0 a1).store = s.store) :
    (State.onItem s k f).store = s.store := by
  unfold State.onItem
  first
    | rfl
    | simp [store_foldl, store_foldl_fst]; done
    | (refine (store_foldl (fun s a => ?_) _ _).trans ?_ <;> (repeat' split) <;> simp); done
    | ((repeat' split) <;> first | (simp; done) | (refine (store_foldl (fun s a => ?_) _ _).trans ?_ <;> simp)); done
    | ((repeat' split) <;> simp_all [store_foldl, store_foldl_fst]); done
    | ((repeat' split) <;> (try simp [store_foldl, store_foldl_fst]) <;> (repeat' split) <;> simp_all [store_foldl, store_foldl_fst]); done

@[simp] theorem store_leaveEngine (s : State) (pl : Place) (k : ItemKey) :
    (State.leaveEngine s pl k).store = s.store := by
  unfold State.leaveEngine; split <;> simp

@[simp] theorem store_undefineSlots (s : State) (pl : Place) (mask : BitVec 32) :
    (State.undefineSlots s pl mask).store = s.store := by simp [State.undefineSlots]

@[simp] theorem store_logBadRead (s : State) (tag : ℕ) (a : Option ℕ) : (s.logBadRead tag a).store = s.store := by
  cases a <;> rfl

@[simp] theorem store_transfer (s : State) (die : Nat) (typ : Nat) (k : ItemKey) (x : Nat × Nat × Bool × Nat) :
    (State.transfer s die typ k x).store = s.store := by
  unfold State.transfer; repeat' (first | rfl | (simp [store_foldl]; done) | split)
  all_goals simp [store_foldl, store_foldl_fst]

@[simp] theorem store_fetchAbroad (s : State) (p : Pitch) (i : Item) :
    (State.fetchAbroad s p i).store = s.store := by
  unfold State.fetchAbroad; repeat' (first | rfl | (simp [store_foldl]; done) | split)
  all_goals simp [store_foldl, store_foldl_fst]

@[simp] theorem store_storeAbroad (s : State) (p : Pitch) (i : Item) :
    (State.storeAbroad s p i).store = s.store := by
  unfold State.storeAbroad; repeat' (first | rfl | (simp [store_foldl]; done) | split)
  all_goals simp [store_foldl, store_foldl_fst]

@[simp] theorem store_loseSlots (s : State) (p : Pitch) (i : Item) (mask : BitVec 32) :
    (State.loseSlots s p i mask).store = s.store := by
  unfold State.loseSlots; repeat' (first | rfl | (simp [store_foldl]; done) | split)
  all_goals simp [store_foldl, store_foldl_fst]

@[simp] theorem store_endRegion (s : State) (p : Pitch) (i : Item) :
    (State.endRegion s p i).store = s.store := by
  unfold State.endRegion; repeat' (first | rfl | (simp [store_foldl]; done) | split)
  all_goals simp [store_foldl, store_foldl_fst]

@[simp] theorem store_sendDown (s : State) (die : Nat) (tag : Nat) (src : Nat × Nat × Nat) (d : Config.CollDown) :
    (State.sendDown s die tag src d).store = s.store := by
  unfold State.sendDown; repeat' (first | rfl | (simp [store_foldl]; done) | split)
  all_goals simp [store_foldl, store_foldl_fst]

@[simp] theorem store_tellDown (s : State) (tag : Nat) (c : Coll) (d : Config.CollDown) :
    (State.tellDown s tag c d).store = s.store := by
  unfold State.tellDown; repeat' (first | rfl | (simp [store_foldl]; done) | split)
  all_goals simp [store_foldl, store_foldl_fst]

@[simp] theorem store_tileToSlot (s : State) (pl : Place) (add : Bool) (n : ℕ) (accs : List Acc) :
    (State.tileToSlot s pl add n accs).1.store = s.store := by
  unfold State.tileToSlot; split <;> simp

@[simp] theorem store_tileDone (s : State) (pl : Place) (key : ItemKey) (total : ℕ) (r : Raised) :
    (State.tileDone s pl key total r).store = s.store := by simp [State.tileDone]

@[simp] theorem store_updModel (s : State) (tag : ℕ) (id : ℕ) (f : Model → Model) :
    (State.updModel s tag id f).store = s.store := (rfl)

@[simp] theorem store_updSession (s : State) (tag : ℕ) (model : ℕ) (id : ℕ) (f : Session → Session) :
    (State.updSession s tag model id f).store = s.store := (rfl)

@[simp] theorem store_updPlan (s : State) (tag : ℕ) (run : ℕ) (f : Plan → Plan) :
    (State.updPlan s tag run f).store = s.store := (rfl)

@[simp] theorem store_endRequest (s : State) (tag : ℕ) (model : ℕ) (sid : ℕ) (reason : ℕ) (status : ℕ) :
    (State.endRequest s tag model sid reason status).store = s.store := by
  unfold State.endRequest; split <;> simp

@[simp] theorem store_removeSession (s : State) (tag : ℕ) (model : ℕ) (sid : ℕ) :
    (State.removeSession s tag model sid).store = s.store := by
  unfold State.removeSession; split <;> simp

@[simp] theorem store_closePaused (s : State) (tag : ℕ) (model : ℕ) (sid : ℕ) (reason : ℕ) (status : ℕ) :
    (State.closePaused s tag model sid reason status).store = s.store := by simp [State.closePaused]

@[simp] theorem store_expireSession (s : State) (tag : ℕ) (model : ℕ) (sid : ℕ) :
    (State.expireSession s tag model sid).store = s.store := by simp [State.expireSession]

@[simp] theorem store_startPause (s : State) (p : Pitch) (m : Model) (x : Session) (byBooth : Bool) (ttl : ℕ) (addr : ℕ) (req : Option ℕ) :
    (State.startPause s p m x byBooth ttl addr req).store = s.store := (rfl)

@[simp] theorem store_dropPaused (s : State) (p : Pitch) (m : Model) (x : Session) (status : ℕ) (detail : ℕ) :
    (State.dropPaused s p m x status detail).store = s.store := by simp [State.dropPaused]

@[simp] theorem store_expirePast (s : State) (tag : ℕ) :
    (State.expirePast s tag).store = s.store := by
  unfold State.expirePast; split <;> simp [store_foldl]

@[simp] theorem store_boothPause (s : State) (tag : ℕ) (model : ℕ) :
    (State.boothPause s tag model).store = s.store := by
  unfold State.boothPause; repeat' split
  all_goals simp

@[simp] theorem store_sample (s : State) : s.sample.store = s.store := (rfl)

@[simp] theorem store_tick (s : State) : (tick s).store = s.store := by
  unfold tick; dsimp only; split
  · rw [store_sample]; rfl
  · rfl

@[simp] theorem store_giveEngine (s : State) (pl : Place) (e : Engine) (k : ItemKey) :
    (State.giveEngine s pl e k).store = s.store := by
  unfold State.giveEngine; split <;> simp

@[simp] theorem store_refuseContributor (s : State) (pl : Place) (key : ItemKey) :
    (State.refuseContributor s pl key).store = s.store := by simp [State.refuseContributor]

@[simp] theorem store_sendUp (s : State) (die : Nat) (k : ItemKey) (root : Nat × Nat) (u : Config.CollUp) :
    (State.sendUp s die k root u).store = s.store := by
  unfold State.sendUp; repeat' (first | rfl | (simp [store_foldl]; done) | split)
  all_goals simp [store_foldl, store_foldl_fst]

@[simp] theorem store_firstUp (s : State) (i : Item) (die : Nat) (root : Option (Nat × Nat)) (vals : List (List Exact × Bool)) :
    (State.firstUp s i die root vals).store = s.store := by
  unfold State.firstUp; repeat' (first | rfl | (simp [store_foldl]; done) | split)
  all_goals simp [store_foldl, store_foldl_fst]

@[simp] theorem store_register (s : State) (p : Pitch) (pl : Place) (i : Item) (vals : List (List Exact × Bool)) :
    (State.register s p pl i vals).store = s.store := by
  unfold State.register; repeat' (first | rfl | (simp [store_foldl]; done) | split)
  all_goals simp [store_foldl, store_foldl_fst]

@[simp] theorem store_updColl (s : State) (tag : ℕ) (ident : ℕ) (f : Coll → Coll) :
    (State.updColl s tag ident f).store = s.store := (rfl)

@[simp] theorem store_secondUp (s : State) (tag : Nat) (c : Coll) (x : Contributor) (die : Nat) (root : Nat × Nat) :
    (State.secondUp s tag c x die root).store = s.store := by
  unfold State.secondUp; repeat' (first | rfl | (simp [store_foldl]; done) | split)
  all_goals simp [store_foldl, store_foldl_fst]

@[simp] theorem store_endColl (s : State) (tag : ℕ) (c : Coll) (o : Outcome) :
    (State.endColl s tag c o).store = s.store := by simp [State.endColl, store_foldl]

@[simp] theorem store_joinAway (s : State) (die : Nat) (f : Frame) (p : Pitch) (u : Config.CollUp) :
    (State.joinAway s die f p u).store = s.store := by
  unfold State.joinAway; repeat' (first | rfl | (simp [store_foldl]; done) | split)
  all_goals simp [store_foldl, store_foldl_fst]

@[simp] theorem store_collUp (s : State) (die : Nat) (f : Frame) :
    (State.collUp s die f).store = s.store := by
  unfold State.collUp; repeat' (first | rfl | (simp [store_foldl]; done) | split)
  all_goals simp [store_foldl, store_foldl_fst]

@[simp] theorem store_collDown (s : State) (f : Frame) :
    (State.collDown s f).store = s.store := by
  unfold State.collDown; repeat' (first | rfl | (simp [store_foldl]; done) | split)
  all_goals simp [store_foldl, store_foldl_fst]

@[simp] theorem store_finishClose (s : State) (seq : ℕ) (tag : ℕ) (id : ℕ) (t : ℕ) :
    (State.finishClose s seq tag id t).store = s.store := by
  unfold State.finishClose; split <;> simp

@[simp] theorem store_dropSave (s : State) (seq : ℕ) (tag : ℕ) (status : ℕ) :
    (State.dropSave s seq tag status).store = s.store := by simp [State.dropSave]

@[simp] theorem store_updRun (s : State) (tag : ℕ) (id : ℕ) (f : Run → Run) :
    (State.updRun s tag id f).store = s.store := (rfl)

@[simp] theorem store_ckptAnswer (s : State) (seq : ℕ) (tag : ℕ) (run : ℕ) :
    (State.ckptAnswer s seq tag run).store = s.store := by simp [State.ckptAnswer]

@[simp] theorem store_acceptDelivery (s : State) (tag : ℕ) (c : Coll) (r : BlockRef) (l : Layer) :
    (State.acceptDelivery s tag c r l).store = s.store := by simp [State.acceptDelivery]

@[simp] theorem store_noteLate (s : State) (tag : Nat) (p : Pitch) (r : Run) (l : Layer) (u : Rule) (c : CBlock) :
    (State.noteLate s tag p r l u c).store = s.store := by
  unfold State.noteLate; repeat' (first | rfl | (simp [store_foldl]; done) | split)
  all_goals simp [store_foldl, store_foldl_fst]

@[simp] theorem store_emit (s : State) (tag : ℕ) (r : Run) (l : Layer) (u : Rule) (c : CBlock) :
    (State.emit s tag r l u c).store = s.store := by
  unfold State.emit; split <;> simp

@[simp] theorem store_onBlock (s : State) (tag : ℕ) (run : ℕ) (layer : ℕ) (block : ℕ) (f : Pitch →   Run →     Layer → Rule → CBlock → State) (hf : ∀ a0 a1 a2 a3 a4, (f a0 a1 a2 a3 a4).store = s.store) :
    (State.onBlock s tag run layer block f).store = s.store := by
  unfold State.onBlock
  first
    | rfl
    | simp [store_foldl, store_foldl_fst]; done
    | (refine (store_foldl (fun s a => ?_) _ _).trans ?_ <;> (repeat' split) <;> simp); done
    | ((repeat' split) <;> first | (simp; done) | (refine (store_foldl (fun s a => ?_) _ _).trans ?_ <;> simp)); done
    | ((repeat' split) <;> simp_all [store_foldl, store_foldl_fst]); done
    | ((repeat' split) <;> (try simp [store_foldl, store_foldl_fst]) <;> (repeat' split) <;> simp_all [store_foldl, store_foldl_fst]); done

@[simp] theorem store_bumpCounter (s : State) (tag : ℕ) (sig : ℕ) :
    (State.bumpCounter s tag sig).store = s.store := by simp [State.bumpCounter]

@[simp] theorem store_updRecord (s : State) (id : ℕ) (f : TestRecord → TestRecord) :
    (State.updRecord s id f).store = s.store := (rfl)

@[simp] theorem store_openRecord (s : State) (target : ℕ) (origin : ℕ) (mask : ℕ) (dies : List ℕ) (req : Option ℕ) :
    (State.openRecord s target origin mask dies req).store = s.store := (rfl)

@[simp] theorem store_closeRecord (s : State) (id : ℕ) :
    (State.closeRecord s id).store = s.store := by
  unfold State.closeRecord; split <;> simp

@[simp] theorem store_cancelMove (s : State) (p : Pitch) :
    (State.cancelMove s p).store = s.store := by
  unfold State.cancelMove; repeat' split
  all_goals simp [store_foldl, store_foldl_fst]

@[simp] theorem store_failPitch (s : State) (tag : ℕ) :
    (State.failPitch s tag).store = s.store := by
  unfold State.failPitch; repeat' split
  all_goals simp [store_foldl, store_foldl_fst]

@[simp] theorem store_testOver (s : State) (die : ℕ) (target : ℕ) : (State.testOver s die target).store = s.store := by
  unfold State.testOver; split <;> rfl

@[simp] theorem store_endMarch (s : State) (die : Nat) (abandoned : Bool) :
    (State.endMarch s die abandoned).store = s.store := by
  unfold State.endMarch; repeat' (first | rfl | (simp [store_foldl]; done) | split)
  all_goals simp [store_foldl, store_foldl_fst]

@[simp] theorem store_startOn (target : Nat) (origin : Nat) (repair : Bool) (id : Nat) (port : Nat) (s : State) (die : Nat) :
    (State.startOn target origin repair id port s die).store = s.store := by
  unfold State.startOn; repeat' (first | rfl | (simp [store_foldl]; done) | split)
  all_goals simp [store_foldl, store_foldl_fst]

@[simp] theorem store_startTest (s : State) (target : Nat) (origin : Nat) (repair : Bool) (dies : List Nat) (req : Option Nat) (port : Nat) :
    (State.startTest s target origin repair dies req port).store = s.store := by
  unfold State.startTest; repeat' (first | rfl | (simp [store_foldl]; done) | split)
  all_goals simp [store_foldl, store_foldl_fst]

@[simp] theorem store_logRepairs (s : State) (die : ℕ) (l : List (ℕ × Failure)) :
    (State.logRepairs s die l).store = s.store := by simp [State.logRepairs, store_foldl]

@[simp] theorem store_pairTested (s : State) (die : Nat) (passed : Bool) (repairable : Bool) :
    (State.pairTested s die passed repairable).store = s.store := by
  unfold State.pairTested; repeat' (first | rfl | (simp [store_foldl]; done) | split)
  all_goals simp [store_foldl, store_foldl_fst]

@[simp] theorem store_dueTest (s : State) (die : Nat) :
    (State.dueTest s die).store = s.store := by
  unfold State.dueTest; repeat' (first | rfl | (simp [store_foldl]; done) | split)
  all_goals simp [store_foldl, store_foldl_fst]

@[simp] theorem store_step3 (s : State) :
    (State.step3 s).store = s.store := (rfl)

@[simp] theorem store_bindPort (s : State) (seq : ℕ) (port : ℕ) (mask : ℕ) (role : ℕ) (tag : ℕ) :
    (State.bindPort s seq port mask role tag).store = s.store := by simp [State.bindPort]

@[simp] theorem store_bindBox (s : State) (seq : ℕ) (m : ℕ) (role : ℕ) (tag : ℕ) :
    (State.bindBox s seq m role tag).store = s.store := by simp [State.bindBox]

@[simp] theorem store_carry (s : State) (p : Pitch) (seq : Nat) (command : Nat) (value : Nat) :
    (State.carry s p seq command value).store = s.store := by
  unfold State.carry; repeat' (first | rfl | (simp [store_foldl]; done) | split)
  all_goals simp [store_foldl, store_foldl_fst]

@[simp] theorem store_coordinated (s : State) (seq : ℕ) (p : Pitch) (body : Bytes) (done : State → State) (hdone : ∀ a0, (done a0).store = a0.store) :
    (State.coordinated s seq p body done).store = s.store := by
  unfold State.coordinated
  first
    | rfl
    | simp [store_foldl, store_foldl_fst]; done
    | (refine (store_foldl (fun s a => ?_) _ _).trans ?_ <;> (repeat' split) <;> simp); done
    | ((repeat' split) <;> first | (simp; done) | (refine (store_foldl (fun s a => ?_) _ _).trans ?_ <;> simp)); done
    | ((repeat' split) <;> simp_all [store_foldl, store_foldl_fst]); done
    | ((repeat' split) <;> (try simp [store_foldl, store_foldl_fst]) <;> (repeat' split) <;> simp_all [store_foldl, store_foldl_fst]); done

@[simp] theorem store_suspended (s : State) (p : Pitch) :
    (State.suspended s p).store = s.store := by simp [State.suspended, store_foldl]

@[simp] theorem store_onNamed (s : State) (seq : ℕ) (tag : ℕ) (f : Pitch → State) (hf : ∀ a0, (f a0).store = s.store) :
    (State.onNamed s seq tag f).store = s.store := by
  unfold State.onNamed
  first
    | rfl
    | simp [store_foldl, store_foldl_fst]; done
    | (refine (store_foldl (fun s a => ?_) _ _).trans ?_ <;> (repeat' split) <;> simp); done
    | ((repeat' split) <;> first | (simp; done) | (refine (store_foldl (fun s a => ?_) _ _).trans ?_ <;> simp)); done
    | ((repeat' split) <;> simp_all [store_foldl, store_foldl_fst]); done
    | ((repeat' split) <;> (try simp [store_foldl, store_foldl_fst]) <;> (repeat' split) <;> simp_all [store_foldl, store_foldl_fst]); done

@[simp] theorem store_resumed (s : State) (p : Pitch) :
    (State.resumed s p).store = s.store := by simp [State.resumed, store_foldl]

@[simp] theorem store_suspendUndo (s : State) (seq : ℕ) (p : Pitch) :
    (State.suspendUndo s seq p).store = s.store := by simp [State.suspendUndo]

@[simp] theorem store_releaseLent (s : State) (p : Pitch) :
    (State.releaseLent s p).store = s.store := by simp [State.releaseLent, store_foldl]

@[simp] theorem store_unbindTag (s : State) (tag : ℕ) :
    (State.unbindTag s tag).store = s.store := (rfl)

@[simp] theorem store_abortRequests (s : State) (p : Pitch) :
    (State.abortRequests s p).store = s.store := by simp [State.abortRequests, store_foldl]

@[simp] theorem store_signQuote (s : State) (seq : ℕ) (p : Option Pitch) (nonce : Bytes) :
    (State.signQuote s seq p nonce).store = s.store := by simp [State.signQuote]

@[simp] theorem store_sendStatus (s : State) (f : Frame) (status : ℕ) :
    (State.sendStatus s f status).store = s.store := by simp [State.sendStatus]

@[simp] theorem store_submitTo (s : State) (m : Nat) (x : Submission) :
    (State.submitTo s m x).store = s.store := by
  unfold State.submitTo; repeat' (first | rfl | (simp [store_foldl]; done) | split)
  all_goals simp [store_foldl, store_foldl_fst]

@[simp] theorem store_refuseRequest (s : State) (m : ℕ) (x : Submission) (status : ℕ) :
    (State.refuseRequest s m x status).store = s.store := by simp [State.refuseRequest]

@[simp] theorem store_turnAway (s : State) (m : ℕ) (x : Submission) :
    (State.turnAway s m x).store = s.store := by simp [State.turnAway]

@[simp] theorem store_segment (s : State) (m : ℕ) (f : Frame) (w : MsgWord) :
    (State.segment s m f w).store = s.store := by simp [State.segment]

@[simp] theorem store_mailboxFrame (s : State) (f : Frame) :
    (State.mailboxFrame s f).store = s.store := by
  unfold State.mailboxFrame; dsimp only; repeat' split
  all_goals simp

@[simp] theorem store_takeMessage (s : State) (f : Frame) (w : MsgWord) :
    (State.takeMessage s f w).store = s.store := by
  unfold State.takeMessage; repeat' (first | rfl | (simp [store_foldl]; done) | split)
  all_goals simp [store_foldl, store_foldl_fst]

@[simp] theorem store_takeAnswer (s : State) (f : Frame) (w : MsgWord) :
    (State.takeAnswer s f w).store = s.store := by
  unfold State.takeAnswer; repeat' (first | rfl | (simp [store_foldl]; done) | split)
  all_goals simp [store_foldl, store_foldl_fst]

@[simp] theorem store_message (s : State) (f : Frame) : (s.message f).store = s.store := by
  unfold State.message; dsimp only; repeat' split
  all_goals simp

@[simp] theorem store_accept (s : State) (m : ℕ) (x : Submission) :
    (State.accept s m x).store = s.store := (rfl)

@[simp] theorem store_duplicate (s : State) (m : ℕ) (x : Submission) (e : WinEntry) :
    (State.duplicate s m x e).store = s.store := by
  unfold State.duplicate; split <;> simp

@[simp] theorem store_queueFull (s : State) (m : ℕ) (x : Submission) :
    (State.queueFull s m x).store = s.store := by simp [State.queueFull]

@[simp] theorem store_meetChecks (s : State) (m : ℕ) (x : Submission) :
    (State.meetChecks s m x).store = s.store := by
  unfold State.meetChecks; repeat' (first | rfl | split | simp)

@[simp] theorem store_submitBox (s : State) (m : ℕ) :
    (State.submitBox s m).store = s.store := by
  unfold State.submitBox; split <;> simp

@[simp] theorem store_releaseHeld (s : State) :
    (State.releaseHeld s).store = s.store := by simp [State.releaseHeld, store_foldl]

@[simp] theorem store_boothCause (s : State) (c : ℕ) :
    (State.boothCause s c).store = s.store := (rfl)

@[simp] theorem store_completeHandover (s : State) (h : Handover) (fault : Bool) :
    (State.completeHandover s h fault).store = s.store := by simp [State.completeHandover]

@[simp] theorem store_servicesMove (s : State) :
    (State.servicesMove s).store = s.store := by simp [State.servicesMove]

@[simp] theorem store_portDown (s : State) (port : ℕ) :
    (State.portDown s port).store = s.store := (rfl)

@[simp] theorem store_sendHello (s : State) (port : Nat) :
    (State.sendHello s port).store = s.store := by
  unfold State.sendHello; repeat' (first | rfl | (simp [store_foldl]; done) | split)
  all_goals simp [store_foldl, store_foldl_fst]

@[simp] theorem store_sendHellos (s : State) (ok : Port → Bool) :
    (s.sendHellos ok).store = s.store := by simp [State.sendHellos, store_foldl]

@[simp] theorem store_checkPeer (s : State) (port : ℕ) :
    (State.checkPeer s port).store = s.store := by simp [State.checkPeer]

@[simp] theorem store_takeAck (s : State) (port : Nat) (a : Nat) :
    (State.takeAck s port a).store = s.store := by
  unfold State.takeAck; repeat' (first | rfl | (simp [store_foldl]; done) | split)
  all_goals simp [store_foldl, store_foldl_fst]

@[simp] theorem store_takeBack (s : State) (port : Nat) :
    (State.takeBack s port).store = s.store := by
  unfold State.takeBack; repeat' (first | rfl | (simp [store_foldl]; done) | split)
  all_goals simp [store_foldl, store_foldl_fst]

@[simp] theorem store_swapSpare (s : State) (port : ℕ) (lane : ℕ) :
    (State.swapSpare s port lane).store = s.store := (rfl)

@[simp] theorem store_failLane (s : State) (port lane : ℕ) :
    (State.failLane s port lane).store = s.store := by simp [State.failLane]

@[simp] theorem store_resend (s : State) (port : ℕ) (n : ℕ) :
    (State.resend s port n).store = s.store := by simp [State.resend, store_foldl]

@[simp] theorem store_freeCredits (s : State) (w : Waiting) :
    (State.freeCredits s w).store = s.store := by simp [State.freeCredits]

@[simp] theorem store_hostDone (s : State) (t : Txn) (status : ℕ) (data : Bytes) :
    (State.hostDone s t status data).store = s.store := by simp [State.hostDone]

@[simp] theorem store_lenderHeard (s : State) (f : Frame) (lost : Bool) :
    (State.lenderHeard s f lost).store = s.store := by
  unfold State.lenderHeard; repeat' (first | rfl | (simp [store_foldl]; done) | split)
  all_goals simp [store_foldl, store_foldl_fst]

@[simp] theorem store_respondFrame (s : State) (die : ℕ) (g : Frame) :
    (State.respondFrame s die g).store = s.store := by simp [State.respondFrame]

@[simp] theorem store_rejectFrame (s : State) (die : ℕ) (f : Frame) (inPort : Option ℕ) :
    (State.rejectFrame s die f inPort).store = s.store := by simp [State.rejectFrame]

@[simp] theorem store_noteContext (s : State) (die : Nat) (off : Nat) (n : Nat) :
    (State.noteContext s die off n).store = s.store := by
  unfold State.noteContext; repeat' (first | rfl | (simp [store_foldl]; done) | split)
  all_goals simp [store_foldl, store_foldl_fst]

@[simp] theorem store_frameAtomic (s : State) (f : Frame) :
    (State.frameAtomic s f).store = s.store := by simp [State.frameAtomic]

@[simp] theorem store_noteOperator (s : State) (die : ℕ) (f : Frame) (e : ℕ) :
    (State.noteOperator s die f e).store = s.store := by simp [State.noteOperator]

@[simp] theorem store_egress (s : State) (die : Nat) (f : Frame) :
    (State.egress s die f).1.store = s.store := by
  unfold State.egress; repeat' (first | rfl | (simp [store_foldl]; done) | split)
  all_goals simp [store_foldl, store_foldl_fst]

@[simp] theorem store_executeMessage (s : State) (f : Frame) :
    (State.executeMessage s f).store = s.store := by
  unfold State.executeMessage; repeat' (first | rfl | (simp [store_foldl]; done) | split)
  all_goals simp [store_foldl, store_foldl_fst]

@[simp] theorem store_countKind (s : State) (f : Frame) (inPort : Option ℕ) :
    (State.countKind s f inPort).store = s.store := by
  unfold State.countKind; split <;> (try split) <;> simp

@[simp] theorem store_serveRead (s : State) (die : Nat) (f : Frame) :
    (State.serveRead s die f).store = s.store := by
  unfold State.serveRead; dsimp only; repeat' split
  all_goals simp

@[simp] theorem store_serveMsg (s : State) (die : Nat) (f : Frame) (inPort : Option Nat) :
    (State.serveMsg s die f inPort).store = s.store := by
  unfold State.serveMsg; repeat' (first | rfl | (simp [store_foldl]; done) | split)
  all_goals simp [store_foldl, store_foldl_fst]

@[simp] theorem store_takeFrame (s : State) (die : ℕ) (index : ℕ) (w : Waiting) :
    (State.takeFrame s die index w).store = s.store := by simp [State.takeFrame]

@[simp] theorem store_sendOn (s : State) (die : ℕ) (index : ℕ) (w : Waiting) (port : ℕ) (vc : ℕ) :
    (State.sendOn s die index w port vc).store = s.store := by simp [State.sendOn]

@[simp] theorem store_haul (s : State) (die index : ℕ) (w : Waiting) (target : ℕ) :
    (State.haul s die index w target).store = s.store := by simp [State.haul]

@[simp] theorem store_launch (s : State) (port : Nat) (f : Frame) :
    (State.launch s port f).store = s.store := by
  unfold State.launch; repeat' (first | rfl | (simp [store_foldl]; done) | split)
  all_goals simp [store_foldl, store_foldl_fst]

@[simp] theorem store_launchHead (s : State) (port : ℕ) (f : Frame) :
    (State.launchHead s port f).store = s.store := by simp [State.launchHead]

@[simp] theorem store_drainHeld (port : ℕ) (l : List HeldWrite) (s : State) :
    (State.drainHeld port l s).store = s.store := by
  induction l generalizing s with
  | nil => rfl
  | cons h l ih => unfold State.drainHeld; split <;> simp [ih]

@[simp] theorem store_ingress (s : State) (port : ℕ) (vc : ℕ) (f : Frame) :
    (State.ingress s port vc f).store = s.store := by
  unfold State.ingress; split <;> simp

@[simp] theorem store_sendNak (s : State) (port : ℕ) :
    (State.sendNak s port).store = s.store := by simp [State.sendNak]

@[simp] theorem store_acceptFrame (s : State) (port : ℕ) (f : Frame) :
    (State.acceptFrame s port f).store = s.store := by simp [State.acceptFrame]

@[simp] theorem store_receive (s : State) (port : Nat) (f : Frame) :
    (State.receive s port f).store = s.store := by
  unfold State.receive; repeat' (first | rfl | (simp [store_foldl]; done) | split)
  all_goals simp [store_foldl, store_foldl_fst]

@[simp] theorem store_setMode (s : State) (port : ℕ) (mode : ℕ) :
    (State.setMode s port mode).store = s.store := by simp [State.setMode]

@[simp] theorem store_setPort (s : State) (b : Bytes) (port : ℕ) :
    (State.setPort s b port).store = s.store := by simp [State.setPort]

@[simp] theorem store_changeSide (s : State) (port : ℕ) :
    (State.changeSide s port).store = s.store := by simp [State.changeSide]

@[simp] theorem store_recover (s : State) :
    (State.recover s).store = s.store := (rfl)

@[simp] theorem store_startImage (s : State) (b : Bytes) (i : Image) :
    (State.startImage s b i).store = s.store := (rfl)

@[simp] theorem store_stageDone (s : State) (seq : ℕ) :
    (State.stageDone s seq).store = s.store := by simp [State.stageDone]

@[simp] theorem store_startRewrite (s : State) (b : Bytes) (raise : Bool) :
    (State.startRewrite s b raise).store = s.store := (rfl)

@[simp] theorem store_handoverStep (s : State) (h : Handover) :
    (State.handoverStep s h).store = s.store := by simp [State.handoverStep]

@[simp] theorem store_activateStaged (s : State) (seq : ℕ) (b : Bytes) (i : Image) :
    (State.activateStaged s seq b i).store = s.store := by simp [State.activateStaged]

@[simp] theorem store_dropHandover (s : State) (h : Handover) (status : ℕ) :
    (State.dropHandover s h status).store = s.store := by simp [State.dropHandover]

@[simp] theorem store_stripDone (s : State) (pl : Place) (key : ItemKey) (total : ℕ) (r : Raised) :
    (State.stripDone s pl key total r).store = s.store := by simp [State.stripDone]

@[simp] theorem store_setVin (s : State) (mv : ℕ) :
    (State.setVin s mv).store = s.store := (rfl)

@[simp] theorem store_keeperStart (s : State) :
    (State.keeperStart s).store = s.store := by simp [State.keeperStart]

@[simp] theorem store_railsOn (s : State) :
    (State.railsOn s).store = s.store := (rfl)

@[simp] theorem store_divide (s : State) (on : Bool) :
    (State.divide s on).store = s.store := (rfl)

@[simp] theorem store_stepsDown (s : State) (currentMa : ℕ) :
    (State.stepsDown s currentMa).store = s.store := (rfl)

@[simp] theorem store_stepsUp (s : State) :
    (State.stepsUp s).store = s.store := (rfl)

@[simp] theorem store_onDies (s : State) (seq : ℕ) (op : ℕ) (cap : Bool) (idle : Bool) (f : Bytes → List ℕ → State) (hf : ∀ a0 a1, (f a0 a1).store = s.store) :
    (State.onDies s seq op cap idle f).store = s.store := by
  unfold State.onDies
  first
    | rfl
    | simp [store_foldl, store_foldl_fst]; done
    | (refine (store_foldl (fun s a => ?_) _ _).trans ?_ <;> (repeat' split) <;> simp); done
    | ((repeat' split) <;> first | (simp; done) | (refine (store_foldl (fun s a => ?_) _ _).trans ?_ <;> simp)); done
    | ((repeat' split) <;> simp_all [store_foldl, store_foldl_fst]); done
    | ((repeat' split) <;> (try simp [store_foldl, store_foldl_fst]) <;> (repeat' split) <;> simp_all [store_foldl, store_foldl_fst]); done

@[simp] theorem store_diesDone (s : State) (seq : ℕ) (mask : ℕ) :
    (State.diesDone s seq mask).store = s.store := by simp [State.diesDone]

@[simp] theorem store_settleDies (s : State) (dies : ℕ) (drain : Bool) :
    (State.settleDies s dies drain).store = s.store := by simp [State.settleDies, store_foldl]

@[simp] theorem store_placeSlots (s : State) (p : Pitch) (loads : List ℕ) (x : ℕ × List (ℕ × Acc)) :
    (State.placeSlots s p loads x).store = s.store := by
  unfold State.placeSlots; repeat' (first | rfl | split)

@[simp] theorem store_moveDone (s : State) (seq : ℕ) :
    (State.moveDone s seq).store = s.store := by
  unfold State.moveDone; repeat' split
  all_goals simp

@[simp] theorem store_startDrain (s : State) (dies : List ℕ) :
    (State.startDrain s dies).store = s.store := by simp [State.startDrain, store_foldl]

@[simp] theorem store_exitKeeperOnly (s : State) :
    (State.exitKeeperOnly s).store = s.store := (rfl)

@[simp] theorem store_scrubFound (s : State) (die : ℕ) (off : ℕ) :
    (State.scrubFound s die off).store = s.store := by
  unfold State.scrubFound; repeat' (first | rfl | split | simp)

@[simp] theorem store_scrubFoundAt (s : State) (die : Nat) (x : StorePlace) : (s.scrubFoundAt die x).store = s.store := by
  unfold State.scrubFoundAt
  repeat' split
  all_goals simp

@[simp] theorem store_recordRow (s : State) (die : ℕ) (kind : ℕ) (row : ℕ) :
    (State.recordRow s die kind row).store = s.store := (rfl)

@[simp] theorem store_beginMarch (s : State) (die : Nat) :
    (State.beginMarch s die).store = s.store := by
  unfold State.beginMarch; repeat' (first | rfl | (simp [store_foldl]; done) | split)
  all_goals simp [store_foldl, store_foldl_fst]

@[simp] theorem store_marchPage (s : State) (die : Nat) (page : Nat) (fs : List Failure) :
    (State.marchPage s die page fs).store = s.store := by
  unfold State.marchPage; dsimp only; repeat' split
  all_goals simp

@[simp] theorem store_fuseEnd (s : State) (f : Fusing) (ds : List Nat) (status : Nat) :
    (State.fuseEnd s f ds status).store = s.store := by
  unfold State.fuseEnd; repeat' (first | rfl | (simp [store_foldl]; done) | split)
  all_goals simp [store_foldl, store_foldl_fst]

@[simp] theorem store_fuseNext (s : State) (f : Fusing) (ds : List Nat) :
    (State.fuseNext s f ds).store = s.store := by
  unfold State.fuseNext; repeat' (first | rfl | (simp [store_foldl]; done) | split)
  all_goals simp [store_foldl, store_foldl_fst]

@[simp] theorem store_afterRead (s : State) (a : ℕ) :
    (State.afterRead s a).store = s.store := (rfl)

@[simp] theorem store_kprError (s : State) (ktag : ℕ) (addr : ℕ) (status : ℕ) :
    (State.kprError s ktag addr status).store = s.store := (rfl)

@[simp] theorem store_arrived (s : State) :
    (State.arrived s).store = s.store := by
  unfold State.arrived; repeat' (first | rfl | (simp [store_foldl]; done) | split)
  all_goals simp [store_foldl, store_foldl_fst]

@[simp] theorem store_kprRead (s : State) (ktag : ℕ) (addr : ℕ) :
    (State.kprRead s ktag addr).store = s.store := by simp [State.kprRead]

@[simp] theorem store_writeReset (s : State) (d : BitVec 32) :
    (State.writeReset s d).store = s.store := (rfl)

@[simp] theorem store_ringDoorbell (s : State) (d : BitVec 32) :
    (State.ringDoorbell s d).store = s.store := by simp [State.ringDoorbell]

@[simp] theorem store_releaseRsp (s : State) (d : BitVec 32) :
    (State.releaseRsp s d).store = s.store := by
  unfold State.releaseRsp; split <;> simp

@[simp] theorem store_clearAlerts (s : State) (d : BitVec 32) :
    (State.clearAlerts s d).store = s.store := (rfl)

@[simp] theorem store_clearCounters (s : State) (port : ℕ) (d : BitVec 32) :
    (State.clearCounters s port d).store = s.store := by simp [State.clearCounters]

@[simp] theorem store_flagRow (s : State) (key : ItemKey) (bad : Bool) :
    (State.flagRow s key bad).store = s.store := (rfl)

@[simp] theorem store_admitRequest (s : State) (p : Pitch) (m : Model) (x : Session) (b : Bytes) (toks : List ℕ) (c : Candidate) (rollout : Option ℕ) :
    (State.admitRequest s p m x b toks c rollout).store = s.store := by simp [State.admitRequest]

@[simp] theorem store_refuse (s : State) (seq : ℕ) (committed : ℕ) (hint : ℕ) :
    (State.refuse s seq committed hint).store = s.store := by simp [State.refuse]

@[simp] theorem store_joinStep (s : State) (tag : ℕ) (model : ℕ) (sid : ℕ) (n : ℕ) (decode : Bool) (step : ℕ) :
    (State.joinStep s tag model sid n decode step).1.store = s.store := by
  unfold State.joinStep; split <;> simp

theorem store_formDecode (tag model step : ℕ) (f : Forming) (sid : ℕ) :
    (formDecode tag model step f sid).s.store = f.s.store := by
  unfold formDecode; repeat' (first | rfl | split | simp)

theorem store_formPrefill (tag model step : ℕ) (f : Forming) (sid : ℕ) :
    (formPrefill tag model step f sid).s.store = f.s.store := by
  unfold formPrefill; repeat' (first | rfl | split | simp)

@[simp] theorem store_recomputeKv (s : State) (tag : ℕ) (model : ℕ) (sid : ℕ) :
    (State.recomputeKv s tag model sid).store = s.store := (rfl)

@[simp] theorem store_commitDraft (tag : Nat) (draft : Nat) (target : Nat) (epoch : Nat) (results : List StepResult) (s : State) (part : StepPart) :
    (commitDraft tag draft target epoch results s part).store = s.store := by
  unfold commitDraft; repeat' (first | rfl | (simp [store_foldl]; done) | split)
  all_goals simp [store_foldl, store_foldl_fst]

@[simp] theorem store_planAnswer (s : State) (seq : ℕ) (tag : ℕ) (run : ℕ) :
    (State.planAnswer s seq tag run).store = s.store := by
  unfold State.planAnswer; split <;> simp

@[simp] theorem store_onTurnover (s : State) (tag : ℕ) (run : ℕ) (f : Pitch →   Plan → Run → Model → State) (hf : ∀ a0 a1 a2 a3, (f a0 a1 a2 a3).store = s.store) :
    (State.onTurnover s tag run f).store = s.store := by
  unfold State.onTurnover
  first
    | rfl
    | simp [store_foldl, store_foldl_fst]; done
    | (refine (store_foldl (fun s a => ?_) _ _).trans ?_ <;> (repeat' split) <;> simp); done
    | ((repeat' split) <;> first | (simp; done) | (refine (store_foldl (fun s a => ?_) _ _).trans ?_ <;> simp)); done
    | ((repeat' split) <;> simp_all [store_foldl, store_foldl_fst]); done
    | ((repeat' split) <;> (try simp [store_foldl, store_foldl_fst]) <;> (repeat' split) <;> simp_all [store_foldl, store_foldl_fst]); done

@[simp] theorem store_withFetchWord (s : State) (nbits : Nat) (w : Nat) :
    (State.withFetchWord s nbits w).store = s.store := by
  unfold State.withFetchWord; repeat' (first | rfl | (simp [store_foldl]; done) | split)
  all_goals simp [store_foldl, store_foldl_fst]

@[simp] theorem store_suspendAnswer (s : State) (seq : Nat) (p : Pitch) : (s.suspendAnswer seq p).store = s.store :=
  store_coordinated _ _ _ _ _ fun _ => store_updPitch _ _ _

@[simp] theorem store_suspendRest (s : State) (seq : Nat) (p : Pitch) : (s.suspendRest seq p).store = s.store := by
  unfold State.suspendRest
  split <;> simp

@[simp] theorem store_suspendStep (s : State) (seq : Nat) (p : Pitch) : (s.suspendStep seq p).store = s.store := by
  unfold State.suspendStep
  repeat' split
  all_goals simp

end Sys2Proof.Machine
end

