-- ==== Sys2Proof/Laws/StoreOk.lean ====
section
/-! SUPPORT. The operations of the machine that may write memory: each keeps the memories canonical and the queue of waiting commands
as it was. -/

namespace Sys2Proof.Machine

open Sys2Proof

variable {wq : List Instr}

/-! ### Operations that write -/

@[simp] theorem ok_clear {s : State} (h : StoreOk wq s.store) (lo n : Nat) :
    StoreOk wq (memClear s.mem lo n, s.mbx0.req, s.fw.stageData, s.pending) :=
  ⟨wf_memClear h.1 lo n, h.2⟩

@[simp] theorem ok_write {s : State} (h : StoreOk wq s.store) (cs : List Host.Cell) :
    StoreOk wq (memWrite s.mem cs, s.mbx0.req, s.fw.stageData, s.pending) :=
  ⟨wf_memWrite h.1 cs, h.2⟩

@[simp] theorem ok_clearWrite {s : State} (h : StoreOk wq s.store) (lo n : Nat) (cs : List Host.Cell) :
    StoreOk wq (memWrite (memClear s.mem lo n) cs, s.mbx0.req, s.fw.stageData, s.pending) := ⟨wf_memWrite (wf_memClear h.1 lo n) cs, h.2⟩

@[simp] theorem ok_turn {s : State} (h : StoreOk wq s.store) (a b c n : Nat) :
    StoreOk wq (memTurn s.mem a b c n, s.mbx0.req, s.fw.stageData, s.pending) :=
  ⟨wf_memTurn h.1 a b c n, h.2⟩

@[simp] theorem ok_ranges {s : State} (h : StoreOk wq s.store) (olds news : List (Nat × Nat)) :
    StoreOk wq (moveRanges s.mem olds news, s.mbx0.req, s.fw.stageData, s.pending) := ⟨wf_moveRanges h.1 olds news, h.2⟩

@[simp] theorem ok_filter {s : State} (h : StoreOk wq s.store) (f : Host.Cell → Bool) :
    StoreOk wq (s.mem.filter f, s.mbx0.req, s.fw.stageData, s.pending) :=
  ⟨wf_filter h.1 f, h.2⟩

@[simp] theorem ok_req {s : State} (h : StoreOk wq s.store) (cs : List Host.Cell) :
    StoreOk wq (s.mem, memWrite s.mbx0.req cs, s.fw.stageData, s.pending) :=
  ⟨h.1, wf_memWrite h.2.1 cs, h.2.2⟩

@[simp] theorem ok_stage {s : State} (h : StoreOk wq s.store) (cs : List Host.Cell) :
    StoreOk wq (s.mem, s.mbx0.req, memWrite s.fw.stageData cs, s.pending) :=
  ⟨h.1, h.2.1, wf_memWrite h.2.2.1 cs, h.2.2.2⟩

@[simp] theorem ok_noStage {s : State} (h : StoreOk wq s.store) : StoreOk wq (s.mem, s.mbx0.req, [], s.pending) :=
  ⟨h.1, h.2.1, rfl, h.2.2.2⟩

theorem ExOk.of_eq {r : Except Nat State} (h : ExOk wq r) {t : State} (e : r = .ok t) : StoreOk wq t.store := by
  subst e; exact h

theorem ok_elim {α : Type} (o : Option α) {s : State} {f : α → State} (hs : StoreOk wq s.store) (h : ∀ a, StoreOk wq (f a).store) :
    StoreOk wq (o.elim s f).store := by
  cases o with
  | none => exact hs
  | some a => exact h a

@[simp] theorem storeOk_ite (c : Prop) [Decidable c] {x y : Stores} (hx : StoreOk wq x) (hy : StoreOk wq y) :
    StoreOk wq (if c then x else y) := by
  split <;> assumption

@[simp] theorem exOk_ite (c : Prop) [Decidable c] {x y : Except Nat State} (hx : ExOk wq x) (hy : ExOk wq y) :
    ExOk wq (if c then x else y) := by
  split <;> assumption

theorem ok_foldKeep_fst {α β γ : Type} {f : State × γ → α → (State × γ) × Option β}
    (h : ∀ s a, StoreOk wq s.1.store → StoreOk wq (f s a).1.1.store) (l : List α) (s : State × γ) (hs : StoreOk wq s.1.store) :
    StoreOk wq (foldKeep f s l).1.1.store := by
  induction l generalizing s with
  | nil => exact hs
  | cons a l ih =>
    simp only [foldKeep]
    have h1 := h s a hs
    split
    · simp_all
    · rename_i h2; rw [h2] at h1; exact ih _ h1

theorem ok_getD {r : Except Nat State} {s : State} (h : ExOk wq r) (hs : StoreOk wq s.store) :
    StoreOk wq (r.toOption.getD s).store := by
  cases r with
  | ok t => exact h
  | error e => exact hs


@[simp] theorem store_unloaded (s : State) (ds ls : List ℕ) :
    (ds.foldl (fun s d => s.updDie d (Die.unload ls)) s).store = s.store := by
  simp [store_foldl]

theorem ok_exMap {r : Except Nat State} {f : State → State} (h : ExOk wq r) (hf : ∀ t : State, StoreOk wq t.store → StoreOk wq (f t).store) :
    ExOk wq (r.map f) := by
  cases r with
  | error e => trivial
  | ok t => exact hf t h

theorem ok_foldKeep {α β : Type} {f : State → α → State × Option β}
    (h : ∀ s a, StoreOk wq s.store → StoreOk wq (f s a).1.store) (l : List α) (s : State) (hs : StoreOk wq s.store) :
    StoreOk wq (foldKeep f s l).1.store := by
  induction l generalizing s with
  | nil => exact hs
  | cons a l ih =>
    simp only [foldKeep]
    have h1 := h s a hs
    split
    · simp_all
    · rename_i h2; rw [h2] at h1; exact ih _ h1

theorem ok_onRequest (s : State) (seq : ℕ) (command : ℕ) (f : Request → Pitch → State) (h : StoreOk wq s.store) (hf : ∀ a' b', StoreOk wq (f a' b').store) :
    StoreOk wq (State.onRequest s seq command f).store := by
  unfold State.onRequest; repeat' split
  all_goals simp_all

theorem ok_onRequestOp (s : State) (seq : ℕ) (command : ℕ) (off : ℕ) (n : ℕ) (op : ℕ) (f : Request → Pitch → State) (h : StoreOk wq s.store) (hf : ∀ a' b', StoreOk wq (f a' b').store) :
    StoreOk wq (State.onRequestOp s seq command off n op f).store := by
  unfold State.onRequestOp
  refine ok_onRequest _ _ _ _ h fun r p => ?_
  split
  · exact hf r p
  · split <;> simp [h]

theorem ok_onOperator (s : State) (seq : ℕ) (command : ℕ) (f : Request → State) (h : StoreOk wq s.store) (hf : ∀ a', StoreOk wq (f a').store) :
    StoreOk wq (State.onOperator s seq command f).store := by
  unfold State.onOperator; repeat' split
  all_goals simp_all

theorem ok_onOperatorOp (s : State) (seq : ℕ) (command : ℕ) (off : ℕ) (n : ℕ) (op : ℕ) (f : Request → State) (h : StoreOk wq s.store) (hf : ∀ a', StoreOk wq (f a').store) :
    StoreOk wq (State.onOperatorOp s seq command off n op f).store := by
  unfold State.onOperatorOp
  refine ok_onOperator _ _ _ _ h fun r => ?_
  split
  · exact hf r
  · split <;> simp [h]

@[simp] theorem ok_writeUnits (s : State) (ks : List Nat) (cs : List Host.Cell) (h : StoreOk wq s.store) :
    ExOk wq (State.writeUnits s ks cs) := by
  unfold State.writeUnits; repeat' split
  all_goals simp +contextual [ok_foldl, ok_elim, ok_getD, h]

@[simp] theorem ok_writeCells (s : State) (cs : List Host.Cell) (h : StoreOk wq s.store) :
    ExOk wq (State.writeCells s cs) := ok_writeUnits s _ cs h

@[simp] theorem ok_pitchWrite (s : State) (tag a : ℕ) (bs : List (Option Byte)) (h : StoreOk wq s.store) :
    ExOk wq (pitchWrite s tag a bs) := by
  unfold pitchWrite
  split
  · trivial
  · simp only []
    split
    · trivial
    · exact h
    · simpa using h
    · split
      · trivial
      · rename_i e
        simpa using (ok_writeUnits s _ _ h).of_eq e

@[simp] theorem ok_pitchWriteAll (s : State) (tag : ℕ) (a : ℕ) (b : Bytes) (h : StoreOk wq s.store) :
    ExOk wq (pitchWriteAll s tag a b) := by simp [pitchWriteAll, h]

@[simp] theorem ok_tryWrite (s : State) (tag a : ℕ) (b : Bytes) (h : StoreOk wq s.store) :
    StoreOk wq (s.tryWrite tag a b).store :=
  ok_getD (ok_pitchWriteAll _ _ _ _ h) h

@[simp] theorem ok_clearSram (s : State) (die : ℕ) (cluster : ℕ) (h : StoreOk wq s.store) :
    StoreOk wq (State.clearSram s die cluster).store := by simp [State.clearSram, h]

@[simp] theorem ok_clearDram (s : State) (die : ℕ) (off : ℕ) (n : ℕ) (h : StoreOk wq s.store) :
    StoreOk wq (State.clearDram s die off n).store := by simp [State.clearDram, h]

@[simp] theorem ok_unmarch (s : State) (die : ℕ) (h : StoreOk wq s.store) :
    StoreOk wq (State.unmarch s die).store := by simp [State.unmarch, h]

@[simp] theorem ok_writeStrip (s : State) (tag : ℕ) (t : TDesc) (v : List ℤ) (cs : List (ℕ × ℕ)) (scale : ℤ)
    (h : StoreOk wq s.store) : ExOk wq (writeStrip s tag t v cs scale) := by
  unfold writeStrip
  simp only []
  split
  · exact h
  · split
    · trivial
    · rename_i e
      have h1 := (ok_pitchWrite s _ _ _ h).of_eq e
      split
      · exact ok_pitchWriteAll _ _ _ _ h1
      · exact h1

@[simp] theorem ok_writeRecord (s : State) (tag : ℕ) (t : TDesc) (v : List ℤ) (lanes elems : List ℕ) (mid : Bytes)
    (flags : List (List Bool)) (h : StoreOk wq s.store) : ExOk wq (writeRecord s tag t v lanes elems mid flags) := by simp [writeRecord, h]

@[simp] theorem ok_writeAccRecord (s : State) (tag : ℕ) (t : TDesc) (v : List ℤ) (lanes : List ℕ) (accs : List Acc) (h : StoreOk wq s.store) :
    ExOk wq (writeAccRecord s tag t v lanes accs) := by simp [writeAccRecord, h]

@[simp] theorem ok_writeAnchored (s : State) (tag : ℕ) (t : TDesc) (v : List ℤ) (q : List ℤ) (anchor : ℤ) (mask : List Bool) (h : StoreOk wq s.store) :
    ExOk wq (writeAnchored s tag t v q anchor mask) := by simp [writeAnchored, h]

@[simp] theorem ok_undefineLanes (s : State) (tag : Nat) (t : TDesc) (pick : List Int → List Nat) (h : StoreOk wq s.store) :
    StoreOk wq (undefineLanes s tag t pick).store := by
  unfold undefineLanes
  dsimp only
  rw [store_draw]
  refine ok_foldl (fun s x hs => ?_) _ _ h
  split
  · rename_i e
    refine ExOk.of_eq ?_ e
    repeat' split
    · exact ok_writeRecord _ _ _ _ _ _ _ _ hs
    · exact ok_writeRecord _ _ _ _ _ _ _ _ hs
    · exact ok_writeStrip _ _ _ _ _ _ hs
  · refine ok_foldl (fun s l hs => ok_getD ?_ hs) _ _ hs
    repeat' split
    · exact ok_writeRecord _ _ _ _ _ _ _ _ hs
    · exact ok_writeRecord _ _ _ _ _ _ _ _ hs
    · exact ok_writeStrip _ _ _ _ _ _ hs

@[simp] theorem ok_undefineTensor (s : State) (tag : Nat) (t : TDesc) (lo : Nat) (hi : Nat) (h : StoreOk wq s.store) :
    StoreOk wq (undefineTensor s tag t lo hi).store := by
  unfold undefineTensor
  try dsimp only
  repeat' (first
    | with_reducible assumption
    | with_reducible refine ok_undefineLanes _ _ _ _ ?_
    | split)

@[simp] theorem ok_writeOut (s : State) (tag : ℕ) (t : TDesc) (v : List ℤ) (o : StripOut) (h : StoreOk wq s.store) :
    ExOk wq (writeOut s tag t v o) := by simp [writeOut, h]

theorem ok_collWriteStrip (c : Coll) (tag : ℕ) (acc : State × ℕ) (x : List ℤ × ℕ) (h : StoreOk wq acc.1.store) {r : State × ℕ}
    (e : c.writeStrip tag acc x = .ok r) : StoreOk wq r.1.store := by
  unfold Coll.writeStrip at e
  simp only [Except.map] at e
  split at e
  · split at e
    · exact absurd e (by simp)
    · rename_i e1
      obtain rfl := Except.ok.inj e
      exact (ok_writeAnchored _ _ _ _ _ _ _ h).of_eq e1
  · split at e
    · exact absurd e (by simp)
    · rename_i e1
      obtain rfl := Except.ok.inj e
      exact (ok_writeOut _ _ _ _ _ h).of_eq e1

@[simp] theorem ok_notify (s : State) (k : ItemKey) (addr : ℕ) (h : StoreOk wq s.store) :
    StoreOk wq (s.notify k addr).store := by
  unfold State.notify
  split
  · exact h
  · split
    · rename_i e; exact (ok_pitchWriteAll _ _ _ _ h).of_eq e
    · simpa using h

theorem ok_onItem (s : State) (k : ItemKey) (f : Pitch → Item → State) (h : StoreOk wq s.store) (hf : ∀ a' b', StoreOk wq (f a' b').store) :
    StoreOk wq (State.onItem s k f).store := by
  unfold State.onItem; repeat' split
  all_goals simp_all

@[simp] theorem ok_undefineBytes (s : State) (tag : ℕ) (lo : ℕ) (hi : ℕ) (h : StoreOk wq s.store) :
    StoreOk wq (State.undefineBytes s tag lo hi).store := by simp [State.undefineBytes, h]

@[simp] theorem ok_spoilGuarded (s : State) (tag : Nat) (queue : Option Nat) (lo : Nat) (hi : Nat) (h : StoreOk wq s.store) :
    StoreOk wq (State.spoilGuarded s tag queue lo hi).store := by
  unfold State.spoilGuarded
  try simp only []
  repeat' (first
    | with_reducible assumption
    | (simp only [store_pair, store_elim, store_foldl])
    | with_reducible refine ok_undefineBytes _ _ _ _ ?_
    | with_reducible refine ok_foldl (fun s a hs => ?_) _ _ ?_
    | with_reducible refine ok_elim _ ?_ (fun a => ?_)
    | split)

@[simp] theorem ok_spoilAddrs (s : State) (tag : Nat) (queue : Option Nat) (as : List Nat) (h : StoreOk wq s.store) :
    StoreOk wq (State.spoilAddrs s tag queue as).store := by
  unfold State.spoilAddrs
  try simp only []
  repeat' (first
    | with_reducible assumption
    | (simp only [store_pair, store_elim, store_foldl])
    | with_reducible refine ok_undefineBytes _ _ _ _ ?_
    | with_reducible refine ok_foldl (fun s a hs => ?_) _ _ ?_
    | with_reducible refine ok_elim _ ?_ (fun a => ?_)
    | split)

@[simp] theorem ok_failItem (s : State) (k : ItemKey) (status : ℕ) (h : StoreOk wq s.store) :
    StoreOk wq (State.failItem s k status).store := by
  unfold State.failItem
  try simp only []
  repeat' (first
    | with_reducible assumption
    | (simp only [exOk_ok, exOk_error, store_pair, store_leaveEngine, store_undefineSlots, store_updItem])
    | with_reducible refine ok_undefineTensor _ _ _ _ _ ?_
    | with_reducible refine ok_undefineBytes _ _ _ _ ?_
    | split)

@[simp] theorem ok_spoilItem (s : State) (k : ItemKey) (i : Item) (h : StoreOk wq s.store) :
    StoreOk wq (State.spoilItem s k i).store := by
  unfold State.spoilItem
  try dsimp only
  repeat' (first
    | with_reducible assumption
    | with_reducible refine ok_spoilAddrs _ _ _ _ ?_
    | split)

@[simp] theorem ok_failMemory (s : State) (k : ItemKey) (status : Nat) (h : StoreOk wq s.store) :
    StoreOk wq (State.failMemory s k status).store := by
  unfold State.failMemory
  try simp only []
  repeat' (first
    | with_reducible assumption
    | (simp only [store_pair, store_logBadRead])
    | with_reducible refine ok_failItem _ _ _ ?_
    | split)

@[simp] theorem ok_settleRaces (s : State) (p : Pitch) (i : Item) (h : StoreOk wq s.store) :
    StoreOk wq (State.settleRaces s p i).store := by
  unfold State.settleRaces
  try simp only []
  repeat' (first
    | with_reducible assumption
    | (simp only [store_pair, store_control, store_foldl, store_loseSlots])
    | with_reducible refine ok_undefineBytes _ _ _ _ ?_
    | with_reducible refine ok_undefineLanes _ _ _ _ ?_
    | with_reducible refine ok_undefineTensor _ _ _ _ _ ?_
    | with_reducible refine ok_foldl (fun s a hs => ?_) _ _ ?_
    | split)

@[simp] theorem ok_completeItem (s : State) (k : ItemKey) (h : StoreOk wq s.store) :
    StoreOk wq (State.completeItem s k).store := by
  unfold State.completeItem
  try dsimp only
  repeat' (first
    | with_reducible assumption
    | (simp only [store_pair, store_endRegion, store_updPitch, store_updQueue])
    | with_reducible refine ok_filter ?_ _
    | with_reducible refine ok_notify _ _ _ ?_
    | with_reducible refine ok_settleRaces _ _ _ ?_
    | with_reducible refine ok_spoilItem _ _ _ ?_
    | with_reducible refine ok_tryWrite _ _ _ _ ?_
    | split)

@[simp] theorem ok_completeWith (s : State) (k : ItemKey) (status : ℕ) (h : StoreOk wq s.store) :
    StoreOk wq (State.completeWith s k status).store := by simp [State.completeWith, h]

@[simp] theorem ok_abortRoot (s : State) (tag : Nat) (control : Nat) (dest : Bytes) (h : StoreOk wq s.store) :
    StoreOk wq (State.abortRoot s tag control dest).store := by
  unfold State.abortRoot
  try dsimp only
  repeat' (first
    | with_reducible assumption
    | (simp only [store_pair, store_control, store_updPitch])
    | with_reducible refine ok_spoilAddrs _ _ _ _ ?_
    | with_reducible refine ok_undefineTensor _ _ _ _ _ ?_
    | split)

@[simp] theorem ok_abortRest (s : State) (tag ident control : ℕ) (dest : Bytes) (ended : List ℕ) (h : StoreOk wq s.store) :
    StoreOk wq (State.abortRest s tag ident control dest ended).store := by
  unfold State.abortRest
  try simp only []
  repeat' (first
    | with_reducible assumption
    | (simp only [store_updItem, store_updPitch])
    | with_reducible refine ok_abortRoot _ _ _ _ ?_
    | with_reducible refine ok_foldl (fun s a hs => ?_) _ _ ?_
    | split)

@[simp] theorem ok_abortColl (s : State) (tag : Nat) (ident : Nat) (ended : List Nat) (h : StoreOk wq s.store) :
    StoreOk wq (State.abortColl s tag ident ended).store := by
  unfold State.abortColl
  try dsimp only
  repeat' (first
    | with_reducible assumption
    | (simp only [store_pair, store_control, store_foldl, store_tellDown, store_updItem, store_updPitch])
    | with_reducible refine ok_abortRest _ _ _ _ _ _ ?_
    | with_reducible refine ok_filter ?_ _
    | with_reducible refine ok_foldl (fun s a hs => ?_) _ _ ?_
    | split)

@[simp] theorem ok_abortWhole (s : State) (k : ItemKey) (i : Item) (h : StoreOk wq s.store) :
    StoreOk wq (State.abortWhole s k i).store := by
  unfold State.abortWhole; repeat' split
  all_goals simp [h]

@[simp] theorem ok_abortResult (s : State) (k : ItemKey) (i : Item) (h : StoreOk wq s.store) :
    StoreOk wq (State.abortResult s k i).store := by simp [State.abortResult, h]

@[simp] theorem ok_abortNow (s : State) (k : ItemKey) (h : StoreOk wq s.store) :
    StoreOk wq (State.abortNow s k).store := by
  unfold State.abortNow
  try simp only []
  repeat' (first
    | with_reducible assumption
    | (simp only [store_pair, store_updItem])
    | with_reducible refine ok_abortWhole _ _ _ ?_
    | with_reducible refine ok_completeItem _ _ ?_
    | with_reducible refine ok_completeWith _ _ _ ?_
    | split)

@[simp] theorem ok_abortItem (s : State) (k : ItemKey) (h : StoreOk wq s.store) :
    StoreOk wq (State.abortItem s k).store := by
  unfold State.abortItem; repeat' split
  all_goals simp [h]

@[simp] theorem ok_abortConsumed (s : State) (tag : ℕ) (queue : ℕ) (lo : ℕ) (hi : ℕ) (h : StoreOk wq s.store) :
    StoreOk wq (State.abortConsumed s tag queue lo hi).store := by
  unfold State.abortConsumed; repeat' split
  all_goals simp +contextual [ok_foldl, ok_elim, ok_getD, h]

@[simp] theorem ok_tileStrip (key : ItemKey) (w : WDesc) (o : Operand) (m : OutMode) (v : List ℤ) (ls : List (ℕ × Acc)) (acc : State × Raised) (h : StoreOk wq acc.1.store) :
    StoreOk wq (tileStrip key w o m v ls acc).1.1.store := by
  unfold tileStrip
  try simp only []
  repeat' (first
    | with_reducible assumption
    | (simp only [exOk_ok, exOk_error, store_pair, store_updItem])
    | with_reducible refine ok_writeAccRecord _ _ _ _ _ _ ?_
    | with_reducible refine ok_writeOut _ _ _ _ _ ?_
    | with_reducible refine ok_kept ?_ ?_
    | split)

@[simp] theorem ok_ewStrip (key : ItemKey) (p : Pitch) (w : WDesc) (srcs : List Operand) (o : Operand) (m : OutMode) (acc : State × Raised) (v : List ℤ) (h : StoreOk wq acc.1.store) :
    StoreOk wq (ewStrip key p w srcs o m acc v).1.1.store := by
  unfold ewStrip
  try simp only []
  repeat' (first
    | with_reducible assumption
    | (simp only [exOk_ok, exOk_error, store_pair, store_updItem, store_draw])
    | with_reducible refine ok_writeOut _ _ _ _ _ ?_
    | with_reducible refine ok_kept ?_ ?_
    | split)

@[simp] theorem ok_ewUnit (key : ItemKey) (p : Pitch) (w : WDesc) (srcs : List Operand) (o : Operand) (m : OutMode) (s : State) (vs : List (List ℤ)) (h : StoreOk wq s.store) :
    StoreOk wq (ewUnit key p w srcs o m s vs).1.store := by
  unfold ewUnit
  try simp only []
  repeat' (first
    | with_reducible assumption
    | (simp only [exOk_ok, exOk_error, store_pair, store_updItem])
    | with_reducible refine ok_ewStrip _ _ _ _ _ _ _ _ ?_
    | with_reducible refine ok_foldKeep_fst (fun s a hs => ?_) _ _ ?_
    | split)

@[simp] theorem ok_endRun (r : State × Option ℕ) (pl : Place) (key : ItemKey) (h : StoreOk wq r.1.store) :
    StoreOk wq (State.endRun r pl key).store := by
  unfold State.endRun; split <;> simp [h]

@[simp] theorem ok_flushRecords (s : State) (tag : ℕ) (model : ℕ) (sid : ℕ) (h : StoreOk wq s.store) :
    StoreOk wq (State.flushRecords s tag model sid).store := by
  unfold State.flushRecords
  try simp only []
  repeat' (first
    | with_reducible assumption
    | (simp only [exOk_ok, exOk_error, store_pair, store_updSession])
    | with_reducible refine ok_tryWrite _ _ _ _ ?_
    | with_reducible refine ok_foldl (fun s a hs => ?_) _ _ ?_
    | split)

@[simp] theorem ok_pushRecords (s : State) (tag : ℕ) (model : ℕ) (sid : ℕ) (rs : List Bytes) (h : StoreOk wq s.store) :
    StoreOk wq (State.pushRecords s tag model sid rs).store := by simp [State.pushRecords, h]

@[simp] theorem ok_pushEnd (s : State) (tag : ℕ) (model : ℕ) (sid : ℕ) (reqTag : ℕ) (reason : ℕ) (status : ℕ) (h : StoreOk wq s.store) :
    StoreOk wq (State.pushEnd s tag model sid reqTag reason status).store := by simp [State.pushEnd, h]

@[simp] theorem ok_failRequest (s : State) (tag : ℕ) (model : ℕ) (sid : ℕ) (reason : ℕ) (status : ℕ) (h : StoreOk wq s.store) :
    StoreOk wq (State.failRequest s tag model sid reason status).store := by
  unfold State.failRequest; split <;> simp [h]

@[simp] theorem ok_finishClosing (s : State) (tag : ℕ) (model : ℕ) (sid : ℕ) (h : StoreOk wq s.store) :
    StoreOk wq (State.finishClosing s tag model sid).store := by
  unfold State.finishClosing
  try simp only []
  repeat' (first
    | with_reducible assumption
    | (simp only [exOk_ok, exOk_error, store_pair, store_endRequest, store_removeSession, store_respond])
    | with_reducible refine ok_failRequest _ _ _ _ _ _ ?_
    | with_reducible refine ok_flushRecords _ _ _ _ ?_
    | with_reducible refine ok_elim _ ?_ (fun a => ?_)
    | split)

@[simp] theorem ok_startClosing (s : State) (tag : ℕ) (model : ℕ) (sid : ℕ) (req : Option ℕ) (h : StoreOk wq s.store) :
    StoreOk wq (State.startClosing s tag model sid req).store := by simp [State.startClosing, h]

@[simp] theorem ok_restoreBlock (s : State) (tag : Nat) (model : Nat) (sid : Nat) (j : Nat) (b : Block) (found : Option Nat) (kv : List Bytes) (h : StoreOk wq s.store) :
    StoreOk wq (restoreBlock s tag model sid j b found kv).store := by
  unfold restoreBlock
  try dsimp only
  repeat' (first
    | with_reducible assumption
    | (simp only [store_pair, store_foldl, store_updModel, store_updPitch, store_updSession])
    | with_reducible refine ok_tryWrite _ _ _ _ ?_
    | with_reducible refine ok_foldl (fun s a hs => ?_) _ _ ?_
    | split)

@[simp] theorem ok_restoreShadow (s : State) (tag : ℕ) (draft : ℕ) (model : ℕ) (sid : ℕ) (bs : List Block) (rec : Bytes) (h : StoreOk wq s.store) :
    StoreOk wq (restoreShadow s tag draft model sid bs rec).store := by
  unfold restoreShadow
  try simp only []
  repeat' (first
    | with_reducible assumption
    | (simp only [exOk_ok, exOk_error, store_pair, store_updModel, store_updSession])
    | with_reducible refine ok_tryWrite _ _ _ _ ?_
    | with_reducible refine ok_foldl (fun s a hs => ?_) _ _ ?_
    | split)

@[simp] theorem ok_resumeSession (s : State) (p : Pitch) (m : Model) (x : Session) (q : Pause) (rec : Bytes) (h : StoreOk wq s.store) :
    StoreOk wq (State.resumeSession s p m x q rec).store := by
  unfold State.resumeSession
  try dsimp only
  repeat' (first
    | with_reducible assumption
    | (simp only [store_pair, store_foldl, store_updModel, store_updSession])
    | with_reducible refine ok_req ?_ _
    | with_reducible refine ok_restoreBlock _ _ _ _ _ _ _ _ ?_
    | with_reducible refine ok_restoreShadow _ _ _ _ _ _ _ ?_
    | with_reducible refine ok_foldl (fun s a hs => ?_) _ _ ?_
    | split)

@[simp] theorem ok_boothResumeOne (tag : ℕ) (model : ℕ) (acc : State × Bool) (sid : ℕ) (h : StoreOk wq acc.1.store) :
    StoreOk wq (boothResumeOne tag model acc sid).1.store := by
  unfold boothResumeOne
  try simp only []
  repeat' (first
    | with_reducible assumption
    | (simp only [exOk_ok, exOk_error, store_pair, store_dropPaused])
    | with_reducible refine ok_resumeSession _ _ _ _ _ _ ?_
    | split)

@[simp] theorem ok_swapLogical (s : State) (p : Pitch) (pl : Place) (old : ℕ) (new : ℕ) (h : StoreOk wq s.store) :
    StoreOk wq (State.swapLogical s p pl old new).store := by simp [State.swapLogical, h]

@[simp] theorem ok_headView (s : State) (p : Pitch) (q : Queue) (h : StoreOk wq s.store) :
    StoreOk wq (headView s p q).store := by
  unfold headView
  try simp only []
  repeat' (first
    | with_reducible assumption
    | (simp only [store_pair, store_elim, store_foldl])
    | with_reducible refine ok_tryWrite _ _ _ _ ?_
    | with_reducible refine ok_foldl (fun s a hs => ?_) _ _ ?_
    | with_reducible refine ok_elim _ ?_ (fun a => ?_)
    | split)

@[simp] theorem ok_completeQueueItem (s : State) (p : Pitch) (k : ItemKey) (h : StoreOk wq s.store) :
    StoreOk wq (State.completeQueueItem s p k).store := by simp [State.completeQueueItem, h]

@[simp] theorem ok_finishSave (s : State) (seq : ℕ) (p : Pitch) (b : Bytes) (h : StoreOk wq s.store) :
    StoreOk wq (State.finishSave s seq p b).store := by
  unfold State.finishSave
  try simp only []
  repeat' (first
    | with_reducible assumption
    | (simp only [exOk_ok, exOk_error, store_pair, store_respond, store_updPitch, store_dropSave])
    | with_reducible exact ExOk.of_eq (ok_pitchWriteAll _ _ _ _ (by assumption)) (by assumption)
    | split)

@[simp] theorem ok_loadCluster (s : State) (p : Pitch) (l : ℕ) (img : Bytes) (h : StoreOk wq s.store) :
    StoreOk wq (State.loadCluster s p l img).store := by
  unfold State.loadCluster; split <;> simp [h]

@[simp] theorem ok_clearRemote (s : State) (p : Pitch) (dram : Bool) (h : StoreOk wq s.store) :
    StoreOk wq (State.clearRemote s p dram).store := by
  unfold State.clearRemote
  try simp only []
  repeat' (first
    | with_reducible assumption
    | (simp only [store_pair, store_setBad, store_setMem])
    | with_reducible refine ok_filter ?_ _
    | split)

@[simp] theorem ok_loadPages (s : State) (p : Pitch) (b : Bytes) (h : StoreOk wq s.store) :
    StoreOk wq (State.loadPages s p b).store := by
  unfold State.loadPages
  try dsimp only
  repeat' (first
    | with_reducible assumption
    | (simp only [store_pair, store_foldl, store_updPitch])
    | with_reducible refine ok_clearDram _ _ _ _ ?_
    | with_reducible refine ok_clearRemote _ _ _ ?_
    | with_reducible refine ok_tryWrite _ _ _ _ ?_
    | with_reducible refine ok_foldl (fun s a hs => ?_) _ _ ?_
    | split)

@[simp] theorem ok_doRestore (s : State) (p : Pitch) (b : Bytes) (h : StoreOk wq s.store) :
    StoreOk wq (State.doRestore s p b).store := by
  unfold State.doRestore
  try simp only []
  repeat' (first
    | with_reducible assumption
    | (simp only [exOk_ok, exOk_error, store_pair, store_updPitch])
    | with_reducible refine ok_loadPages _ _ _ ?_
    | with_reducible refine ok_loadCluster _ _ _ _ ?_
    | with_reducible refine ok_foldl (fun s a hs => ?_) _ _ ?_
    | with_reducible refine ok_elim _ ?_ (fun a => ?_)
    | split)

@[simp] theorem ok_putStrip (s : State) (key : ItemKey) (o : Operand) (m : OutMode) (v : List ℤ) (xs : List (ℕ × Num)) (h : StoreOk wq s.store) :
    StoreOk wq (State.putStrip s key o m v xs).1.store := by
  unfold State.putStrip
  try simp only []
  repeat' (first
    | with_reducible assumption
    | (simp only [exOk_ok, exOk_error, store_pair, store_updItem])
    | with_reducible refine ok_writeOut _ _ _ _ _ ?_
    | with_reducible refine ok_kept ?_ ?_)

@[simp] theorem ok_vecStrip (key : ItemKey) (p : Pitch) (i : Item) (o : Operand) (s : State) (v : List ℤ) (h : StoreOk wq s.store) :
    StoreOk wq (vecStrip key p i o s v).1.store := by
  unfold vecStrip; split <;> simp [h]

@[simp] theorem ok_randStrip (key : ItemKey) (i : Item) (o : Operand) (s : State) (v : List ℤ) (h : StoreOk wq s.store) :
    StoreOk wq (randStrip key i o s v).1.store := by simp [randStrip, h]

@[simp] theorem ok_writeArray (s : State) (tag : ℕ) (header : ℕ) (k : ℕ) (rows : List (List W32)) (h : StoreOk wq s.store) :
    StoreOk wq (State.writeArray s tag header k rows).store := by
  unfold State.writeArray; exact ok_foldl (fun s a hs => by simp [hs]) _ _ (by simp [h])

@[simp] theorem ok_zeroSpan (s : State) (tag : ℕ) (a : ℕ) (n : ℕ) (h : StoreOk wq s.store) :
    StoreOk wq (State.zeroSpan s tag a n).store := by
  unfold State.zeroSpan
  try simp only []
  repeat' (first
    | with_reducible assumption
    | (simp only [exOk_ok, exOk_error, store_pair, store_setBad, store_updPitch, store_markWritten, store_setMem])
    | with_reducible refine ok_clear ?_ _ _
    | with_reducible refine ok_foldl (fun s a hs => ?_) _ _ ?_
    | split)

@[simp] theorem ok_initBlock (s : State) (tag : ℕ) (l : Layer) (r : Rule) (b : ℕ) (w : List (List W32)) (h : StoreOk wq s.store) :
    StoreOk wq (State.initBlock s tag l r b w).store := by
  unfold State.initBlock
  try simp only []
  repeat' (first | with_reducible assumption | with_reducible refine ok_writeArray _ _ _ _ _ ?_ | split)

@[simp] theorem ok_initLayer (s : State) (p : Pitch) (run : ℕ) (l : Layer) (r : Rule) (step : ℕ) (ws : List (List (List W32))) (h : StoreOk wq s.store) :
    StoreOk wq (State.initLayer s p run l r step ws).store := by
  unfold State.initLayer
  try simp only []
  repeat' (first
    | with_reducible assumption
    | (simp only [exOk_ok, exOk_error, store_pair, store_updRun])
    | with_reducible refine ok_zeroSpan _ _ _ _ ?_
    | with_reducible refine ok_initBlock _ _ _ _ _ _ ?_
    | with_reducible refine ok_foldl (fun s a hs => ?_) _ _ ?_)

@[simp] theorem ok_writeSlots (s : State) (tag : ℕ) (r : Run) (c : Ckpt) (slot : ℕ) (step : ℕ) (st : ℕ) (h : StoreOk wq s.store) :
    StoreOk wq (State.writeSlots s tag r c slot step st).store := by
  unfold State.writeSlots; repeat' split
  all_goals simp +contextual [ok_foldl, ok_elim, ok_getD, h]

@[simp] theorem ok_endCkpt (s : State) (tag : Nat) (r : Run) (c : Ckpt) (slot : Nat) (t : Nat) (st : Nat) (h : StoreOk wq s.store) :
    StoreOk wq (State.endCkpt s tag r c slot t st).store := by
  unfold State.endCkpt
  try simp only []
  repeat' (first
    | with_reducible assumption
    | (simp only [store_pair, store_updRun])
    | with_reducible refine ok_writeSlots _ _ _ _ _ _ _ ?_
    | split)

@[simp] theorem ok_startCkpt (s : State) (tag : ℕ) (r : Run) (c : Ckpt) (t : ℕ) (h : StoreOk wq s.store) :
    StoreOk wq (State.startCkpt s tag r c t).store := by simp [State.startCkpt, h]

@[simp] theorem ok_ckptDue (s : State) (tag : Nat) (run : Nat) (t : Nat) (h : StoreOk wq s.store) :
    StoreOk wq (State.ckptDue s tag run t).store := by
  unfold State.ckptDue
  try simp only []
  repeat' (first
    | with_reducible assumption
    | (simp only [store_pair, store_logNote, store_updRun])
    | with_reducible refine ok_startCkpt _ _ _ _ _ ?_
    | split)

@[simp] theorem ok_loadLayer (s : State) (tag : ℕ) (run : ℕ) (step : ℕ) (x : ℕ × Layer × Bytes) (h : StoreOk wq s.store) :
    StoreOk wq (State.loadLayer s tag run step x).store := by
  unfold State.loadLayer; repeat' split
  all_goals simp +contextual [ok_foldl, ok_elim, ok_getD, h]

@[simp] theorem ok_loseCrusher (s : State) (p : Pitch) (r : Run) (h : StoreOk wq s.store) :
    StoreOk wq (State.loseCrusher s p r).store := by
  unfold State.loseCrusher
  try simp only []
  repeat' (first
    | with_reducible assumption
    | (simp only [exOk_ok, exOk_error, store_pair, store_draw, store_updRun])
    | with_reducible refine ok_undefineBytes _ _ _ _ ?_
    | with_reducible refine ok_foldl (fun s a hs => ?_) _ _ ?_
    | split)

@[simp] theorem ok_dropCkpt (s : State) (tag : Nat) (run : Nat) (h : StoreOk wq s.store) :
    StoreOk wq (State.dropCkpt s tag run).store := by
  unfold State.dropCkpt
  try simp only []
  repeat' (first
    | with_reducible assumption
    | with_reducible refine ok_endCkpt _ _ _ _ _ _ _ ?_
    | split)

@[simp] theorem ok_setKronHeader (s : State) (tag : ℕ) (header : ℕ) (refresh : ℕ) (inUse : ℕ) (h : StoreOk wq s.store) :
    StoreOk wq (State.setKronHeader s tag header refresh inUse).store := by simp [State.setKronHeader, h]

@[simp] theorem ok_kronSwap (s : State) (tag : ℕ) (r : Run) (u : Rule) (header : ℕ) (t : ℕ) (h : StoreOk wq s.store) :
    StoreOk wq (State.kronSwap s tag r u header t).store := by
  unfold State.kronSwap; split <;> simp [h]

@[simp] theorem ok_kronSnap (s : State) (tag : ℕ) (r : Run) (l : Layer) (u : Rule) (b : ℕ) (header : ℕ) (t : ℕ) (h : StoreOk wq s.store) :
    StoreOk wq (State.kronSnap s tag r l u b header t).store := by
  unfold State.kronSnap
  try simp only []
  repeat' (first
    | with_reducible assumption
    | with_reducible refine ok_writeArray _ _ _ _ _ ?_
    | with_reducible refine ok_setKronHeader _ _ _ _ _ ?_
    | split)

@[simp] theorem ok_layerDue (s : State) (tag : Nat) (run : Nat) (layer : Nat) (h : StoreOk wq s.store) :
    StoreOk wq (State.layerDue s tag run layer).store := by
  unfold State.layerDue
  try simp only []
  repeat' (first
    | with_reducible assumption
    | with_reducible refine ok_ckptDue _ _ _ _ ?_
    | split)

@[simp] theorem ok_nextStep (s : State) (tag : Nat) (run : Nat) (l : Layer) (b : Nat) (h : StoreOk wq s.store) :
    StoreOk wq (State.nextStep s tag run l b).store := by
  unfold State.nextStep
  try simp only []
  repeat' (first
    | with_reducible assumption
    | (simp only [store_pair, store_elim, store_updRun])
    | with_reducible refine ok_layerDue _ _ _ _ ?_
    | with_reducible refine ok_elim _ ?_ (fun a => ?_)
    | split)

@[simp] theorem ok_updateArrays (s : State) (p : Pitch) (r : Run) (l : Layer) (u : Rule) (b : ℕ) (t : ℕ) (m : W32) (g : List (List (Option W32))) (h : StoreOk wq s.store) :
    StoreOk wq (State.updateArrays s p r l u b t m g).store := by
  unfold State.updateArrays
  try simp only []
  repeat' (first | with_reducible assumption | with_reducible refine ok_writeArray _ _ _ _ _ ?_ | split)

@[simp] theorem ok_applyBlock (s : State) (tag : Nat) (run : Nat) (l : Layer) (u : Rule) (c : CBlock) (m : W32) (hold : Option Nat) (h : StoreOk wq s.store) :
    StoreOk wq (State.applyBlock s tag run l u c m hold).store := by
  unfold State.applyBlock
  try simp only []
  repeat' (first
    | with_reducible assumption
    | (simp only [store_pair, store_draw, store_elim, store_emit, store_updPitch, store_updRun])
    | with_reducible refine ok_kronSnap _ _ _ _ _ _ _ _ ?_
    | with_reducible refine ok_kronSwap _ _ _ _ _ _ ?_
    | with_reducible refine ok_nextStep _ _ _ _ _ ?_
    | with_reducible refine ok_updateArrays _ _ _ _ _ _ _ _ _ ?_
    | with_reducible refine ok_elim _ ?_ (fun a => ?_)
    | split)

theorem ok_onBlock (s : State) (tag : ℕ) (run : ℕ) (layer : ℕ) (block : ℕ) (f : Pitch →   Run →     Layer → Rule → CBlock → State) (h : StoreOk wq s.store) (hf : ∀ a' b' c' d' e', StoreOk wq (f a' b' c' d' e').store) :
    StoreOk wq (State.onBlock s tag run layer block f).store := by
  unfold State.onBlock
  repeat' (first | exact h | split | exact hf _ _ _ _ _ | refine ok_elim _ ?_ (fun a => ?_))

@[simp] theorem ok_updateBlock (s : State) (tag : Nat) (run : Nat) (p : Pitch) (r : Run) (l : Layer) (u : Rule) (c : CBlock) (m : W32) (h : StoreOk wq s.store) :
    StoreOk wq (State.updateBlock s tag run p r l u c m).store := by
  unfold State.updateBlock
  try simp only []
  repeat' (first
    | with_reducible assumption
    | (simp only [store_pair, store_noteLate])
    | with_reducible refine ok_applyBlock _ _ _ _ _ _ _ _ ?_
    | split)

@[simp] theorem ok_applyHeld (tag : Nat) (run : Nat) (acc : State × Bool) (c : CBlock) (h : StoreOk wq acc.1.store) :
    StoreOk wq (applyHeld tag run acc c).1.store := by
  unfold applyHeld
  try simp only []
  repeat' (first
    | with_reducible assumption
    | (simp only [store_pair, store_noteLate, store_onBlock])
    | with_reducible refine ok_applyBlock _ _ _ _ _ _ _ _ ?_
    | with_reducible refine ok_onBlock _ _ _ _ _ _ ?_ (fun z0 z1 z2 z3 z4 => ?_)
    | split)

@[simp] theorem ok_emitStrip (s : State) (tag : ℕ) (r : Run) (x : Plan) (layer : ℕ) (e : EmitStrip) (h : StoreOk wq s.store) :
    StoreOk wq (State.emitStrip s tag r x layer e).store := ok_getD (ok_writeStrip _ _ _ _ _ _ h) h

@[simp] theorem ok_copyPiece (s : State) (tag : ℕ) (src dst : TDesc) (h : StoreOk wq s.store) :
    StoreOk wq (State.copyPiece s tag src dst).store := by
  refine ok_foldl (fun s v hs => ?_) _ _ h
  split
  · exact hs
  · exact ok_getD (ok_writeStrip _ _ _ _ _ _ hs) hs

@[simp] theorem ok_copyShadows (s : State) (tag : ℕ) (x : Plan) (r : Run) (layer : ℕ × ℕ → Bool) (holder : Holder → Bool) (h : StoreOk wq s.store) :
    StoreOk wq (State.copyShadows s tag x r layer holder).store := by
  unfold State.copyShadows
  try simp only []
  repeat' (first
    | with_reducible assumption
    | (simp only [exOk_ok, exOk_error, store_pair, store_draw])
    | with_reducible refine ok_copyPiece _ _ _ _ ?_
    | with_reducible refine ok_foldl (fun s a hs => ?_) _ _ ?_
    | split)

@[simp] theorem ok_copyOutside (s : State) (tag : Nat) (p : Pitch) (x : Plan) (r : Run) (h : StoreOk wq s.store) :
    StoreOk wq (State.copyOutside s tag p x r).store := by
  unfold State.copyOutside
  try simp only []
  repeat' (first
    | with_reducible assumption
    | (simp only [store_pair, store_updPlan])
    | with_reducible refine ok_copyShadows _ _ _ _ _ _ ?_
    | with_reducible refine ok_filter ?_ _
    | split)

@[simp] theorem ok_copyLate (s : State) (tag : Nat) (run : Nat) (h : StoreOk wq s.store) :
    StoreOk wq (State.copyLate s tag run).store := by
  unfold State.copyLate
  try dsimp only
  repeat' (first
    | with_reducible assumption
    | with_reducible refine ok_copyOutside _ _ _ _ _ ?_
    | with_reducible refine ok_stage ?_ _
    | split)

@[simp] theorem ok_sendLayer (s : State) (tag : ℕ) (p : Pitch) (r : Run) (l : Layer) (u : Rule) (ldie : ℕ) (c : Ckpt) (slot : ℕ) (t : ℕ) (h : StoreOk wq s.store) :
    StoreOk wq (State.sendLayer s tag p r l u ldie c slot t).store := by simp [State.sendLayer, h]

theorem ok_onWriting (s : State) (tag : ℕ) (run : ℕ) (f : Pitch → Run → Ckpt → ℕ → ℕ → State) (h : StoreOk wq s.store)
    (hf : ∀ a' b' c' d' e', StoreOk wq (f a' b' c' d' e').store) :
    StoreOk wq (State.onWriting s tag run f).store := by
  unfold State.onWriting
  repeat' (first | exact h | split | exact hf _ _ _ _ _)

@[simp] theorem ok_testErase (s : State) (die : Nat) (target : Nat) (port : Nat) (h : StoreOk wq s.store) :
    StoreOk wq (State.testErase s die target port).store := by
  unfold State.testErase
  try dsimp only
  repeat' (first
    | with_reducible assumption
    | (simp only [store_pair, store_foldl, store_updDie, store_updPort])
    | with_reducible refine ok_clearDram _ _ _ _ ?_
    | with_reducible refine ok_clearSram _ _ _ ?_
    | with_reducible refine ok_filter ?_ _
    | with_reducible refine ok_foldl (fun s a hs => ?_) _ _ ?_
    | split)

@[simp] theorem ok_loseDie (s : State) (die : ℕ) (h : StoreOk wq s.store) :
    StoreOk wq (State.loseDie s die).store := by
  unfold State.loseDie
  try simp only []
  repeat' (first
    | with_reducible assumption
    | (simp only [exOk_ok, exOk_error, store_pair, store_updDie])
    | with_reducible refine ok_unmarch _ _ ?_
    | with_reducible refine ok_clearSram _ _ _ ?_
    | with_reducible refine ok_foldl (fun s a hs => ?_) _ _ ?_)

@[simp] theorem ok_abandonTest (s : State) (die : Nat) (h : StoreOk wq s.store) : StoreOk wq (s.abandonTest die).store := by
  unfold State.abandonTest
  dsimp only
  split
  · simpa using h
  · simp only [store_closeRecord, store_logEvent, store_testOver, store_updDie, store_updRecord]
    exact ok_testErase _ _ _ _ (by simpa using h)

@[simp] theorem ok_dieFault (s : State) (die : ℕ) (rail : ℕ) (h : StoreOk wq s.store) :
    StoreOk wq (State.dieFault s die rail).store := by simp [State.dieFault, h]

@[simp] theorem ok_exhaust (s : State) (die : ℕ) (kind : ℕ) (h : StoreOk wq s.store) :
    StoreOk wq (State.exhaust s die kind).store := by simp [State.exhaust, h]

@[simp] theorem ok_finishTest (s : State) (die : Nat) (t : RunningTest) (reported : List Failure) (h : StoreOk wq s.store) :
    StoreOk wq (State.finishTest s die t reported).store := by
  unfold State.finishTest
  try dsimp only
  repeat' (first
    | with_reducible assumption
    | (simp only [store_pair, store_closeRecord, store_dueTest, store_elim, store_endMarch, store_logEvent, store_logRepairs, store_pairTested, store_testOver, store_updDie, store_updRecord])
    | with_reducible refine ok_exhaust _ _ _ ?_
    | with_reducible refine ok_filter ?_ _
    | with_reducible refine ok_testErase _ _ _ _ ?_
    | with_reducible refine ok_elim _ ?_ (fun a => ?_)
    | split)

@[simp] theorem ok_keeperOnly (s : State) (cause : ℕ) (h : StoreOk wq s.store) : StoreOk wq (s.keeperOnly cause).store := by
  have h1 : ∀ (l : List ℕ) (s : State), StoreOk wq s.store → StoreOk wq (l.foldl (fun s d => (s.abandonTest d).loseDie d) s).store :=
    fun l s hs => ok_foldl (fun s d hs => ok_loseDie _ _ (ok_abandonTest _ _ hs)) l s hs
  have h2 : ∀ (l : List ℕ) (s : State), StoreOk wq s.store → StoreOk wq (l.foldl State.failPitch s).store :=
    fun l s hs => by rw [store_foldl (fun s a => store_failPitch s a)]; exact hs
  unfold State.keeperOnly
  generalize List.range Config.dies = l
  simp only [store_logEvent, store_setKpr, setFw_store]
  refine ok_noStage ?_
  simp only [store_setBoxes]
  exact h1 l _ (h2 _ _ (by simpa using h))

@[simp] theorem ok_clearModule (s : State) (h : StoreOk wq s.store) :
    StoreOk wq s.clearModule.store := ⟨wf_keptMem h.1, rfl, rfl, h.2.2.2⟩

@[simp] theorem ok_moduleReset (s : State) (cause : ℕ) (restart : Bool) (h : StoreOk wq s.store) :
    StoreOk wq (State.moduleReset s cause restart).store := by simp [State.moduleReset, h]

@[simp] theorem ok_unpower (s : State) (h : StoreOk wq s.store) : StoreOk wq s.unpower.store := ok_clearModule s h

theorem ok_coordinated (s : State) (seq : ℕ) (p : Pitch) (body : Bytes) (done : State → State) (h : StoreOk wq s.store) (hf : ∀ t : State, StoreOk wq t.store → StoreOk wq (done t).store) :
    StoreOk wq (State.coordinated s seq p body done).store := by
  unfold State.coordinated; repeat' split
  all_goals simp_all

theorem ok_onNamed (s : State) (seq : ℕ) (tag : ℕ) (f : Pitch → State) (h : StoreOk wq s.store) (hf : ∀ a', StoreOk wq (f a').store) :
    StoreOk wq (State.onNamed s seq tag f).store := by
  unfold State.onNamed; repeat' split
  all_goals simp_all

@[simp] theorem ok_releaseWork (s : State) (seq : ℕ) (p : Pitch) (h : StoreOk wq s.store) :
    StoreOk wq (State.releaseWork s seq p).store := by
  unfold State.releaseWork
  try simp only []
  repeat' (first
    | with_reducible assumption
    | (simp only [exOk_ok, exOk_error, store_pair, store_updPitch])
    | with_reducible refine ok_abortConsumed _ _ _ _ _ ?_
    | with_reducible refine ok_abortColl _ _ _ _ ?_
    | with_reducible refine ok_foldl (fun s a hs => ?_) _ _ ?_)

@[simp] theorem ok_scrubDie (s : State) (die : ℕ) (h : StoreOk wq s.store) :
    StoreOk wq (State.scrubDie s die).store := by
  unfold State.scrubDie
  try simp only []
  repeat' (first
    | with_reducible assumption
    | (simp only [exOk_ok, exOk_error, store_pair, store_updDie])
    | with_reducible refine ok_unmarch _ _ ?_
    | with_reducible refine ok_clearSram _ _ _ ?_
    | with_reducible refine ok_foldl (fun s a hs => ?_) _ _ ?_)

@[simp] theorem ok_releaseScrub (s : State) (p : Pitch) (h : StoreOk wq s.store) :
    StoreOk wq (State.releaseScrub s p).store := by
  unfold State.releaseScrub
  try simp only []
  repeat' (first
    | with_reducible assumption
    | (simp only [exOk_ok, exOk_error, store_pair, store_unbindTag, store_releaseLent, store_updPitch, store_updDie, store_logUnmarched, store_startTest, store_setMem, store_setBad])
    | with_reducible refine ok_filter ?_ _
    | with_reducible refine ok_scrubDie _ _ ?_
    | with_reducible refine ok_foldl (fun s a hs => ?_) _ _ ?_
    | split)

@[simp] theorem ok_releaseStep (s : State) (seq : Nat) (tag : Nat) (h : StoreOk wq s.store) :
    StoreOk wq (State.releaseStep s seq tag).store := by
  unfold State.releaseStep
  try simp only []
  repeat' (first
    | with_reducible assumption
    | (simp only [store_pair, store_coordinated, store_elim, store_setPitches, store_unbindTag, store_updPitch])
    | with_reducible refine ok_coordinated _ _ _ _ _ ?_ (fun z0 z1 => ?_)
    | with_reducible refine ok_filter ?_ _
    | with_reducible refine ok_releaseScrub _ _ ?_
    | with_reducible refine ok_elim _ ?_ (fun a => ?_)
    | split)

@[simp] theorem ok_releaseLend (s : State) (seq : ℕ) (tag : ℕ) (l : Lend) (h : StoreOk wq s.store) :
    StoreOk wq (State.releaseLend s seq tag l).store := by
  unfold State.releaseLend; simp +contextual [ok_foldl, h]

@[simp] theorem ok_primaryFault (s : State) (h : StoreOk wq s.store) :
    StoreOk wq (State.primaryFault s).store := by
  unfold State.primaryFault; repeat' split
  all_goals simp [h]

@[simp] theorem ok_itemHeard (s : State) (k : ItemKey) (t : Txn) (status : Nat) (data : Bytes) (h : StoreOk wq s.store) :
    StoreOk wq (State.itemHeard s k t status data).store := by
  unfold State.itemHeard
  repeat' split
  · exact ok_failItem _ _ _ h
  · exact ok_write h _
  · exact h

@[simp] theorem ok_outcome (s : State) (t : Txn) (status : Nat) (data : Bytes) (lost : Bool) (h : StoreOk wq s.store) :
    StoreOk wq (State.outcome s t status data lost).store := by
  unfold State.outcome
  try dsimp only
  repeat' (first
    | with_reducible assumption
    | (simp only [store_pair, store_hostDone, store_lenderHeard])
    | with_reducible refine ok_itemHeard _ _ _ _ _ ?_
    | split)

@[simp] theorem ok_completeTxn (s : State) (die : Nat) (f : Frame) (h : StoreOk wq s.store) :
    StoreOk wq (State.completeTxn s die f).store := by
  unfold State.completeTxn
  try dsimp only
  repeat' (first
    | with_reducible assumption
    | (simp only [store_pair, store_endTxn])
    | with_reducible refine ok_outcome _ _ _ _ _ ?_
    | split)

@[simp] theorem ok_response (s : State) (die : Nat) (f : Frame) (h : StoreOk wq s.store) :
    StoreOk wq (State.response s die f).store := by
  unfold State.response
  try simp only []
  repeat' (first
    | with_reducible assumption
    | (simp only [store_pair, store_collDown])
    | with_reducible refine ok_completeTxn _ _ _ ?_
    | split)

@[simp] theorem ok_touchDie (s : State) (die : Nat) (off : Nat) (n : Nat) (h : StoreOk wq s.store) :
    StoreOk wq (State.touchDie s die off n).store := by
  unfold State.touchDie
  try simp only []
  repeat' (first
    | with_reducible assumption
    | (simp only [store_pair, store_updPitch])
    | with_reducible refine ok_spoilAddrs _ _ _ _ ?_
    | split)

@[simp] theorem ok_writeDie (s : State) (die tag off : ℕ) (b : Bytes) (h : StoreOk wq s.store) :
    ExOk wq (s.writeDie die tag off b) := by
  unfold State.writeDie
  split
  · split
    · trivial
    · rename_i e; exact ok_touchDie _ _ _ _ (by simpa using (ok_writeCells s _ h).of_eq e)
  · split
    · simpa using h
    · trivial
  · trivial

@[simp] theorem ok_frameWrite (s : State) (die : ℕ) (f : Frame) (h : StoreOk wq s.store) :
    ExOk wq (State.frameWrite s die f) := by
  unfold State.frameWrite
  split
  · exact ok_exMap (ok_pitchWriteAll _ _ _ _ h) fun t ht => ok_spoilGuarded _ _ _ _ _ ht
  · exact ok_writeDie _ _ _ _ _ h

@[simp] theorem ok_executeWrite (s : State) (die : Nat) (f : Frame) (h : StoreOk wq s.store) :
    StoreOk wq (State.executeWrite s die f).1.store := by
  unfold State.executeWrite
  split
  · rename_i e; exact (ok_frameWrite s die f h).of_eq e
  · simpa using h

@[simp] theorem ok_executeFrame (s : State) (die : Nat) (f : Frame) (h : StoreOk wq s.store) :
    StoreOk wq (State.executeFrame s die f).1.store := by
  unfold State.executeFrame
  try dsimp only
  repeat' (first
    | with_reducible assumption
    | (simp only [store_pair, store_collUp, store_egress, store_executeMessage, store_frameAtomic])
    | with_reducible refine ok_executeWrite _ _ _ ?_
    | split)

@[simp] theorem ok_serveOnce (s : State) (die : Nat) (f : Frame) (h : StoreOk wq s.store) :
    StoreOk wq (State.serveOnce s die f).store := by
  unfold State.serveOnce
  try dsimp only
  repeat' (first
    | with_reducible assumption
    | (simp only [store_pair, store_respondFrame, store_updDie])
    | with_reducible refine ok_executeFrame _ _ _ ?_
    | split)

@[simp] theorem ok_deliverFrame (s : State) (die : Nat) (f : Frame) (inPort : Option Nat) (h : StoreOk wq s.store) :
    StoreOk wq (State.deliverFrame s die f inPort).store := by
  unfold State.deliverFrame
  try dsimp only
  repeat' (first
    | with_reducible assumption
    | (simp only [store_pair, store_rejectFrame, store_serveMsg, store_serveRead, store_toRouter])
    | with_reducible refine ok_filter ?_ _
    | with_reducible refine ok_serveOnce _ _ _ ?_
    | split)

@[simp] theorem ok_arrive (s : State) (die : Nat) (index : Nat) (w : Waiting) (h : StoreOk wq s.store) :
    StoreOk wq (State.arrive s die index w).store := by
  unfold State.arrive
  try dsimp only
  repeat' (first
    | with_reducible assumption
    | (simp only [store_pair, store_takeFrame])
    | with_reducible refine ok_deliverFrame _ _ _ _ ?_
    | with_reducible refine ok_response _ _ _ ?_
    | split)

@[simp] theorem ok_bootNow (s : State) (h : StoreOk wq s.store) :
    StoreOk wq (State.bootNow s).store := by
  unfold State.bootNow
  try dsimp only
  repeat' (first
    | with_reducible assumption
    | (simp only [store_pair, store_recover, store_startImage, setFw_store])
    | with_reducible refine ok_keeperOnly _ _ ?_
    | split)

@[simp] theorem ok_copyStrip (key : ItemKey) (p : Pitch) (w : WDesc) (src : TDesc) (o : Operand) (s : State) (v : List ℤ) (h : StoreOk wq s.store) :
    StoreOk wq (copyStrip key p w src o s v).1.store := by
  unfold copyStrip
  try simp only []
  repeat' (first
    | with_reducible assumption
    | (simp only [exOk_ok, exOk_error, store_pair, store_updItem])
    | with_reducible refine ok_writeStrip _ _ _ _ _ _ ?_
    | with_reducible refine ok_kept ?_ ?_
    | split)

@[simp] theorem ok_convertMove (key : ItemKey) (p : Pitch) (w : WDesc) (src : TDesc) (o : Operand) (m : OutMode) (s : State) (v : List ℤ) (h : StoreOk wq s.store) :
    StoreOk wq (convertMove key p w src o m s v).1.store := by
  unfold convertMove
  try simp only []
  repeat' (first
    | with_reducible assumption
    | (simp only [exOk_ok, exOk_error, store_pair, store_updItem])
    | with_reducible refine ok_writeOut _ _ _ _ _ ?_
    | with_reducible refine ok_kept ?_ ?_
    | split)

@[simp] theorem ok_copyRecord (key : ItemKey) (p : Pitch) (src : TDesc) (o : Operand) (s : State) (v : List ℤ) (h : StoreOk wq s.store) :
    StoreOk wq (copyRecord key p src o s v).1.store := by
  unfold copyRecord
  try simp only []
  repeat' (first
    | with_reducible assumption
    | (simp only [exOk_ok, exOk_error, store_pair, store_updItem])
    | with_reducible refine ok_writeRecord _ _ _ _ _ _ _ _ ?_
    | with_reducible refine ok_kept ?_ ?_
    | split)

@[simp] theorem ok_compressMove (s : State) (p : Pitch) (key : ItemKey) (src : TDesc) (o : Operand) (h : StoreOk wq s.store) :
    StoreOk wq (compressMove s p key src o).1.store := by
  unfold compressMove
  try simp only []
  repeat' (first
    | with_reducible assumption
    | (simp only [exOk_ok, exOk_error, store_pair, store_updItem])
    | with_reducible refine ok_pitchWriteAll _ _ _ _ ?_
    | with_reducible refine ok_kept ?_ ?_
    | split)

@[simp] theorem ok_streamStrip (key : ItemKey) (o : Operand) (s : State) (x : List ℤ × ℕ × List ℕ) (h : StoreOk wq s.store) :
    StoreOk wq (streamStrip key o s x).1.store := by
  unfold streamStrip
  try simp only []
  repeat' (first
    | with_reducible assumption
    | (simp only [exOk_ok, exOk_error, store_pair, store_updItem])
    | with_reducible refine ok_writeStrip _ _ _ _ _ _ ?_
    | with_reducible refine ok_kept ?_ ?_)

@[simp] theorem ok_failCodec (s : State) (key : ItemKey) (o : Operand) (h : StoreOk wq s.store) :
    StoreOk wq (State.failCodec s key o).store := by simp [State.failCodec, h]

theorem ok_onDies (s : State) (seq : ℕ) (op : ℕ) (cap : Bool) (idle : Bool) (f : Bytes → List ℕ → State) (h : StoreOk wq s.store) (hf : ∀ a' b', StoreOk wq (f a' b').store) :
    StoreOk wq (State.onDies s seq op cap idle f).store := by
  unfold State.onDies
  refine ok_onOperatorOp _ _ _ _ _ _ _ h fun r => ?_
  split
  · simp [h]
  · exact hf _ _

@[simp] theorem ok_moveClusters (s : State) (p : Pitch) (m : MovePlan) (ls : List ℕ) (h : StoreOk wq s.store) :
    StoreOk wq (State.moveClusters s p m ls).store := by
  refine ok_foldl (fun s x hs => by simpa using hs) _ _ ?_
  exact ok_ranges (s := p.dies.foldl (fun s d => s.updDie d (Die.unload ls)) s) (by simpa using h) _ _

@[simp] theorem ok_applyMove (s : State) (p : Pitch) (m : MovePlan) (h : StoreOk wq s.store) :
    StoreOk wq (State.applyMove s p m).store := by
  unfold State.applyMove
  try simp only []
  repeat' (first
    | with_reducible assumption
    | (simp only [store_pair, store_settleDies, store_updPitch])
    | with_reducible refine ok_moveClusters _ _ _ _ ?_
    | split)

@[simp] theorem ok_beginMove (s : State) (tag : ℕ) (m : MovePlan) (h : StoreOk wq s.store) :
    StoreOk wq (State.beginMove s tag m).store := by
  unfold State.beginMove; split <;> simp [h]

@[simp] theorem ok_repairDie (id : ℕ) (x : State × ℕ × ℕ) (die : ℕ) (h : StoreOk wq x.1.store) :
    StoreOk wq (State.repairDie id x die).1.store := by
  unfold State.repairDie
  try simp only []
  repeat' (first
    | with_reducible assumption
    | (simp only [exOk_ok, exOk_error, store_pair, store_updDie, store_updRecord, store_logRepairs])
    | with_reducible refine ok_exhaust _ _ _ ?_
    | with_reducible refine ok_elim _ ?_ (fun a => ?_)
    | split)

@[simp] theorem ok_writeReq (s : State) (off : ℕ) (d : BitVec 32) (h : StoreOk wq s.store) :
    StoreOk wq (State.writeReq s off d).store := by simp [State.writeReq, h]

@[simp] theorem ok_writeReg (s : State) (a : ℕ) (d : BitVec 32) (h : StoreOk wq s.store) :
    StoreOk wq (State.writeReg s a d).store := by
  unfold State.writeReg; repeat' split
  all_goals simp [h]

@[simp] theorem ok_kprWrite (s : State) (ktag : ℕ) (addr : ℕ) (d : BitVec 32) (h : StoreOk wq s.store) :
    StoreOk wq (State.kprWrite s ktag addr d).store := by
  unfold State.kprWrite; repeat' split
  all_goals simp [h]

@[simp] theorem ok_sampleRow (key : ItemKey) (p : Pitch) (w : WDesc) (a : TDesc) (s : State) (x : List ℕ × ℕ) (h : StoreOk wq s.store) :
    StoreOk wq (sampleRow key p w a s x).1.store := by
  unfold sampleRow
  try simp only []
  repeat' (first
    | with_reducible assumption
    | (simp only [exOk_ok, exOk_error, store_pair, store_updItem, store_flagRow])
    | with_reducible refine ok_pitchWriteAll _ _ _ _ ?_
    | with_reducible refine ok_kept ?_ ?_
    | split)

@[simp] theorem ok_lsmRow (key : ItemKey) (p : Pitch) (w : WDesc) (a : TDesc) (d : TDesc) (s : State) (x : List ℕ × ℕ) (h : StoreOk wq s.store) :
    StoreOk wq (lsmRow key p w a d s x).1.store := by
  unfold lsmRow
  try simp only []
  repeat' (first
    | with_reducible assumption
    | (simp only [exOk_ok, exOk_error, store_pair, store_updItem, store_flagRow])
    | with_reducible refine ok_writeStrip _ _ _ _ _ _ ?_
    | with_reducible refine ok_kept ?_ ?_
    | with_reducible refine ok_foldKeep (fun s a hs => ?_) _ _ ?_
    | split)

@[simp] theorem ok_writeEntry (s : State) (tag : ℕ) (x : Plan) (r : Rollout) (h : StoreOk wq s.store) :
    StoreOk wq (State.writeEntry s tag x r).store := by simp [State.writeEntry, h]

@[simp] theorem ok_submit (s : State) (seq : ℕ) (p : Pitch) (m : Model) (x : Session) (b : Bytes) (toks : List ℕ) (h : StoreOk wq s.store) :
    StoreOk wq (State.submit s seq p m x b toks).store := by
  unfold State.submit
  try simp only []
  repeat' (first
    | with_reducible assumption
    | (simp only [exOk_ok, exOk_error, store_pair, store_refuse, store_respond, store_admitRequest, store_updPlan])
    | with_reducible refine ok_writeEntry _ _ _ _ ?_
    | split)

@[simp] theorem ok_boundary (s : State) (tag : ℕ) (model : ℕ) (h : StoreOk wq s.store) :
    StoreOk wq (State.boundary s tag model).store := by
  unfold State.boundary; exact ok_foldl (fun s a hs => by simp [hs]) _ _ (by simp [h])

@[simp] theorem ok_startStep (s : State) (tag : Nat) (model : Nat) (now : Nat) (parts : List StepPart) (again : Bool) (drafting : Option Nat) (h : StoreOk wq s.store) :
    StoreOk wq (State.startStep s tag model now parts again drafting).store := by
  unfold State.startStep
  try dsimp only
  repeat' (first
    | with_reducible assumption
    | (simp only [store_pair, store_draw, store_elim, store_updModel, store_updPitch])
    | with_reducible refine ok_nextStep _ _ _ _ _ ?_
    | with_reducible refine ok_tryWrite _ _ _ _ ?_
    | with_reducible refine ok_elim _ ?_ (fun a => ?_)
    | split)

@[simp] theorem ok_commitSamples (s : State) (tag : ℕ) (m : Model) (x : Session) (r : ActiveReq) (part : StepPart) (epoch : ℕ) (res : StepResult) (h : StoreOk wq s.store) :
    StoreOk wq (State.commitSamples s tag m x r part epoch res).store := by simp [State.commitSamples, h]

@[simp] theorem ok_commitInvalid (s : State) (tag : Nat) (m : Model) (x : Session) (r : ActiveReq) (part : StepPart) (epoch : Nat) (res : StepResult) (h : StoreOk wq s.store) :
    StoreOk wq (State.commitInvalid s tag m x r part epoch res).store := by
  unfold State.commitInvalid
  try simp only []
  repeat' (first
    | with_reducible assumption
    | (simp only [store_pair, store_updModel])
    | with_reducible refine ok_commitSamples _ _ _ _ _ _ _ _ ?_
    | with_reducible refine ok_failRequest _ _ _ _ _ _ ?_
    | split)

@[simp] theorem ok_commitPart (tag : Nat) (model : Nat) (epoch : Nat) (results : List StepResult) (s : State) (part : StepPart) (h : StoreOk wq s.store) :
    StoreOk wq (commitPart tag model epoch results s part).store := by
  unfold commitPart
  try simp only []
  repeat' (first
    | with_reducible assumption
    | (simp only [store_pair, store_endRequest, store_updModel, store_updPitch, store_updSession])
    | with_reducible refine ok_commitInvalid _ _ _ _ _ _ _ _ ?_
    | with_reducible refine ok_commitSamples _ _ _ _ _ _ _ _ ?_
    | with_reducible refine ok_req ?_ _
    | split)

@[simp] theorem ok_afterStep (s : State) (tag : ℕ) (model : ℕ) (sid : ℕ) (h : StoreOk wq s.store) :
    StoreOk wq (State.afterStep s tag model sid).store := by simp [State.afterStep, h]

@[simp] theorem ok_loseSession (s : State) (tag : ℕ) (model : ℕ) (sid : ℕ) (h : StoreOk wq s.store) :
    StoreOk wq (State.loseSession s tag model sid).store := by
  unfold State.loseSession; split <;> simp [h]

@[simp] theorem ok_setRollout (s : State) (tag : ℕ) (x : Plan) (r : Rollout) (h : StoreOk wq s.store) :
    StoreOk wq (State.setRollout s tag x r).store := by simp [State.setRollout, h]

@[simp] theorem ok_recordRewards (s : State) (tag : ℕ) (p : Pitch) (x : Plan) (first : ℕ) (h : StoreOk wq s.store) :
    StoreOk wq (State.recordRewards s tag p x first).store := by
  unfold State.recordRewards
  rw [store_updPlan]
  exact ok_foldl (fun s a hs => ok_setRollout _ _ _ _ hs) _ _ h

theorem ok_onTurnover (s : State) (tag : ℕ) (run : ℕ) (f : Pitch →   Plan → Run → Model → State) (h : StoreOk wq s.store) (hf : ∀ a' b' c' d', StoreOk wq (f a' b' c' d').store) :
    StoreOk wq (State.onTurnover s tag run f).store := by
  unfold State.onTurnover
  repeat' (first | exact h | split | exact hf _ _ _ _ | refine ok_elim _ ?_ (fun a => ?_))

@[simp] theorem ok_expireOpen (s : State) (tag : Nat) (model : Nat) (sid : Nat) (h : StoreOk wq s.store) :
    StoreOk wq (State.expireOpen s tag model sid).store := by
  unfold State.expireOpen
  try simp only []
  repeat' (first
    | with_reducible assumption
    | (simp only [store_pair, store_elim, store_respond, store_updModel, store_updSession])
    | with_reducible refine ok_startClosing _ _ _ _ _ ?_
    | with_reducible refine ok_elim _ ?_ (fun a => ?_)
    | split)

@[simp] theorem ok_swapSession (tag : ℕ) (model : ℕ) (e : ℕ) (recompute : Bool) (s : State) (sid : ℕ) (h : StoreOk wq s.store) :
    StoreOk wq (swapSession tag model e recompute s sid).store := by
  unfold swapSession; repeat' split
  all_goals simp [h]

end Sys2Proof.Machine
end

