-- ==== Sys2Proof/Laws/Commands.lean ====
section
/-! SUPPORT. The commands: each leaves the memories and the queue as they were, or keeps the memories canonical and the queue as it was. -/

namespace Sys2Proof.Machine

open Sys2Proof

variable {wq : List Instr}

theorem ok_execPitchCreate (seq : Nat) (s : State) (h : StoreOk wq s.store) :
    OutOk wq (execPitchCreate seq s) := by
  unfold execPitchCreate
  simp only [outOk_next]
  repeat' (first
    | with_reducible assumption
    | (simp only [store_pair, store_respond, store_setLends, store_updDie, store_setPitches, store_draw])
    | with_reducible refine ok_clearRemote _ _ _ ?_
    | with_reducible refine ok_onOperator _ _ _ _ ?_ (fun z0 => ?_)
    | with_reducible refine ok_foldl (fun z0 z1 z2 => ?_) _ _ ?_
    | with_reducible refine ok_foldl (fun s a hs => ?_) _ _ ?_
    | split)

theorem ok_execPitchRelease (seq : ℕ) (s : State) (h : StoreOk wq s.store) : OutOk wq (execPitchRelease seq s) := by
  unfold execPitchRelease
  simp only [outOk_next]
  repeat' (first
    | with_reducible assumption
    | (simp only [exOk_ok, exOk_error, store_pair, store_respond, store_cancelMove, store_carry, store_abortRequests, store_updPitch])
    | with_reducible refine ok_releaseLend _ _ _ _ ?_
    | with_reducible refine ok_releaseStep _ _ _ ?_
    | with_reducible refine ok_releaseWork _ _ _ ?_
    | with_reducible refine ok_onOperator _ _ _ _ ?_ (fun a => ?_)
    | with_reducible refine ok_onNamed _ _ _ _ ?_ (fun a => ?_)
    | with_reducible refine ok_elim _ ?_ (fun a => ?_)
    | split)

theorem same_execPitchBindPort (seq : ℕ) (s : State) : OutSame s (execPitchBindPort seq s) := by simp [execPitchBindPort]

theorem same_execPitchSuspend (seq : Nat) (s : State) : OutSame s (execPitchSuspend seq s) := by
  unfold execPitchSuspend
  simp only [outSame_next]
  repeat' (first
    | (simp only [store_pair, store_respond, store_suspendStep, store_updPitch, store_carry])
    | with_reducible refine (store_onOperator _ _ _ _ (fun z0 => ?_)).trans ?_
    | with_reducible refine (store_onNamed _ _ _ _ (fun z0 => ?_)).trans ?_
    | split)

theorem same_execPitchResume (seq : Nat) (s : State) : OutSame s (execPitchResume seq s) := by
  unfold execPitchResume
  simp only [outSame_next]
  repeat' (first
    | (simp only [store_pair, store_draw, store_updPitch, store_respond, store_resumed, store_suspendUndo, store_suspended, store_logNote, store_carry])
    | with_reducible refine (store_onOperator _ _ _ _ (fun z0 => ?_)).trans ?_
    | with_reducible refine (store_onNamed _ _ _ _ (fun z0 => ?_)).trans ?_
    | with_reducible refine (store_coordinated _ _ _ _ _ (fun z0 => ?_)).trans ?_
    | with_reducible refine (store_elim _ (fun z0 => ?_)).trans ?_
    | split)

theorem same_execPitchQuery (seq : ℕ) (s : State) : OutSame s (execPitchQuery seq s) := by
  unfold execPitchQuery
  simp only [outSame_next]
  repeat' (first
    | (simp only [store_pair, store_respond])
    | with_reducible refine (store_onOperator _ _ _ _ (fun a => ?_)).trans ?_
    | with_reducible refine (store_onNamed _ _ _ _ (fun a => ?_)).trans ?_
    | split)

theorem same_execPitchMeterRead (seq : ℕ) (s : State) : OutSame s (execPitchMeterRead seq s) := by
  unfold execPitchMeterRead
  simp only [outSame_next]
  repeat' (first
    | (simp only [store_pair, store_respond, store_draw])
    | with_reducible refine (store_onOperator _ _ _ _ (fun a => ?_)).trans ?_
    | with_reducible refine (store_onNamed _ _ _ _ (fun a => ?_)).trans ?_
    | split)

theorem same_execWorkQueueOpen (seq : ℕ) (s : State) : OutSame s (execWorkQueueOpen seq s) := by
  unfold execWorkQueueOpen
  simp only [outSame_next]
  repeat' (first
    | (simp only [store_pair, store_respond, store_updPitch])
    | with_reducible refine (store_onRequest _ _ _ _ (fun a b => ?_)).trans ?_
    | split)

theorem ok_execWorkQueueClose (seq : ℕ) (s : State) (h : StoreOk wq s.store) : OutOk wq (execWorkQueueClose seq s) := by
  unfold execWorkQueueClose
  simp only [outOk_next]
  repeat' (first
    | with_reducible assumption
    | (simp only [exOk_ok, exOk_error, store_pair, store_respond, store_finishClose, store_updQueue])
    | with_reducible refine ok_abortConsumed _ _ _ _ _ ?_
    | with_reducible refine ok_onRequest _ _ _ _ ?_ (fun a b => ?_)
    | split)

theorem ok_execWorkAbort (seq : ℕ) (s : State) (h : StoreOk wq s.store) : OutOk wq (execWorkAbort seq s) := by
  unfold execWorkAbort
  simp only [outOk_next]
  repeat' (first
    | with_reducible assumption
    | (simp only [exOk_ok, exOk_error, store_pair, store_respond, store_updQueue])
    | with_reducible refine ok_abortConsumed _ _ _ _ _ ?_
    | with_reducible refine ok_onRequest _ _ _ _ ?_ (fun a b => ?_)
    | split)

theorem ok_execWorkContextSave (seq : ℕ) (s : State) (h : StoreOk wq s.store) : OutOk wq (execWorkContextSave seq s) := by
  unfold execWorkContextSave
  simp only [outOk_next]
  repeat' (first
    | with_reducible assumption
    | (simp only [exOk_ok, exOk_error, store_pair, store_respond, store_updPitch])
    | with_reducible refine ok_finishSave _ _ _ _ ?_
    | with_reducible refine ok_onRequest _ _ _ _ ?_ (fun a b => ?_)
    | split)

theorem ok_execWorkContextRestore (seq : ℕ) (s : State) (h : StoreOk wq s.store) : OutOk wq (execWorkContextRestore seq s) := by
  unfold execWorkContextRestore
  simp only [outOk_next]
  repeat' (first
    | with_reducible assumption
    | (simp only [exOk_ok, exOk_error, store_pair, store_respond])
    | with_reducible refine ok_doRestore _ _ _ ?_
    | with_reducible refine ok_onRequest _ _ _ _ ?_ (fun a b => ?_)
    | split)

theorem same_execSvcModelLoad (seq : ℕ) (s : State) : OutSame s (execSvcModelLoad seq s) := by
  unfold execSvcModelLoad
  simp only [outSame_next]
  repeat' (first
    | (simp only [store_pair, store_respond, store_updPitch])
    | with_reducible refine (store_onRequest _ _ _ _ (fun a b => ?_)).trans ?_
    | split)

theorem ok_execSvcSessionOpen (seq : ℕ) (s : State) (h : StoreOk wq s.store) : OutOk wq (execSvcSessionOpen seq s) := by
  unfold execSvcSessionOpen
  simp only [outOk_next]
  repeat' (first
    | with_reducible assumption
    | (simp only [exOk_ok, exOk_error, store_pair, store_respond, store_updModel])
    | with_reducible refine ok_tryWrite _ _ _ _ ?_
    | with_reducible refine ok_onRequest _ _ _ _ ?_ (fun a b => ?_)
    | split)

theorem ok_execSvcSubmit (seq : Nat) (s : State) (h : StoreOk wq s.store) :
    OutOk wq (execSvcSubmit seq s) := by
  unfold execSvcSubmit
  simp only [outOk_next]
  repeat' (first
    | with_reducible assumption
    | (simp only [store_pair, store_respond, store_expireSession])
    | with_reducible refine ok_submit _ _ _ _ _ _ _ ?_
    | with_reducible refine ok_onRequest _ _ _ _ ?_ (fun z0 z1 => ?_)
    | split)

theorem same_execSvcSessionPause (seq : Nat) (s : State) : OutSame s (execSvcSessionPause seq s) := by
  unfold execSvcSessionPause
  simp only [outSame_next]
  repeat' (first
    | (simp only [store_pair, store_respond, store_expireSession, store_startPause])
    | with_reducible refine (store_onRequest _ _ _ _ (fun z0 z1 => ?_)).trans ?_
    | with_reducible refine (store_elim _ (fun z0 => ?_)).trans ?_
    | split)

theorem ok_execPauseRecordWritten (tag : ℕ) (model : ℕ) (session : ℕ) (s : State) (h : StoreOk wq s.store) :
    OutOk wq (execPauseRecordWritten tag model session s) := by
  unfold execPauseRecordWritten; simp only [outOk_next]; repeat' split
  all_goals simp [h]

theorem ok_execSvcSessionResume (seq : Nat) (s : State) (h : StoreOk wq s.store) :
    OutOk wq (execSvcSessionResume seq s) := by
  unfold execSvcSessionResume
  simp only [outOk_next]
  repeat' (first
    | with_reducible assumption
    | (simp only [store_pair, store_respond, store_expireSession, store_dropPaused])
    | with_reducible refine ok_resumeSession _ _ _ _ _ _ ?_
    | with_reducible refine ok_onRequest _ _ _ _ ?_ (fun z0 z1 => ?_)
    | split)

theorem ok_execSvcSessionClose (seq : Nat) (s : State) (h : StoreOk wq s.store) :
    OutOk wq (execSvcSessionClose seq s) := by
  unfold execSvcSessionClose
  simp only [outOk_next]
  repeat' (first
    | with_reducible assumption
    | (simp only [store_pair, store_respond, store_expireSession, store_closePaused])
    | with_reducible refine ok_finishClosing _ _ _ _ ?_
    | with_reducible refine ok_startClosing _ _ _ _ _ ?_
    | with_reducible refine ok_onRequest _ _ _ _ ?_ (fun z0 z1 => ?_)
    | split)

theorem same_execSvcBoothConfig (seq : ℕ) (s : State) : OutSame s (execSvcBoothConfig seq s) := by
  unfold execSvcBoothConfig
  simp only [outSame_next]
  repeat' (first
    | (simp only [store_pair, store_respond, store_updModel])
    | with_reducible refine (store_onRequest _ _ _ _ (fun a b => ?_)).trans ?_
    | split)

theorem same_execTrnRunConfig (seq : ℕ) (s : State) : OutSame s (execTrnRunConfig seq s) := by
  unfold execTrnRunConfig
  simp only [outSame_next]
  repeat' (first
    | (simp only [store_pair, store_respond, store_updPitch])
    | with_reducible refine (store_onRequest _ _ _ _ (fun a b => ?_)).trans ?_
    | split)

theorem ok_execTrnUpdateRuleSet (seq : ℕ) (s : State) (h : StoreOk wq s.store) : OutOk wq (execTrnUpdateRuleSet seq s) := by
  unfold execTrnUpdateRuleSet
  simp only [outOk_next]
  repeat' (first
    | with_reducible assumption
    | (simp only [exOk_ok, exOk_error, store_pair, store_respond, store_updRun])
    | with_reducible refine ok_initLayer _ _ _ _ _ _ _ ?_
    | with_reducible refine ok_onRequest _ _ _ _ ?_ (fun a b => ?_)
    | split)

theorem same_execTrnScheduleSet (seq : ℕ) (s : State) : OutSame s (execTrnScheduleSet seq s) := by
  unfold execTrnScheduleSet
  simp only [outSame_next]
  repeat' (first
    | (simp only [store_pair, store_respond, store_updRun])
    | with_reducible refine (store_onRequest _ _ _ _ (fun a b => ?_)).trans ?_
    | split)

theorem same_execTrnCheckpointConfigure (seq : ℕ) (s : State) : OutSame s (execTrnCheckpointConfigure seq s) := by
  unfold execTrnCheckpointConfigure
  simp only [outSame_next]
  repeat' (first
    | (simp only [store_pair, store_respond, store_ckptAnswer, store_updRun])
    | with_reducible refine (store_onRequestOp _ _ _ _ _ _ _ (fun a b => ?_)).trans ?_
    | split)

theorem same_execTrnCheckpointNow (seq : ℕ) (s : State) : OutSame s (execTrnCheckpointNow seq s) := by
  unfold execTrnCheckpointNow
  simp only [outSame_next]
  repeat' (first
    | (simp only [store_pair, store_respond, store_ckptAnswer, store_updRun])
    | with_reducible refine (store_onRequestOp _ _ _ _ _ _ _ (fun a b => ?_)).trans ?_
    | split)

theorem ok_execTrnCheckpointRestore (seq : Nat) (s : State) (h : StoreOk wq s.store) :
    OutOk wq (execTrnCheckpointRestore seq s) := by
  unfold execTrnCheckpointRestore
  simp only [outOk_next]
  repeat' (first
    | with_reducible assumption
    | (simp only [store_pair, store_respond, store_updRun, store_ckptAnswer])
    | with_reducible refine ok_loseCrusher _ _ _ ?_
    | with_reducible refine ok_loadLayer _ _ _ _ _ ?_
    | with_reducible refine ok_dropCkpt _ _ _ ?_
    | with_reducible refine ok_onRequestOp _ _ _ _ _ _ _ ?_ (fun z0 z1 => ?_)
    | with_reducible refine ok_foldl (fun z0 z1 z2 => ?_) _ _ ?_
    | with_reducible refine ok_foldl (fun s a hs => ?_) _ _ ?_
    | split)

theorem same_execTrnCheckpointQuery (seq : ℕ) (s : State) : OutSame s (execTrnCheckpointQuery seq s) := by
  unfold execTrnCheckpointQuery
  simp only [outSame_next]
  repeat' (first
    | (simp only [store_pair, store_respond, store_ckptAnswer])
    | with_reducible refine (store_onRequestOp _ _ _ _ _ _ _ (fun a b => ?_)).trans ?_
    | split)

theorem same_execTrnStepMultiplier (seq : ℕ) (s : State) : OutSame s (execTrnStepMultiplier seq s) := by
  unfold execTrnStepMultiplier
  simp only [outSame_next]
  repeat' (first
    | (simp only [store_pair, store_respond, store_updRun])
    | with_reducible refine (store_onRequest _ _ _ _ (fun a b => ?_)).trans ?_
    | split)

theorem same_execTurnPlan (seq : ℕ) (s : State) : OutSame s (execTurnPlan seq s) := by
  unfold execTurnPlan
  simp only [outSame_next]
  repeat' (first
    | (simp only [store_pair, store_respond, store_updPitch])
    | with_reducible refine (store_onRequest _ _ _ _ (fun a b => ?_)).trans ?_
    | split)

theorem same_execTurnStartStart (seq : ℕ) (s : State) : OutSame s (execTurnStartStart seq s) := by
  unfold execTurnStartStart
  simp only [outSame_next]
  repeat' (first
    | (simp only [store_pair, store_respond, store_planAnswer, store_updPlan])
    | with_reducible refine (store_onRequestOp _ _ _ _ _ _ _ (fun a b => ?_)).trans ?_
    | split)

theorem same_execTurnStartStop (seq : ℕ) (s : State) : OutSame s (execTurnStartStop seq s) := by
  unfold execTurnStartStop
  simp only [outSame_next]
  repeat' (first
    | (simp only [store_pair, store_respond, store_planAnswer, store_updPlan])
    | with_reducible refine (store_onRequestOp _ _ _ _ _ _ _ (fun a b => ?_)).trans ?_
    | split)

theorem same_execTurnStartContinue (seq : ℕ) (s : State) : OutSame s (execTurnStartContinue seq s) := by
  unfold execTurnStartContinue
  simp only [outSame_next]
  repeat' (first
    | (simp only [store_pair, store_respond, store_planAnswer, store_updPlan])
    | with_reducible refine (store_onRequestOp _ _ _ _ _ _ _ (fun a b => ?_)).trans ?_
    | split)

theorem same_execTurnStatus (seq : ℕ) (s : State) : OutSame s (execTurnStatus seq s) := by simp [execTurnStatus]

theorem ok_execTurnRewardPost (seq : ℕ) (s : State) (h : StoreOk wq s.store) : OutOk wq (execTurnRewardPost seq s) := by
  unfold execTurnRewardPost
  simp only [outOk_next]
  repeat' (first
    | with_reducible assumption
    | (simp only [exOk_ok, exOk_error, store_pair, store_respond, store_updPlan])
    | with_reducible refine ok_setRollout _ _ _ _ ?_
    | with_reducible refine ok_onRequest _ _ _ _ ?_ (fun a b => ?_)
    | split)

theorem same_execFabPortSet (seq : ℕ) (s : State) : OutSame s (execFabPortSet seq s) := by simp [execFabPortSet, store_foldl]

theorem same_execFabRouteSet (seq : ℕ) (s : State) : OutSame s (execFabRouteSet seq s) := by simp [execFabRouteSet, store_foldl]

theorem same_execFabDiscoverQuery (seq : ℕ) (s : State) :
    OutSame s (execFabDiscoverQuery seq s) := by simp [execFabDiscoverQuery]

theorem same_execFabDiscoverSetId (seq : ℕ) (s : State) :
    OutSame s (execFabDiscoverSetId seq s) := by simp [execFabDiscoverSetId]

theorem same_execFabDiscoverRefresh (seq : ℕ) (s : State) :
    OutSame s (execFabDiscoverRefresh seq s) := by simp [execFabDiscoverRefresh]

theorem same_execFabBridgeSet (seq : ℕ) (s : State) :
    OutSame s (execFabBridgeSet seq s) := by simp [execFabBridgeSet, store_foldl]

theorem ok_execFwStageBegin (seq : Nat) (s : State) (h : StoreOk wq s.store) :
    OutOk wq (execFwStageBegin seq s) := by
  unfold execFwStageBegin
  simp only [outOk_next]
  repeat' (first
    | with_reducible assumption
    | (simp only [store_pair, store_respond, store_stageDone])
    | with_reducible refine ok_onOperatorOp _ _ _ _ _ _ _ ?_ (fun z0 => ?_)
    | rw [setFw_store]
    | exact ok_noStage h
    | exact ok_stage h _
    | exact h
    | split)

theorem ok_execFwStageData (seq : Nat) (s : State) (h : StoreOk wq s.store) :
    OutOk wq (execFwStageData seq s) := by
  unfold execFwStageData
  simp only [outOk_next]
  refine ok_onOperatorOp _ _ _ _ _ _ _ h fun r => ?_
  repeat' split
  · rw [store_respond]; exact h
  · rw [store_respond]; exact h
  · rw [store_respond]; exact h
  · rw [store_stageDone]; exact ok_stage h _

theorem same_execFwStageVerify (seq : ℕ) (s : State) : OutSame s (execFwStageVerify seq s) := by
  unfold execFwStageVerify; simp only [outSame_next]; repeat' split
  all_goals simp

theorem ok_execFwStageDiscard (seq : Nat) (s : State) (h : StoreOk wq s.store) :
    OutOk wq (execFwStageDiscard seq s) := by
  unfold execFwStageDiscard
  simp only [outOk_next]
  repeat' (first
    | with_reducible assumption
    | (simp only [store_pair, store_respond, store_stageDone])
    | with_reducible refine ok_onOperatorOp _ _ _ _ _ _ _ ?_ (fun z0 => ?_)
    | rw [setFw_store]
    | exact ok_noStage h
    | exact ok_stage h _
    | exact h
    | split)

theorem mem_of_store {s t : State} (h : t.store = s.store) : t.mem = s.mem := congrArg (·.1) h

theorem mem_onOperatorOp (s : State) (seq command off n op : ℕ) (f : Request → State) (hf : ∀ r, (f r).mem = s.mem) :
    (s.onOperatorOp seq command off n op f).mem = s.mem := by
  unfold State.onOperatorOp State.onOperator
  split
  · rfl
  · dsimp only; repeat' split
    · exact hf _
    · exact mem_of_store (by simp)
    · rfl

/-- The staging commands write the staging area and no module memory. -/
theorem mem_execFwStage (seq : ℕ) (s t : State)
    (h : execFwStageBegin seq s = .next t ∨ execFwStageData seq s = .next t ∨ execFwStageDiscard seq s = .next t) : t.mem = s.mem := by
  have hd : ∀ f : Firmware, ((s.setFw f).stageDone seq).mem = s.mem := fun f => mem_of_store (s := s.setFw f) (by simp)
  rcases h with h | h | h <;> cases h <;> refine mem_onOperatorOp _ _ _ _ _ _ _ fun r => ?_
  all_goals simp [apply_ite State.mem, hd, mem_of_store (store_respond _ _ _ _)]

theorem same_execFwStageQuery (seq : ℕ) (s : State) : OutSame s (execFwStageQuery seq s) := by simp [execFwStageQuery]

theorem same_execFwActivate (seq : ℕ) (s : State) : OutSame s (execFwActivate seq s) := by
  unfold execFwActivate; simp only [outSame_next]; repeat' split
  all_goals simp

theorem ok_execFlashRewriteDone (good : Bool) (s : State) (h : StoreOk wq s.store) :
    OutOk wq (execFlashRewriteDone good s) := by
  unfold execFlashRewriteDone; simp only [outOk_next]; repeat' split
  all_goals simp [h]

theorem same_execStandbyReadyTimeout (s : State) : OutSame s (execStandbyReadyTimeout s) := by
  unfold execStandbyReadyTimeout; simp only [outSame_next]; repeat' split
  all_goals simp

theorem same_execHandoverBoundaryTimeout (s : State) : OutSame s (execHandoverBoundaryTimeout s) := by
  unfold execHandoverBoundaryTimeout; simp only [outSame_next]; repeat' split
  all_goals simp

theorem same_execAttestQuote (seq : ℕ) (s : State) : OutSame s (execAttestQuote seq s) := by
  unfold execAttestQuote
  simp only [outSame_next]
  repeat' (first
    | (simp only [store_pair, store_respond, store_signQuote])
    | with_reducible refine (store_onOperator _ _ _ _ (fun a => ?_)).trans ?_
    | with_reducible refine (store_onNamed _ _ _ _ (fun a => ?_)).trans ?_
    | split)

theorem same_execDevIdentity (seq : ℕ) (s : State) : OutSame s (execDevIdentity seq s) := by simp [execDevIdentity]

theorem same_execBistRun (seq : ℕ) (s : State) : OutSame s (execBistRun seq s) := by simp [execBistRun]

theorem ok_execRepairSoft (seq : ℕ) (s : State) (h : StoreOk wq s.store) : OutOk wq (execRepairSoft seq s) := by
  unfold execRepairSoft
  simp only [outOk_next]
  repeat' (first
    | with_reducible assumption
    | (simp only [exOk_ok, exOk_error, store_pair, store_respond])
    | with_reducible refine ok_repairDie _ _ _ ?_
    | with_reducible refine ok_onOperator _ _ _ _ ?_ (fun a => ?_)
    | with_reducible refine ok_foldl_fst (fun s a hs => ?_) _ _ ?_
    | split)

theorem same_execRepairFuse (seq : Nat) (s : State) : OutSame s (execRepairFuse seq s) := by
  unfold execRepairFuse
  simp only [outSame_next]
  repeat' (first
    | (simp only [store_pair, store_respond, store_fuseNext])
    | with_reducible refine (store_onOperator _ _ _ _ (fun z0 => ?_)).trans ?_
    | split)

theorem same_execBistResult (seq : ℕ) (s : State) : OutSame s (execBistResult seq s) := by
  unfold execBistResult
  simp only [outSame_next]
  repeat' (first
    | (simp only [store_pair, store_respond])
    | with_reducible refine (store_onOperator _ _ _ _ (fun a => ?_)).trans ?_
    | split)

theorem same_execPwrDieStateQuery (seq : ℕ) (s : State) :
    OutSame s (execPwrDieStateQuery seq s) := by simp [execPwrDieStateQuery]

theorem same_execPwrDieStateSetCap (seq : ℕ) (s : State) :
    OutSame s (execPwrDieStateSetCap seq s) := by simp [execPwrDieStateSetCap, store_foldl]

theorem same_execPwrDieStateSetIdle (seq : ℕ) (s : State) :
    OutSame s (execPwrDieStateSetIdle seq s) := by simp [execPwrDieStateSetIdle, store_foldl]

theorem ok_execPwrDieStateDrain (seq : ℕ) (s : State) (h : StoreOk wq s.store) : OutOk wq (execPwrDieStateDrain seq s) := by
  unfold execPwrDieStateDrain
  simp only [outOk_next]
  repeat' (first
    | with_reducible assumption
    | (simp only [exOk_ok, exOk_error, store_pair, store_respond, store_startDrain, store_updPitch, store_diesDone])
    | with_reducible refine ok_beginMove _ _ _ ?_
    | with_reducible refine ok_onDies _ _ _ _ _ _ ?_ (fun a b => ?_)
    | with_reducible refine ok_foldl (fun s a hs => ?_) _ _ ?_
    | split)

theorem ok_execPwrDieStateReturn (seq : ℕ) (s : State) (h : StoreOk wq s.store) : OutOk wq (execPwrDieStateReturn seq s) := by
  unfold execPwrDieStateReturn
  simp only [outOk_next]
  repeat' (first
    | with_reducible assumption
    | (simp only [exOk_ok, exOk_error, store_pair, store_respond, store_updDie, store_diesDone])
    | with_reducible refine ok_beginMove _ _ _ ?_
    | with_reducible refine ok_onDies _ _ _ _ _ _ ?_ (fun a b => ?_)
    | with_reducible refine ok_foldl (fun s a hs => ?_) _ _ ?_
    | split)

theorem ok_execPwrDieStateOff (seq : ℕ) (s : State) (h : StoreOk wq s.store) : OutOk wq (execPwrDieStateOff seq s) := by
  unfold execPwrDieStateOff
  simp only [outOk_next]
  repeat' (first
    | with_reducible assumption
    | (simp only [exOk_ok, exOk_error, store_pair, store_respond, store_diesDone, store_updDie])
    | with_reducible refine ok_loseDie _ _ ?_
    | with_reducible refine ok_onDies _ _ _ _ _ _ ?_ (fun a b => ?_)
    | with_reducible refine ok_foldl (fun s a hs => ?_) _ _ ?_
    | split)

theorem ok_execPwrDieStateKeeperOnly (seq : ℕ) (s : State) (h : StoreOk wq s.store) :
    OutOk wq (execPwrDieStateKeeperOnly seq s) := by
  unfold execPwrDieStateKeeperOnly
  simp only [outOk_next]
  repeat' (first
    | with_reducible assumption
    | (simp only [exOk_ok, exOk_error, store_pair, store_respond])
    | with_reducible refine ok_keeperOnly _ _ ?_
    | with_reducible refine ok_onOperatorOp _ _ _ _ _ _ _ ?_ (fun a => ?_)
    | split)

theorem same_execPwrDieStateExit (seq : ℕ) (s : State) : OutSame s (execPwrDieStateExit seq s) := by simp [execPwrDieStateExit]

theorem same_execTelemetryRead (seq : ℕ) (s : State) : OutSame s (execTelemetryRead seq s) := by simp [execTelemetryRead]

theorem same_execEventLogRead (seq : ℕ) (s : State) : OutSame s (execEventLogRead seq s) := by simp [execEventLogRead]

theorem ok_execLogicalClusterMove (tag : ℕ) (lcluster : ℕ) (s : State) (h : StoreOk wq s.store) :
    OutOk wq (execLogicalClusterMove tag lcluster s) := by
  unfold execLogicalClusterMove; simp only [outOk_next]; repeat' split
  all_goals simp [h]

theorem same_execDoorbell (tag : ℕ) (queue : ℕ) (value : ℕ) (s : State) :
    OutSame s (execDoorbell tag queue value s) := by simp [execDoorbell]

theorem same_execAckWr (tag : ℕ) (queue : ℕ) (value : ℕ) (s : State) :
    OutSame s (execAckWr tag queue value s) := by simp [execAckWr]

theorem same_execControlPageWriteInvalid (tag : ℕ) (queue : ℕ) (offset : ℕ) (data : Bytes) (s : State) :
    OutSame s (execControlPageWriteInvalid tag queue offset data s) := by simp [execControlPageWriteInvalid]

theorem ok_execDescriptorConsume (tag : ℕ) (queue : ℕ) (s : State) (h : StoreOk wq s.store) :
    OutOk wq (execDescriptorConsume tag queue s) := by
  unfold execDescriptorConsume; simp only [outOk_next]; repeat' split
  all_goals simp [h]

theorem ok_execItemReady (key : ItemKey) (s : State) (h : StoreOk wq s.store) : OutOk wq (execItemReady key s) := by
  unfold execItemReady
  simp only [outOk_next]
  repeat' (first
    | with_reducible assumption
    | (simp only [exOk_ok, exOk_error, store_pair, store_updItem])
    | with_reducible refine ok_abortNow _ _ ?_
    | with_reducible refine ok_onItem _ _ _ ?_ (fun a b => ?_)
    | split)

theorem same_execItemStaged (key : ItemKey) (s : State) : OutSame s (execItemStaged key s) := by simp [execItemStaged]

theorem same_execCarouselDispatch (place : Place) (engine : Engine) (s : State) :
    OutSame s (execCarouselDispatch place engine s) := by
  unfold execCarouselDispatch; simp only [outSame_next]; repeat' split
  all_goals simp

theorem same_execClusterWake (place : Place) (s : State) : OutSame s (execClusterWake place s) := by
  unfold execClusterWake; simp only [outSame_next]; repeat' split
  all_goals simp

theorem ok_execMma (key : ItemKey) (s : State) (h : StoreOk wq s.store) : OutOk wq (execMma key s) := by
  unfold execMma
  simp only [outOk_next]
  repeat' (first
    | with_reducible assumption
    | (simp only [exOk_ok, exOk_error, store_pair, store_updCluster, store_updItem, store_draw])
    | with_reducible refine ok_failMemory _ _ _ ?_
    | with_reducible refine ok_onItem _ _ _ ?_ (fun a b => ?_)
    | split)

theorem ok_execArrayTileHandoff (key : ItemKey) (s : State) (h : StoreOk wq s.store) :
    OutOk wq (execArrayTileHandoff key s) := by
  unfold execArrayTileHandoff
  simp only [outOk_next]
  repeat' (first
    | with_reducible assumption
    | (simp only [exOk_ok, exOk_error, store_pair, store_tileToSlot, store_tileDone, store_updItem])
    | with_reducible refine ok_tileStrip _ _ _ _ _ _ _ ?_
    | with_reducible refine ok_failMemory _ _ _ ?_
    | with_reducible refine ok_onItem _ _ _ ?_ (fun a b => ?_)
    | with_reducible refine ok_foldKeep_fst (fun s a hs => ?_) _ _ ?_
    | split)

theorem ok_execEwOperation (key : ItemKey) (s : State) (h : StoreOk wq s.store) :
    OutOk wq (execEwOperation key s) := by
  unfold execEwOperation
  simp only [outOk_next]
  repeat' (first
    | with_reducible assumption
    | with_reducible refine ok_ewUnit _ _ _ _ _ _ _ _ ?_
    | with_reducible refine ok_filter ?_ _
    | with_reducible refine ok_failMemory _ _ _ ?_
    | with_reducible refine ok_endRun _ _ _ ?_
    | with_reducible refine ok_onItem _ _ _ ?_ (fun z0 z1 => ?_)
    | split)

theorem ok_execMvp (key : ItemKey) (s : State) (h : StoreOk wq s.store) : OutOk wq (execMvp key s) := by
  unfold execMvp
  simp only [outOk_next]
  repeat' (first
    | with_reducible assumption
    | (simp only [exOk_ok, exOk_error, store_pair, store_draw, store_updCluster])
    | with_reducible refine ok_failMemory _ _ _ ?_
    | with_reducible refine ok_onItem _ _ _ ?_ (fun a b => ?_)
    | split)

theorem ok_execMvpStripHandoff (key : ItemKey) (s : State) (h : StoreOk wq s.store) :
    OutOk wq (execMvpStripHandoff key s) := by
  unfold execMvpStripHandoff
  simp only [outOk_next]
  repeat' (first
    | with_reducible assumption
    | (simp only [store_pair, store_updCluster, store_stripDone])
    | with_reducible refine ok_foldKeep (fun z0 z1 z2 => ?_) _ _ ?_
    | with_reducible refine ok_tileStrip _ _ _ _ _ _ _ ?_
    | with_reducible refine ok_failMemory _ _ _ ?_
    | with_reducible refine ok_onItem _ _ _ ?_ (fun z0 z1 => ?_)
    | with_reducible refine ok_foldKeep_fst (fun s a hs => ?_) _ _ ?_
    | split)

theorem ok_execVec (key : ItemKey) (s : State) (h : StoreOk wq s.store) : OutOk wq (execVec key s) := by
  unfold execVec
  simp only [outOk_next]
  repeat' (first
    | with_reducible assumption
    | with_reducible refine ok_endRun _ _ _ ?_
    | with_reducible refine ok_vecStrip _ _ _ _ _ _ ?_
    | with_reducible refine ok_onItem _ _ _ ?_ (fun a b => ?_)
    | with_reducible refine ok_foldKeep (fun s a hs => ?_) _ _ ?_
    | split)

theorem ok_execSample (key : ItemKey) (s : State) (h : StoreOk wq s.store) : OutOk wq (execSample key s) := by
  unfold execSample
  simp only [outOk_next]
  repeat' (first
    | with_reducible assumption
    | with_reducible refine ok_endRun _ _ _ ?_
    | with_reducible refine ok_sampleRow _ _ _ _ _ _ ?_
    | with_reducible refine ok_onItem _ _ _ ?_ (fun a b => ?_)
    | with_reducible refine ok_foldKeep (fun s a hs => ?_) _ _ ?_
    | split)

theorem ok_execLogsoftmax (key : ItemKey) (s : State) (h : StoreOk wq s.store) : OutOk wq (execLogsoftmax key s) := by
  unfold execLogsoftmax
  simp only [outOk_next]
  repeat' (first
    | with_reducible assumption
    | with_reducible refine ok_endRun _ _ _ ?_
    | with_reducible refine ok_lsmRow _ _ _ _ _ _ _ ?_
    | with_reducible refine ok_onItem _ _ _ ?_ (fun a b => ?_)
    | with_reducible refine ok_foldKeep (fun s a hs => ?_) _ _ ?_
    | split)

theorem ok_execMove (key : ItemKey) (s : State) (h : StoreOk wq s.store) : OutOk wq (execMove key s) := by
  unfold execMove
  simp only [outOk_next]
  repeat' (first
    | with_reducible assumption
    | with_reducible refine ok_endRun _ _ _ ?_
    | with_reducible refine ok_compressMove _ _ _ _ _ ?_
    | with_reducible refine ok_failMemory _ _ _ ?_
    | with_reducible refine ok_failCodec _ _ _ ?_
    | with_reducible refine ok_streamStrip _ _ _ _ ?_
    | with_reducible refine ok_copyRecord _ _ _ _ _ _ ?_
    | with_reducible refine ok_copyStrip _ _ _ _ _ _ _ ?_
    | with_reducible refine ok_convertMove _ _ _ _ _ _ _ _ ?_
    | with_reducible refine ok_onItem _ _ _ ?_ (fun a b => ?_)
    | with_reducible refine ok_foldKeep (fun s a hs => ?_) _ _ ?_
    | split)

theorem ok_execCollective (key : ItemKey) (s : State) (h : StoreOk wq s.store) : OutOk wq (execCollective key s) := by
  unfold execCollective
  simp only [outOk_next]
  repeat' (first
    | with_reducible assumption
    | with_reducible refine ok_abortWhole _ _ _ ?_
    | (simp only [exOk_ok, exOk_error, store_pair, store_leaveEngine, store_refuseContributor, store_register])
    | with_reducible refine ok_failMemory _ _ _ ?_
    | with_reducible refine ok_onItem _ _ _ ?_ (fun a b => ?_)
    | split)

theorem same_execCollectivePass1AtRoot (tag : ℕ) (ident : ℕ) (s : State) :
    OutSame s (execCollectivePass1AtRoot tag ident s) := by
  unfold execCollectivePass1AtRoot; simp only [outSame_next]; repeat' split
  all_goals simp

theorem ok_execCollectiveAnchorReceived (key : ItemKey) (s : State) (h : StoreOk wq s.store) :
    OutOk wq (execCollectiveAnchorReceived key s) := by
  unfold execCollectiveAnchorReceived
  simp only [outOk_next]
  repeat' (first
    | with_reducible assumption
    | (simp only [store_pair, store_updColl, store_secondUp])
    | with_reducible refine ok_failMemory _ _ _ ?_
    | with_reducible refine ok_onItem _ _ _ ?_ (fun z0 z1 => ?_)
    | with_reducible refine ok_elim _ ?_ (fun z0 => ?_)
    | with_reducible refine ok_elim _ ?_ (fun a => ?_)
    | split)

theorem ok_execCollectiveResultWritten (tag ident : ℕ) (s : State) (h : StoreOk wq s.store) :
    OutOk wq (execCollectiveResultWritten tag ident s) := by
  have hf : ∀ (c : Coll) (l : List (List ℤ × ℕ)) (a r : State × ℕ), StoreOk wq a.1.store →
      foldE (c.writeStrip tag) a l = .ok r → StoreOk wq r.1.store := by
    intro c l
    induction l with
    | nil => intro a r ha e; simp only [foldE] at e; exact Except.ok.inj e ▸ ha
    | cons x l ih =>
      intro a r ha e
      simp only [foldE] at e
      split at e
      · exact absurd e (by simp)
      · rename_i e1
        exact ih _ _ (ok_collWriteStrip _ _ _ _ ha e1) e
  unfold execCollectiveResultWritten
  simp only [outOk_next]
  split
  · exact h
  · split
    · split
      · rename_i e
        simp only [store_endColl]
        exact ok_spoilAddrs _ _ _ _ (hf _ _ _ _ h e)
      · simp only [store_endColl]
        exact ok_spoilAddrs _ _ _ _ (ok_undefineTensor _ _ _ _ _ h)
    · exact h

theorem ok_execRand (key : ItemKey) (s : State) (h : StoreOk wq s.store) : OutOk wq (execRand key s) := by
  unfold execRand
  simp only [outOk_next]
  repeat' (first
    | with_reducible assumption
    | with_reducible refine ok_endRun _ _ _ ?_
    | with_reducible refine ok_randStrip _ _ _ _ _ ?_
    | with_reducible refine ok_onItem _ _ _ ?_ (fun a b => ?_)
    | with_reducible refine ok_foldKeep (fun s a hs => ?_) _ _ ?_
    | split)

theorem ok_execSignal (key : ItemKey) (s : State) (h : StoreOk wq s.store) : OutOk wq (execSignal key s) := by
  unfold execSignal
  simp only [outOk_next]
  repeat' (first
    | with_reducible assumption
    | with_reducible refine ok_abortNow _ _ ?_
    | with_reducible refine ok_completeQueueItem _ _ _ ?_
    | with_reducible refine ok_onItem _ _ _ ?_ (fun a b => ?_)
    | split)

theorem ok_execWait (key : ItemKey) (s : State) (h : StoreOk wq s.store) : OutOk wq (execWait key s) := by
  unfold execWait
  simp only [outOk_next]
  repeat' (first
    | with_reducible assumption
    | with_reducible refine ok_abortNow _ _ ?_
    | with_reducible refine ok_completeQueueItem _ _ _ ?_
    | with_reducible refine ok_onItem _ _ _ ?_ (fun a b => ?_)
    | split)

theorem ok_execItemComplete (key : ItemKey) (s : State) (h : StoreOk wq s.store) :
    OutOk wq (execItemComplete key s) := by
  unfold execItemComplete
  simp only [outOk_next]
  repeat' (first
    | with_reducible assumption
    | (simp only [store_pair, store_updItem, store_storeAbroad])
    | with_reducible refine ok_completeItem _ _ ?_
    | with_reducible refine ok_onItem _ _ _ ?_ (fun z0 z1 => ?_)
    | split)

theorem ok_execRunningItemAbortStop (key : ItemKey) (s : State) (h : StoreOk wq s.store) :
    OutOk wq (execRunningItemAbortStop key s) := by
  unfold execRunningItemAbortStop
  simp only [outOk_next]
  repeat' (first
    | with_reducible assumption
    | with_reducible refine ok_abortWhole _ _ _ ?_
    | with_reducible refine ok_failItem _ _ _ ?_
    | with_reducible refine ok_onItem _ _ _ ?_ (fun a b => ?_)
    | split)

theorem ok_execStridedGapFault (key : ItemKey) (s : State) (h : StoreOk wq s.store) : OutOk wq (execStridedGapFault key s) := by
  unfold execStridedGapFault
  simp only [outOk_next]
  repeat' (first
    | with_reducible assumption
    | with_reducible refine ok_failItem _ _ _ ?_
    | with_reducible refine ok_onItem _ _ _ ?_ (fun a b => ?_)
    | split)

theorem ok_execScaleRecheckFail (key : ItemKey) (s : State) (h : StoreOk wq s.store) :
    OutOk wq (execScaleRecheckFail key s) := by
  unfold execScaleRecheckFail
  simp only [outOk_next]
  repeat' (first
    | with_reducible assumption
    | with_reducible refine ok_failItem _ _ _ ?_
    | with_reducible refine ok_onItem _ _ _ ?_ (fun a b => ?_)
    | split)

theorem ok_execUncorrectableRead (key : ItemKey) (at_ : BadRead) (s : State) (h : StoreOk wq s.store) :
    OutOk wq (execUncorrectableRead key at_ s) := by
  unfold execUncorrectableRead
  simp only [outOk_next]
  repeat' (first
    | with_reducible assumption
    | (simp only [exOk_ok, exOk_error, store_pair, store_logFact, store_logNote, store_updCluster, store_setBad])
    | with_reducible refine ok_failItem _ _ _ ?_
    | with_reducible refine ok_onItem _ _ _ ?_ (fun a b => ?_)
    | split)

theorem same_execCorrectedErrorWriteback (die : Nat) (place : ErrorAt) (s : State) : OutSame s (execCorrectedErrorWriteback die place s) := by
  unfold execCorrectedErrorWriteback
  simp only [outSame_next]
  repeat' (first
    | (simp only [store_pair, store_updDie])
    | split)

theorem same_execPatrolScrub (die : Nat) (place : StorePlace) (symbols : Nat) (s : State) : OutSame s (execPatrolScrub die place symbols s) := by
  unfold execPatrolScrub
  simp only [outSame_next]
  repeat' (first
    | (simp only [store_pair, store_scrubFoundAt, store_dramNeed, store_updDie])
    | split)

theorem same_execRowRepairInService (die : ℕ) (kind : ℕ) (row : ℕ) (s : State) :
    OutSame s (execRowRepairInService die kind row s) := by
  unfold execRowRepairInService; simp only [outSame_next]; repeat' split
  all_goals simp

theorem ok_execLogicalClusterSwitch (place : Place) (lcluster : ℕ) (s : State) (h : StoreOk wq s.store) :
    OutOk wq (execLogicalClusterSwitch place lcluster s) := by
  unfold execLogicalClusterSwitch; simp only [outOk_next]; repeat' split
  all_goals simp [h]

theorem same_execClusterDoze (place : Place) (s : State) : OutSame s (execClusterDoze place s) := by simp [execClusterDoze]

theorem same_execClusterRest (place : Place) (s : State) : OutSame s (execClusterRest place s) := by simp [execClusterRest]

theorem same_execDramPllStop (die : ℕ) (s : State) : OutSame s (execDramPllStop die s) := by simp [execDramPllStop]

theorem formSessions_store (s : State) (tag : Nat) (p : Pitch) (m : Model) : (s.formSessions tag p m).s.store = s.store := by
  have hd : ∀ (step : ℕ) (l : List ℕ) (f : Forming), (l.foldl (formDecode tag m.id step) f).s.store = f.s.store := by
    intro step l
    induction l with
    | nil => intro f; rfl
    | cons x l ih => intro f; exact (ih _).trans (store_formDecode _ _ _ _ _)
  have hp : ∀ (step : ℕ) (l : List ℕ) (f : Forming), (l.foldl (formPrefill tag m.id step) f).s.store = f.s.store := by
    intro step l
    induction l with
    | nil => intro f; rfl
    | cons x l ih => intro f; exact (ih _).trans (store_formPrefill _ _ _ _ _)
  unfold State.formSessions
  rw [hp, hd]

theorem formDraft_store (tag target step : Nat) (d : Model) (f : Forming) (sid : Nat) :
    (formDraft tag target step d f sid).s.store = f.s.store := by
  unfold formDraft
  split
  · dsimp only; split
    · rfl
    · exact store_updPitch _ _ _
  · rfl

theorem formDrafts_store {s : State} {tag : Nat} {p : Pitch} {d : Model} {x : Nat × Forming} (h : s.formDrafts tag p d = some x) :
    x.2.s.store = s.store := by
  have hd : ∀ (target step : ℕ) (l : List ℕ) (f : Forming), (l.foldl (formDraft tag target step d) f).s.store = f.s.store := by
    intro target step l
    induction l with
    | nil => intro f; rfl
    | cons x l ih => intro f; exact (ih _).trans (formDraft_store _ _ _ _ _ _)
  unfold State.formDrafts at h
  obtain ⟨t, -, ht⟩ := List.exists_of_findSome?_eq_some h
  dsimp only at ht
  split at ht
  · cases ht
  · cases ht; exact hd _ _ _ _

theorem ok_execTokenStepForm (tag model : ℕ) (s : State) (h : StoreOk wq s.store) :
    OutOk wq (execTokenStepForm tag model s) := by
  have hb := ok_boundary s tag model h
  unfold execTokenStepForm
  simp only [outOk_next]
  split
  · split
    · exact hb
    · split
      · rename_i e
        exact ok_startStep _ _ _ _ _ _ _ (by rw [formDrafts_store e]; exact hb)
      · split
        · rw [formSessions_store]; exact hb
        · exact ok_startStep _ _ _ _ _ _ _ (by rw [formSessions_store]; exact hb)
  · exact hb

theorem ok_execTokenStepCommit (tag : Nat) (model : Nat) (step : Nat) (latencyNs : Nat) (results : List StepResult) (s : State) (h : StoreOk wq s.store) :
    OutOk wq (execTokenStepCommit tag model step latencyNs results s) := by
  unfold execTokenStepCommit
  simp only [outOk_next]
  repeat' (first
    | with_reducible assumption
    | (simp only [store_pair, store_updPitch, store_commitDraft, store_updModel, store_boothPause])
    | with_reducible refine ok_commitPart _ _ _ _ _ _ ?_
    | with_reducible refine ok_afterStep _ _ _ _ ?_
    | with_reducible refine ok_foldl (fun z0 z1 z2 => ?_) _ _ ?_
    | with_reducible refine ok_foldl (fun s a hs => ?_) _ _ ?_
    | split)

theorem ok_execBoothResumePass (tag : ℕ) (model : ℕ) (s : State) (h : StoreOk wq s.store) :
    OutOk wq (execBoothResumePass tag model s) := by
  unfold execBoothResumePass
  simp only [outOk_next]
  repeat' (first
    | with_reducible assumption
    | with_reducible refine ok_boothResumeOne _ _ _ _ ?_
    | with_reducible refine ok_foldl_fst (fun s a hs => ?_) _ _ ?_
    | split)

theorem same_execBoothModeChange (tag : ℕ) (model : ℕ) (s : State) : OutSame s (execBoothModeChange tag model s) := by
  unfold execBoothModeChange; simp only [outSame_next]; repeat' split
  all_goals simp

theorem ok_execTokenStepFail (tag : Nat) (model : Nat) (step : Nat) (s : State) (h : StoreOk wq s.store) :
    OutOk wq (execTokenStepFail tag model step s) := by
  unfold execTokenStepFail
  simp only [outOk_next]
  repeat' (first
    | with_reducible assumption
    | (simp only [store_pair, store_updPitch, store_updModel, store_updSession])
    | with_reducible refine ok_filter ?_ _
    | with_reducible refine ok_failRequest _ _ _ _ _ _ ?_
    | with_reducible refine ok_afterStep _ _ _ _ ?_
    | with_reducible refine ok_nextStep _ _ _ _ _ ?_
    | with_reducible refine ok_startStep _ _ _ _ _ _ _ ?_
    | with_reducible refine ok_foldl (fun z0 z1 z2 => ?_) _ _ ?_
    | with_reducible refine ok_foldl (fun s a hs => ?_) _ _ ?_
    | split)

theorem ok_execHashedBlockUncorrectable (tag : ℕ) (model : ℕ) (block : ℕ) (s : State) (h : StoreOk wq s.store) :
    OutOk wq (execHashedBlockUncorrectable tag model block s) := by
  unfold execHashedBlockUncorrectable
  simp only [outOk_next]
  repeat' (first
    | with_reducible assumption
    | (simp only [exOk_ok, exOk_error, store_pair, store_updModel])
    | with_reducible refine ok_loseSession _ _ _ _ ?_
    | with_reducible refine ok_foldl (fun s a hs => ?_) _ _ ?_
    | split)

theorem same_execSessionExpire (tag : ℕ) (model : ℕ) (session : ℕ) (s : State) :
    OutSame s (execSessionExpire tag model session s) := by
  unfold execSessionExpire; simp only [outSame_next]; repeat' split
  all_goals simp

theorem ok_execRewardProgramRun (tag : ℕ) (run : ℕ) (s : State) (h : StoreOk wq s.store) :
    OutOk wq (execRewardProgramRun tag run s) := by
  unfold execRewardProgramRun
  simp only [outOk_next]
  repeat' (first
    | with_reducible assumption
    | (simp only [store_updPlan, store_updPitch])
    | with_reducible refine ok_recordRewards _ _ _ _ _ ?_
    | split)

theorem same_execLearnProgramRun (tag : ℕ) (run : ℕ) (s : State) : OutSame s (execLearnProgramRun tag run s) := by
  unfold execLearnProgramRun; simp only [outSame_next]; repeat' split
  all_goals simp

theorem ok_execRolloutEnd (tag : ℕ) (run : ℕ) (admitSeq : ℕ) (s : State) (h : StoreOk wq s.store) :
    OutOk wq (execRolloutEnd tag run admitSeq s) := by
  unfold execRolloutEnd; simp only [outOk_next]; repeat' split
  all_goals simp [h]

theorem same_execPhaseStart (tag : ℕ) (run : ℕ) (s : State) : OutSame s (execPhaseStart tag run s) := by
  unfold execPhaseStart; simp only [outSame_next]; repeat' split
  all_goals simp

theorem same_execTurnoverOpen (tag : ℕ) (run : ℕ) (s : State) : OutSame s (execTurnoverOpen tag run s) := by
  unfold execTurnoverOpen
  simp only [outSame_next]
  repeat' (first
    | (simp only [store_pair, store_updPlan])
    | with_reducible refine (store_onTurnover _ _ _ _ (fun a b c d => ?_)).trans ?_
    | split)

theorem same_execTurnoverArmed (tag : ℕ) (run : ℕ) (s : State) :
    OutSame s (execTurnoverArmed tag run s) := by simp [execTurnoverArmed]

theorem same_execDrainEnd (tag : ℕ) (run : ℕ) (s : State) : OutSame s (execDrainEnd tag run s) := by simp [execDrainEnd]

theorem ok_execSwapStart (tag : Nat) (run : Nat) (s : State) (h : StoreOk wq s.store) :
    OutOk wq (execSwapStart tag run s) := by
  unfold execSwapStart
  simp only [outOk_next]
  repeat' (first
    | with_reducible assumption
    | (simp only [store_pair, store_updPitch, store_updModel, store_updPlan])
    | with_reducible refine ok_stage ?_ _
    | with_reducible refine ok_swapSession _ _ _ _ _ _ ?_
    | with_reducible refine ok_copyLate _ _ _ ?_
    | with_reducible refine ok_onTurnover _ _ _ _ ?_ (fun z0 z1 z2 z3 => ?_)
    | with_reducible refine ok_foldl (fun z0 z1 z2 => ?_) _ _ ?_
    | with_reducible refine ok_foldl (fun s a hs => ?_) _ _ ?_
    | split)

theorem ok_execLayerWindowOpen (tag : ℕ) (run : ℕ) (layer : ℕ) (s : State) (h : StoreOk wq s.store) :
    OutOk wq (execLayerWindowOpen tag run layer s) := by
  unfold execLayerWindowOpen
  simp only [outOk_next]
  repeat' (first
    | with_reducible assumption
    | (simp only [exOk_ok, exOk_error, store_pair, store_updPlan, store_updPitch])
    | with_reducible refine ok_copyShadows _ _ _ _ _ _ ?_
    | with_reducible refine ok_onTurnover _ _ _ _ ?_ (fun a b c d => ?_)
    | split)

theorem ok_execLayerGateOpen (tag : Nat) (run : Nat) (layer : Nat) (s : State) (h : StoreOk wq s.store) :
    OutOk wq (execLayerGateOpen tag run layer s) := by
  unfold execLayerGateOpen
  simp only [outOk_next]
  repeat' (first
    | with_reducible assumption
    | (simp only [store_pair, store_updPlan, store_updPitch])
    | with_reducible refine ok_stage ?_ _
    | with_reducible refine ok_copyShadows _ _ _ _ _ _ ?_
    | with_reducible refine ok_copyOutside _ _ _ _ _ ?_
    | with_reducible refine ok_filter ?_ _
    | with_reducible refine ok_onTurnover _ _ _ _ ?_ (fun z0 z1 z2 z3 => ?_)
    | split)

theorem same_execTurnoverDone (tag : ℕ) (run : ℕ) (s : State) :
    OutSame s (execTurnoverDone tag run s) := by simp [execTurnoverDone]

theorem same_execWindowOpenTimeout (tag : ℕ) (run : ℕ) (layer : ℕ) (s : State) :
    OutSame s (execWindowOpenTimeout tag run layer s) := by simp [execWindowOpenTimeout]

theorem same_execCrusherDelivery (tag : ℕ) (ident : ℕ) (s : State) : OutSame s (execCrusherDelivery tag ident s) := by
  unfold execCrusherDelivery; simp only [outSame_next]; repeat' split
  all_goals simp

theorem ok_execBlockUpdate (tag : Nat) (run : Nat) (layer : Nat) (block : Nat) (s : State) (h : StoreOk wq s.store) :
    OutOk wq (execBlockUpdate tag run layer block s) := by
  unfold execBlockUpdate
  simp only [outOk_next]
  repeat' (first
    | with_reducible assumption
    | with_reducible refine ok_updateBlock _ _ _ _ _ _ _ _ _ ?_
    | with_reducible refine ok_onBlock _ _ _ _ _ _ ?_ (fun z0 z1 z2 z3 z4 => ?_)
    | split)

theorem ok_execBlockMissed (tag : Nat) (run : Nat) (layer : Nat) (block : Nat) (s : State) (h : StoreOk wq s.store) :
    OutOk wq (execBlockMissed tag run layer block s) := by
  unfold execBlockMissed
  simp only [outOk_next]
  repeat' (first
    | with_reducible assumption
    | (simp only [store_pair, store_noteLate, store_emit, store_updRun])
    | with_reducible refine ok_kronSwap _ _ _ _ _ _ ?_
    | with_reducible refine ok_kronSnap _ _ _ _ _ _ _ _ ?_
    | with_reducible refine ok_filter ?_ _
    | with_reducible refine ok_nextStep _ _ _ _ _ ?_
    | with_reducible refine ok_onBlock _ _ _ _ _ _ ?_ (fun z0 z1 z2 z3 z4 => ?_)
    | split)

theorem ok_execHeldBlockStage (tag : ℕ) (run : ℕ) (layer : ℕ) (block : ℕ) (s : State) (h : StoreOk wq s.store) :
    OutOk wq (execHeldBlockStage tag run layer block s) := by
  unfold execHeldBlockStage
  simp only [outOk_next]
  repeat' (first
    | with_reducible assumption
    | (simp only [exOk_ok, exOk_error, store_pair, store_updRun])
    | with_reducible refine ok_tryWrite _ _ _ _ ?_
    | with_reducible refine ok_onBlock _ _ _ _ _ _ ?_ (fun a b c d e => ?_)
    | with_reducible refine ok_foldl (fun s a hs => ?_) _ _ ?_
    | split)

theorem ok_execHeldBlocksApply (tag : ℕ) (run : ℕ) (ldie : ℕ) (s : State) (h : StoreOk wq s.store) :
    OutOk wq (execHeldBlocksApply tag run ldie s) := by
  unfold execHeldBlocksApply
  simp only [outOk_next]
  split
  · exact h
  · exact ok_foldl_fst (fun s a hs => ok_applyHeld tag run s a hs) _ _ h

theorem ok_execLaggedMultWaitEnd (tag : Nat) (run : Nat) (layer : Nat) (block : Nat) (s : State) (h : StoreOk wq s.store) :
    OutOk wq (execLaggedMultWaitEnd tag run layer block s) := by
  unfold execLaggedMultWaitEnd
  simp only [outOk_next]
  repeat' (first
    | with_reducible assumption
    | with_reducible refine ok_startStep _ _ _ _ _ _ ?_
    | with_reducible refine ok_updateBlock _ _ _ _ _ _ _ _ _ ?_
    | with_reducible refine ok_onBlock _ _ _ _ _ _ ?_ (fun z0 z1 z2 z3 z4 => ?_)
    | split)

theorem same_execNormPartialSend (tag : ℕ) (run : ℕ) (ldie : ℕ) (s : State) :
    OutSame s (execNormPartialSend tag run ldie s) := by
  unfold execNormPartialSend; simp only [outSame_next]; repeat' split
  all_goals simp

theorem ok_execRunStepCommit (tag : ℕ) (run : ℕ) (s : State) (h : StoreOk wq s.store) :
    OutOk wq (execRunStepCommit tag run s) := by
  unfold execRunStepCommit; simp only [outOk_next]; repeat' split
  all_goals simp [h]

theorem ok_execKronRefreshDone (tag : ℕ) (run : ℕ) (layer : ℕ) (block : ℕ) (s : State) (h : StoreOk wq s.store) :
    OutOk wq (execKronRefreshDone tag run layer block s) := by
  unfold execKronRefreshDone
  simp only [outOk_next]
  repeat' (first
    | with_reducible assumption
    | (simp only [exOk_ok, exOk_error, store_pair, store_draw])
    | with_reducible refine ok_setKronHeader _ _ _ _ _ ?_
    | with_reducible refine ok_writeArray _ _ _ _ _ ?_
    | with_reducible refine ok_onBlock _ _ _ _ _ _ ?_ (fun a b c d e => ?_)
    | split)

theorem ok_execEmissionSend (tag : Nat) (run : Nat) (layer : Nat) (block : Nat) (s : State) (h : StoreOk wq s.store) :
    OutOk wq (execEmissionSend tag run layer block s) := by
  unfold execEmissionSend
  simp only [outOk_next]
  repeat' (first
    | with_reducible assumption
    | (simp only [store_pair, store_updRun])
    | with_reducible refine ok_emitStrip _ _ _ _ _ _ ?_
    | with_reducible refine ok_copyLate _ _ _ ?_
    | with_reducible refine ok_onBlock _ _ _ _ _ _ ?_ (fun z0 z1 z2 z3 z4 => ?_)
    | with_reducible refine ok_foldl (fun z0 z1 z2 => ?_) _ _ ?_
    | with_reducible refine ok_foldl (fun s a hs => ?_) _ _ ?_
    | split)

theorem ok_execCheckpointLayerSend (tag : Nat) (run : Nat) (ldie : Nat) (layer : Nat) (s : State) (h : StoreOk wq s.store) :
    OutOk wq (execCheckpointLayerSend tag run ldie layer s) := by
  unfold execCheckpointLayerSend
  simp only [outOk_next]
  repeat' (first
    | with_reducible assumption
    | with_reducible refine ok_layerDue _ _ _ _ ?_
    | with_reducible refine ok_sendLayer _ _ _ _ _ _ _ _ _ _ ?_
    | split)

theorem ok_execCheckpointSlotComplete (tag : Nat) (run : Nat) (s : State) (h : StoreOk wq s.store) :
    OutOk wq (execCheckpointSlotComplete tag run s) := by
  unfold execCheckpointSlotComplete
  simp only [outOk_next]
  repeat' (first
    | with_reducible assumption
    | with_reducible refine ok_onWriting _ _ _ _ ?_ (fun z0 z1 z2 z3 z4 => ?_)
    | with_reducible refine ok_endCkpt _ _ _ _ _ _ _ ?_
    | split)

theorem ok_execCheckpointTimeout (tag : Nat) (run : Nat) (s : State) (h : StoreOk wq s.store) :
    OutOk wq (execCheckpointTimeout tag run s) := by
  unfold execCheckpointTimeout
  simp only [outOk_next]
  repeat' (first
    | with_reducible assumption
    | (simp only [store_pair, store_logNote])
    | with_reducible refine ok_onWriting _ _ _ _ ?_ (fun z0 z1 z2 z3 z4 => ?_)
    | with_reducible refine ok_endCkpt _ _ _ _ _ _ _ ?_
    | split)

theorem same_execLinkFrameReceive (port : Nat) (frame : LinkFrame) (s : State) : OutSame s (execLinkFrameReceive port frame s) := by
  unfold execLinkFrameReceive
  simp only [outSame_next]
  repeat' (first
    | (simp only [store_pair, store_updPort, store_receive, store_sendNak])
    | split)

theorem same_execNakReceive (port : ℕ) (n : ℕ) (s : State) : OutSame s (execNakReceive port n s) := by simp [execNakReceive]

theorem same_execReplayLimit (port : ℕ) (s : State) : OutSame s (execReplayLimit port s) := by simp [execReplayLimit]

theorem same_execLinkCtrlReceive (port : ℕ) (ctrl : LinkCtrl) (s : State) : OutSame s (execLinkCtrlReceive port ctrl s) := by
  unfold execLinkCtrlReceive; simp only [outSame_next]; repeat' split
  all_goals simp

theorem same_execCreditReturnTimer (port : ℕ) (s : State) :
    OutSame s (execCreditReturnTimer port s) := by simp [execCreditReturnTimer]

theorem ok_execRouteFrame (die : ℕ) (index : ℕ) (s : State) (h : StoreOk wq s.store) :
    OutOk wq (execRouteFrame die index s) := by
  unfold execRouteFrame; simp only [outOk_next]; repeat' split
  all_goals simp [h]

theorem same_execRoutingFaultDiscard (die : ℕ) (index : ℕ) (s : State) : OutSame s (execRoutingFaultDiscard die index s) := by
  unfold execRoutingFaultDiscard; simp only [outSame_next]; repeat' split
  all_goals simp

theorem same_execReplayTakeback (port : ℕ) (s : State) : OutSame s (execReplayTakeback port s) := by simp [execReplayTakeback]

theorem ok_execE2eFrameDeliver (die : ℕ) (frame : Frame) (s : State) (h : StoreOk wq s.store) :
    OutOk wq (execE2eFrameDeliver die frame s) := by simp [execE2eFrameDeliver, h]

theorem ok_execE2eResponseReceive (die : Nat) (frame : Frame) (s : State) (h : StoreOk wq s.store) :
    OutOk wq (execE2eResponseReceive die frame s) := by
  unfold execE2eResponseReceive
  simp only [outOk_next]
  repeat' (first
    | with_reducible assumption
    | with_reducible refine ok_response _ _ _ ?_
    | split)

theorem same_execE2eResendTimer (die : ℕ) (txn : ℕ) (s : State) : OutSame s (execE2eResendTimer die txn s) := by
  unfold execE2eResendTimer; simp only [outSame_next]; repeat' split
  all_goals simp

theorem ok_execE2eTransactionFail (die : Nat) (txn : Nat) (s : State) (h : StoreOk wq s.store) :
    OutOk wq (execE2eTransactionFail die txn s) := by
  unfold execE2eTransactionFail
  simp only [outOk_next]
  repeat' (first
    | with_reducible assumption
    | (simp only [store_pair, store_endTxn])
    | with_reducible refine ok_outcome _ _ _ _ _ ?_
    | split)

theorem same_execHostIngress (port : ℕ) (vc : ℕ) (frame : Frame) (s : State) :
    OutSame s (execHostIngress port vc frame s) := by simp [execHostIngress]

theorem same_execControlPageWriteRelease (port : ℕ) (s : State) : OutSame s (execControlPageWriteRelease port s) := by
  unfold execControlPageWriteRelease; simp only [outSame_next]; repeat' split
  all_goals simp

theorem ok_execHostWindowEgress (die : Nat) (frame : Frame) (s : State) (h : StoreOk wq s.store) :
    OutOk wq (execHostWindowEgress die frame s) := by
  unfold execHostWindowEgress
  simp only [outOk_next]
  repeat' (first
    | with_reducible assumption
    | with_reducible refine ok_deliverFrame _ _ _ _ ?_
    | split)

theorem same_execHelloReceive (port : ℕ) (hello : Hello) (s : State) :
    OutSame s (execHelloReceive port hello s) := by simp [execHelloReceive]

theorem same_execHelloTimer (s : State) : OutSame s (execHelloTimer s) := by simp [execHelloTimer]

theorem same_execPortSignalDetect (port : ℕ) (lanes : ℕ) (s : State) :
    OutSame s (execPortSignalDetect port lanes s) := by simp [execPortSignalDetect]

theorem same_execPortTrainDone (port : ℕ) (hello : Hello) (s : State) :
    OutSame s (execPortTrainDone port hello s) := by simp [execPortTrainDone]

theorem same_execPortTrainTimeout (port : ℕ) (s : State) :
    OutSame s (execPortTrainTimeout port s) := by simp [execPortTrainTimeout]

theorem same_execPortDown (port : ℕ) (s : State) : OutSame s (execPortDown port s) := by simp [execPortDown]

theorem same_execLaneFail (port : ℕ) (lane : ℕ) (s : State) : OutSame s (execLaneFail port lane s) := by simp [execLaneFail]

theorem same_execMsgSegmentReceive (frame : Frame) (s : State) :
    OutSame s (execMsgSegmentReceive frame s) := by simp [execMsgSegmentReceive]

theorem same_execMsgStatusRead (frame : Frame) (s : State) :
    OutSame s (execMsgStatusRead frame s) := by simp [execMsgStatusRead]

theorem same_execMsgAssemblyTimeout (mailbox : ℕ) (s : State) :
    OutSame s (execMsgAssemblyTimeout mailbox s) := by simp [execMsgAssemblyTimeout]

theorem same_execRequestSubmit (mailbox : ℕ) (s : State) :
    OutSame s (execRequestSubmit mailbox s) := by simp [execRequestSubmit]

theorem same_execFenceRelease (seq : ℕ) (s : State) : OutSame s (execFenceRelease seq s) := by
  unfold execFenceRelease; simp only [outSame_next]; repeat' split
  all_goals simp

theorem same_execReplayEntryExpire (mailbox : ℕ) (requestId : ℕ) (s : State) :
    OutSame s (execReplayEntryExpire mailbox requestId s) := by simp [execReplayEntryExpire]

theorem same_execCoordinationTimeout (seq : ℕ) (s : State) : OutSame s (execCoordinationTimeout seq s) := by
  unfold execCoordinationTimeout; simp only [outSame_next]; repeat' split
  all_goals simp

theorem same_execSuspendTimeout (tag : Nat) (s : State) : OutSame s (execSuspendTimeout tag s) := by
  unfold execSuspendTimeout
  simp only [outSame_next]
  repeat' (first
    | (simp only [store_pair, store_suspended, store_suspendUndo])
    | split)

theorem ok_execRingmasterTakeover (s : State) (h : StoreOk wq s.store) :
    OutOk wq (execRingmasterTakeover s) := by simp [execRingmasterTakeover, h]

theorem ok_execHeartbeatTimeout (pair : ℕ) (s : State) (h : StoreOk wq s.store) : OutOk wq (execHeartbeatTimeout pair s) := by
  unfold execHeartbeatTimeout; simp only [outOk_next]; repeat' split
  all_goals simp [h]

theorem same_execServiceCoreFault (core : ℕ) (s : State) :
    OutSame s (execServiceCoreFault core s) := by simp [execServiceCoreFault]

theorem same_execTakeoverResume (s : State) : OutSame s (execTakeoverResume s) := by
  unfold execTakeoverResume; simp only [outSame_next]; repeat' split
  all_goals simp

theorem ok_execBoot (s : State) (h : StoreOk wq s.store) : OutOk wq (execBoot s) := by simp [execBoot, h]

theorem same_execRecoveryAnnounce (s : State) : OutSame s (execRecoveryAnnounce s) := by simp [execRecoveryAnnounce]

theorem same_execPowerOnSequence (v : ℕ) (s : State) : OutSame s (execPowerOnSequence v s) := by
  unfold execPowerOnSequence supply
  split
  · trivial
  · simp only [outSame_next]
    split
    · simp
    · split <;> simp

theorem ok_execRailRegulationTimeout (die : ℕ) (rail : ℕ) (s : State) (h : StoreOk wq s.store) :
    OutOk wq (execRailRegulationTimeout die rail s) := by simp [execRailRegulationTimeout, h]

theorem ok_execUndervoltageReset (vinMv : ℕ) (s : State) (h : StoreOk wq s.store) :
    OutOk wq (execUndervoltageReset vinMv s) := by
  unfold execUndervoltageReset; simp only [outOk_next]; repeat' split
  all_goals simp [h]

theorem ok_execOvervoltageReset (v : ℕ) (s : State) (h : StoreOk wq s.store) : OutOk wq (execOvervoltageReset v s) := by
  unfold execOvervoltageReset supply
  split
  · trivial
  · simp only [outOk_next]
    split
    · exact ok_moduleReset _ _ _ (by simpa using h)
    · simpa using h

theorem same_execOverVoltage (v : ℕ) (s : State) : OutSame s (execOverVoltage v s) := by
  unfold execOverVoltage supply
  split
  · trivial
  · simp only [outSame_next]
    split <;> simp

theorem ok_execResetNAssert (us : ℕ) (s : State) (h : StoreOk wq s.store) :
    OutOk wq (execResetNAssert us s) := by simp [execResetNAssert, h]

theorem ok_execModEnableDeassert (us : Nat) (s : State) (h : StoreOk wq s.store) :
    OutOk wq (execModEnableDeassert us s) := by
  unfold execModEnableDeassert
  simp only [outOk_next]
  repeat' (first
    | with_reducible assumption
    | (simp only [store_pair, store_setEeprom, store_setPower])
    | with_reducible refine ok_unpower _ ?_
    | split)

theorem same_execDipBegin (vinMv : ℕ) (s : State) : OutSame s (execDipBegin vinMv s) := by simp [execDipBegin]

theorem same_execDipInputRise (vinMv : ℕ) (s : State) : OutSame s (execDipInputRise vinMv s) := by simp [execDipInputRise]

theorem same_execDipEnd (vinMv : ℕ) (s : State) : OutSame s (execDipEnd vinMv s) := by simp [execDipEnd]

theorem same_execPowerControlEval (power1ms : ℕ) (power10ms : ℕ) (currentMa : ℕ) (s : State) :
    OutSame s (execPowerControlEval power1ms power10ms currentMa s) := by simp [execPowerControlEval]

theorem same_execStepChangeDone (die : ℕ) (s : State) : OutSame s (execStepChangeDone die s) := by simp [execStepChangeDone]

theorem ok_execThermalControlEval (die : ℕ) (tj : ℤ) (sensor : ℕ) (s : State) (h : StoreOk wq s.store) :
    OutOk wq (execThermalControlEval die tj sensor s) := by
  unfold execThermalControlEval; simp only [outOk_next]; repeat' split
  all_goals simp [h]

theorem ok_execThermalTrip (die : ℕ) (tj : ℤ) (s : State) (h : StoreOk wq s.store) :
    OutOk wq (execThermalTrip die tj s) := by simp [execThermalTrip, h]

theorem ok_execPhaseLost (die : ℕ) (rail : ℕ) (phase : ℕ) (s : State) (h : StoreOk wq s.store) :
    OutOk wq (execPhaseLost die rail phase s) := by
  unfold execPhaseLost; simp only [outOk_next]; repeat' split
  all_goals simp [h]

theorem ok_execKeeperOnlyEntry (cause : ℕ) (s : State) (h : StoreOk wq s.store) :
    OutOk wq (execKeeperOnlyEntry cause s) := by simp [execKeeperOnlyEntry, h]

theorem same_execPwarnEval (watts : ℕ) (s : State) : OutSame s (execPwarnEval watts s) := by
  unfold execPwarnEval; simp only [outSame_next]; repeat' split
  all_goals simp

theorem same_execMeterMinute (s : State) : OutSame s (execMeterMinute s) := by simp [execMeterMinute]

theorem same_execUnmarchedFirstWrite (die : ℕ) (page : ℕ) (s : State) :
    OutSame s (execUnmarchedFirstWrite die page s) := by simp [execUnmarchedFirstWrite]

theorem same_execBackgroundMarchPage (die : Nat) (page : MarchedPage) (s : State) : OutSame s (execBackgroundMarchPage die page s) := by
  unfold execBackgroundMarchPage
  simp only [outSame_next]
  repeat' (first
    | (simp only [store_pair, store_endMarch, store_beginMarch, store_marchPage])
    | split)

theorem ok_execTestWindowLost (die : ℕ) (s : State) (h : StoreOk wq s.store) :
    OutOk wq (execTestWindowLost die s) := by simp [execTestWindowLost, h]

theorem ok_execTestComplete (die : ℕ) (failures : List Failure) (s : State) (h : StoreOk wq s.store) :
    OutOk wq (execTestComplete die failures s) := by
  unfold execTestComplete; simp only [outOk_next]; repeat' split
  all_goals simp [h]

theorem ok_execSparesTestAfterPowerOn (die : ℕ) (failures : List Failure) (s : State) (h : StoreOk wq s.store) :
    OutOk wq (execSparesTestAfterPowerOn die failures s) := by
  unfold execSparesTestAfterPowerOn
  simp only [outOk_next]
  repeat' (first
    | with_reducible assumption
    | (simp only [exOk_ok, exOk_error, store_pair, store_startTest])
    | with_reducible refine ok_finishTest _ _ _ _ ?_
    | with_reducible refine ok_elim _ ?_ (fun a => ?_)
    | split)

theorem same_execKeeperFrameReject (frame : KprFrame) (s : State) :
    OutSame s (execKeeperFrameReject frame s) := by simp [execKeeperFrameReject]

theorem ok_execReset (ktag : ℕ) (data : BitVec 32) (s : State) (h : StoreOk wq s.store) :
    OutOk wq (execReset ktag data s) := by simp [execReset, h]

theorem ok_execRstLock (ktag : ℕ) (data : BitVec 32) (s : State) (h : StoreOk wq s.store) :
    OutOk wq (execRstLock ktag data s) := by simp [execRstLock, h]

theorem ok_execMbx0Doorbell (ktag : ℕ) (data : BitVec 32) (s : State) (h : StoreOk wq s.store) :
    OutOk wq (execMbx0Doorbell ktag data s) := by simp [execMbx0Doorbell, h]

theorem ok_execMbx0RspRelease (ktag : ℕ) (data : BitVec 32) (s : State) (h : StoreOk wq s.store) :
    OutOk wq (execMbx0RspRelease ktag data s) := by simp [execMbx0RspRelease, h]

theorem ok_execAlertPend (ktag : ℕ) (data : BitVec 32) (s : State) (h : StoreOk wq s.store) :
    OutOk wq (execAlertPend ktag data s) := by simp [execAlertPend, h]

theorem ok_execCntClr (ktag : ℕ) (port : ℕ) (data : BitVec 32) (s : State) (h : StoreOk wq s.store) :
    OutOk wq (execCntClr ktag port data s) := by simp [execCntClr, h]

theorem same_execRegisterLoRead (ktag : ℕ) (addr : ℕ) (s : State) :
    OutSame s (execRegisterLoRead ktag addr s) := by simp [execRegisterLoRead]

theorem ok_execRegisterWrite (ktag : ℕ) (addr : ℕ) (data : BitVec 32) (s : State) (h : StoreOk wq s.store) :
    OutOk wq (execRegisterWrite ktag addr data s) := by simp [execRegisterWrite, h]

theorem ok_execKeeperDomainLoss (vinMv : ℕ) (s : State) (h : StoreOk wq s.store) :
    OutOk wq (execKeeperDomainLoss vinMv s) := by simp [execKeeperDomainLoss, h]

theorem same_execKeeperFailover (s : State) : OutSame s (execKeeperFailover s) := by simp [execKeeperFailover]

theorem same_execX4RetrainDone (port : ℕ) (s : State) : OutSame s (execX4RetrainDone port s) := by simp [execX4RetrainDone]

theorem same_execSourceStateIdle (die : ℕ) (srcModule : ℕ) (srcDie : ℕ) (s : State) :
    OutSame s (execSourceStateIdle die srcModule srcDie s) := by simp [execSourceStateIdle]

theorem ok_execUnmarchedSramMarch (die : ℕ) (s : State) (h : StoreOk wq s.store) :
    OutOk wq (execUnmarchedSramMarch die s) := by simp [execUnmarchedSramMarch, h]

theorem same_execTapInstruction (i : TapInstr) (s : State) : OutSame s (execTapInstruction i s) := by
  unfold execTapInstruction
  simp only [outSame_next]
  split <;> rfl

theorem same_execDipInputFall (vinMv : ℕ) (s : State) : OutSame s (execDipInputFall vinMv s) := by simp [execDipInputFall]

end Sys2Proof.Machine
end

