-- ==== Sys2Proof/Laws/Log.lean ====
section
/-! SUPPORT. The event log: every operation of the machine and every command keeps its entries consecutive (R411). -/

namespace Sys2Proof.Machine

open Sys2Proof

/-- The event log of a state is as R411 says. -/
def LogOk (s : State) : Prop := s.log.Consecutive

/-- The same of a write that may fail. -/
def ExLog : Except Nat State → Prop
  | .ok s => LogOk s
  | .error _ => True

/-- The same of the outcome of a command, if it is a next state. -/
def OutLog : Host.Outcome State Fault Refusal → Prop
  | .next s => LogOk s
  | _ => True

theorem logOk_ok {s : State} (h : LogOk s) : ExLog (.ok s) := h
theorem logOk_error (e : Nat) : ExLog (.error e) := trivial
theorem logOk_next {s : State} (h : LogOk s) : OutLog (.next s) := h

theorem ExLog.of_eq {r : Except Nat State} (h : ExLog r) {t : State} (e : r = .ok t) : LogOk t := by
  subst e; exact h

theorem logOk_elim {α : Type} (o : Option α) {s : State} {f : α → State} (h : LogOk s) (hf : ∀ a, LogOk (f a)) :
    LogOk (o.elim s f) := by
  cases o with
  | none => exact h
  | some a => exact hf a

theorem logOk_foldl {α : Type} {f : State → α → State} (hf : ∀ s a, LogOk s → LogOk (f s a)) (l : List α) (s : State)
    (h : LogOk s) : LogOk (l.foldl f s) := by
  induction l generalizing s with
  | nil => exact h
  | cons a l ih => exact ih _ (hf s a h)

theorem logOk_foldl_fst {α β : Type} {f : State × β → α → State × β} (hf : ∀ s a, LogOk s.1 → LogOk (f s a).1) (l : List α)
    (s : State × β) (h : LogOk s.1) : LogOk (l.foldl f s).1 := by
  induction l generalizing s with
  | nil => exact h
  | cons a l ih => exact ih _ (hf s a h)

theorem logOk_foldKeep_fst {α β γ : Type} {f : State × γ → α → (State × γ) × Option β} (hf : ∀ s a, LogOk s.1 → LogOk (f s a).1.1)
    (l : List α) (s : State × γ) (h : LogOk s.1) : LogOk (foldKeep f s l).1.1 := by
  induction l generalizing s with
  | nil => exact h
  | cons a l ih =>
    simp only [foldKeep]
    have h1 := hf s a h
    split
    · rename_i h2; rw [h2] at h1; exact h1
    · rename_i h2; rw [h2] at h1; exact ih _ h1

theorem logOk_foldKeep {α β : Type} {f : State → α → State × Option β} (hf : ∀ s a, LogOk s → LogOk (f s a).1) (l : List α)
    (s : State) (h : LogOk s) : LogOk (foldKeep f s l).1 := by
  induction l generalizing s with
  | nil => exact h
  | cons a l ih =>
    simp only [foldKeep]
    have h1 := hf s a h
    split
    · rename_i h2; rw [h2] at h1; exact h1
    · rename_i h2; rw [h2] at h1; exact ih _ h1

theorem logOk_kept {s : State} {r : Except Nat State} (h : LogOk s) (hr : ExLog r) : LogOk (kept s r).1 := by
  cases r with
  | ok t => exact hr
  | error e => exact h

theorem logOk_getD {r : Except Nat State} {s : State} (hr : ExLog r) (h : LogOk s) : LogOk (r.toOption.getD s) := by
  cases r with
  | ok t => exact hr
  | error e => exact h

theorem logOk_exMap {r : Except Nat State} {f : State → State} (hr : ExLog r) (hf : ∀ t : State, LogOk t → LogOk (f t)) :
    ExLog (r.map f) := by
  cases r with
  | error e => trivial
  | ok t => exact hf t hr

theorem logOk_setMem (s : State) (m : List Host.Cell) (h : LogOk s) : LogOk (s.setMem m) := h
theorem logOk_setFw (s : State) (f : Firmware) (h : LogOk s) : LogOk (s.setFw f) := h
theorem logOk_setMbx0 (s : State) (m : Mbx0) (h : LogOk s) : LogOk (s.setMbx0 m) := h

theorem consecutive_empty : Log.Consecutive {} := ⟨by decide, 0, rfl, rfl⟩

theorem logOk_setBad (s : State) (b : List ℕ) (hl : LogOk s) :
    LogOk (State.setBad s b) := hl

theorem logOk_setDies (s : State) (d : List Die) (hl : LogOk s) :
    LogOk (State.setDies s d) := hl

theorem logOk_setPorts (s : State) (p : List Port) (hl : LogOk s) :
    LogOk (State.setPorts s p) := hl

theorem logOk_setFab (s : State) (f : Fabric) (hl : LogOk s) :
    LogOk (State.setFab s f) := hl

theorem logOk_setPitches (s : State) (p : List Pitch) (hl : LogOk s) :
    LogOk (State.setPitches s p) := hl

theorem logOk_setLends (s : State) (l : List Lend) (hl : LogOk s) :
    LogOk (State.setLends s l) := hl

theorem logOk_setBoxes (s : State) (b : List Mailbox) (hl : LogOk s) :
    LogOk (State.setBoxes s b) := hl

theorem logOk_setRing (s : State) (r : Ringmaster) (hl : LogOk s) :
    LogOk (State.setRing s r) := hl

theorem logOk_setPower (s : State) (p : Power) (hl : LogOk s) :
    LogOk (State.setPower s p) := hl

theorem logOk_setKpr (s : State) (k : Keeper) (hl : LogOk s) :
    LogOk (State.setKpr s k) := hl

theorem logOk_setLog (s : State) (l : Log) (h : l.Consecutive) : LogOk (s.setLog l) := h

theorem logOk_setTests (s : State) (t : Tests) (hl : LogOk s) :
    LogOk (State.setTests s t) := hl

theorem logOk_setEeprom (s : State) (e : Eeprom) (hl : LogOk s) :
    LogOk (State.setEeprom s e) := hl

theorem logOk_send (s : State) (x : Sent) (hl : LogOk s) :
    LogOk (State.send s x) := hl

theorem logOk_draw (s : State) (hl : LogOk s) :
    LogOk (State.draw s) := hl

theorem logOk_updDie (s : State) (d : ℕ) (f : Die → Die) (hl : LogOk s) :
    LogOk (State.updDie s d f) := hl

theorem logOk_updCluster (s : State) (p : Place) (f : Cluster → Cluster) (hl : LogOk s) :
    LogOk (State.updCluster s p f) := hl

theorem logOk_updPort (s : State) (p : ℕ) (f : Port → Port) (hl : LogOk s) :
    LogOk (State.updPort s p f) := hl

theorem logOk_updBox (s : State) (m : ℕ) (f : Mailbox → Mailbox) (hl : LogOk s) :
    LogOk (State.updBox s m f) := hl

theorem logOk_updPitch (s : State) (tag : ℕ) (f : Pitch → Pitch) (hl : LogOk s) :
    LogOk (State.updPitch s tag f) := hl

theorem logOk_updQueue (s : State) (tag : ℕ) (id : ℕ) (f : Queue → Queue) (hl : LogOk s) :
    LogOk (State.updQueue s tag id f) := hl

theorem logOk_updItem (s : State) (k : ItemKey) (f : Item → Item) (hl : LogOk s) :
    LogOk (State.updItem s k f) := hl

theorem logOk_logEvent (s : State) (code : ℕ) (sev : ℕ) (die : ℕ) (tag : ℕ) (data : ℕ) (hl : LogOk s) :
    LogOk (State.logEvent s code sev die tag data) := by
  obtain ⟨hn, first, hf, hs⟩ := hl
  refine logOk_setLog _ _ ⟨?_, first + (s.log.entries.length + 1 - Config.logEntries), ?_, ?_⟩
  · simp only [List.length_drop, List.length_append, List.length_singleton]; omega
  · simp only [List.length_drop, List.length_append, List.length_singleton]; omega
  · simp only [List.map_drop, List.map_append, List.map_cons, List.map_nil, hs, ← hf, List.length_drop, List.length_append,
      List.length_singleton]
    rw [← List.range'_1_concat, List.drop_range']
    simp

theorem logOk_logNote (s : State) (group : ℕ) (name : String) (sev : Option ℕ) (die : ℕ) (tag : ℕ) (data : ℕ) (hl : LogOk s) :
    LogOk (State.logNote s group name sev die tag data) := by
  unfold State.logNote
  try dsimp only
  repeat' (first
    | with_reducible assumption
    | with_reducible refine logOk_logEvent _ _ _ _ _ _ ?_)

theorem logOk_logFact (s : State) (group : ℕ) (name : String) (sev : Option ℕ) (die : ℕ) (tag : ℕ) (data : ℕ) (hl : LogOk s) :
    LogOk (State.logFact s group name sev die tag data) := by
  unfold State.logFact
  try dsimp only
  repeat' (first
    | with_reducible assumption
    | with_reducible refine logOk_logEvent _ _ _ _ _ _ ?_)

theorem logOk_countDiscard (s : State) (port : ℕ) (hl : LogOk s) :
    LogOk (State.countDiscard s port) := by
  unfold State.countDiscard
  try dsimp only
  repeat' (first
    | with_reducible assumption
    | with_reducible refine logOk_updPort _ _ _ ?_)

theorem logOk_onLink (s : State) (port : Nat) (f : Frame) (hl : LogOk s) :
    LogOk (State.onLink s port f) := by
  unfold State.onLink
  try dsimp only
  repeat' (first
    | with_reducible assumption
    | with_reducible refine logOk_send _ _ ?_)

theorem logOk_transmit (s : State) (port : ℕ) (vc : ℕ) (f : Frame) (hl : LogOk s) :
    LogOk (State.transmit s port vc f) := by
  unfold State.transmit
  try dsimp only
  repeat' (first
    | with_reducible assumption
    | with_reducible refine logOk_onLink _ _ _ ?_
    | with_reducible refine logOk_updPort _ _ _ ?_)

theorem logOk_control (s : State) (port : Nat) (c : CtrlItem) (hl : LogOk s) :
    LogOk (State.control s port c) := by
  unfold State.control
  try dsimp only
  repeat' (first
    | with_reducible assumption
    | with_reducible refine logOk_send _ _ ?_)

theorem logOk_tellCredits (s : State) (port : Nat) (hl : LogOk s) :
    LogOk (State.tellCredits s port) := by
  unfold State.tellCredits
  try dsimp only
  repeat' (first
    | with_reducible assumption
    | with_reducible refine logOk_control _ _ _ ?_
    | with_reducible refine logOk_updPort _ _ _ ?_)

theorem logOk_hostLine (port : Nat) (l : List (Nat × Frame)) (blocked : List Nat) (s : State) (hl : LogOk s) :
    LogOk (State.hostLine port l blocked s) := by
  induction l generalizing blocked s with
  | nil => exact hl
  | cons x l ih =>
    unfold State.hostLine
    split
    · exact ih _ _ (logOk_transmit _ _ _ _ hl)
    · exact ih _ _ (logOk_updPort _ _ _ hl)

theorem logOk_flushHost (s : State) (port : ℕ) (hl : LogOk s) :
    LogOk (State.flushHost s port) := by
  unfold State.flushHost
  try dsimp only
  repeat' (first
    | with_reducible assumption
    | with_reducible refine logOk_hostLine _ _ _ _ ?_
    | with_reducible refine logOk_updPort _ _ _ ?_)

theorem logOk_meterHost (s : State) (tag : ℕ) (n : ℕ) (hl : LogOk s) :
    LogOk (State.meterHost s tag n) := by
  unfold State.meterHost
  try dsimp only
  repeat' (first
    | with_reducible assumption
    | with_reducible refine logOk_updPitch _ _ _ ?_)

theorem logOk_sendHost (s : State) (port vc : ℕ) (f : Frame) (hl : LogOk s) :
    LogOk (State.sendHost s port vc f) := by
  unfold State.sendHost
  try dsimp only
  repeat' (first
    | with_reducible assumption
    | with_reducible refine logOk_updPort _ _ _ ?_
    | with_reducible refine logOk_flushHost _ _ ?_
    | with_reducible refine logOk_meterHost _ _ _ ?_)

theorem logOk_toRouter (s : State) (die : ℕ) (w : Waiting) (hl : LogOk s) :
    LogOk (State.toRouter s die w) := by
  unfold State.toRouter
  try dsimp only
  repeat' (first
    | with_reducible assumption
    | with_reducible refine logOk_updDie _ _ _ ?_)

theorem logOk_beginTxn (s : State) (die : Nat) (f : Frame) (owner : Option ItemKey) (hl : LogOk s) :
    LogOk (State.beginTxn s die f owner) := by
  unfold State.beginTxn
  try dsimp only
  repeat' (first
    | with_reducible assumption
    | with_reducible refine logOk_updDie _ _ _ ?_
    | with_reducible refine logOk_toRouter _ _ _ ?_)

theorem logOk_originate (s : State) (die : Nat) (f : Frame) (owner : Option ItemKey) (hl : LogOk s) :
    LogOk (State.originate s die f owner) := by
  unfold State.originate
  try dsimp only
  repeat' (first
    | with_reducible assumption
    | with_reducible refine logOk_beginTxn _ _ _ _ ?_
    | with_reducible refine logOk_updDie _ _ _ ?_
    | split)

theorem logOk_endTxn (s : State) (die : Nat) (txn : Nat) (hl : LogOk s) :
    LogOk (State.endTxn s die txn) := by
  unfold State.endTxn
  try dsimp only
  repeat' (first
    | with_reducible assumption
    | with_reducible refine logOk_updDie _ _ _ ?_
    | with_reducible refine logOk_beginTxn _ _ _ _ ?_
    | split)

theorem logOk_firmwareFrame (s : State) (dest : Nat) (tag : Nat) (srcPort : Nat) (hchan : Nat) (htag : Nat) (payload : Bytes) (hl : LogOk s) :
    LogOk (State.firmwareFrame s dest tag srcPort hchan htag payload) := by
  unfold State.firmwareFrame
  try dsimp only
  repeat' (first
    | with_reducible assumption
    | with_reducible refine logOk_originate _ _ _ _ ?_)

theorem logOk_sendMessage (s : State) (module : Nat) (tag : Nat) (requestId : Nat) (kind : Nat) (data : Bytes) (hl : LogOk s) :
    LogOk (State.sendMessage s module tag requestId kind data) := by
  unfold State.sendMessage
  try dsimp only
  repeat' (first
    | with_reducible assumption
    | with_reducible refine logOk_firmwareFrame _ _ _ _ _ _ _ ?_)

theorem logOk_toAdapter (s : State) (srcModule : Nat) (srcPort : Nat) (hchan : Nat) (htag : Nat) (tag : Nat) (payload : Bytes) (hl : LogOk s) :
    LogOk (State.toAdapter s srcModule srcPort hchan htag tag payload) := by
  unfold State.toAdapter
  try dsimp only
  repeat' (first
    | with_reducible assumption
    | with_reducible refine logOk_firmwareFrame _ _ _ _ _ _ _ ?_
    | split)

theorem logOk_deliver (s : State) (mailbox : ℕ) (srcModule : ℕ) (srcPort : ℕ) (hchan : ℕ) (htag : ℕ) (requestId : ℕ) (msg : Bytes) (counted : Bool) (hl : LogOk s) :
    LogOk (State.deliver s mailbox srcModule srcPort hchan htag requestId msg counted) := by
  unfold State.deliver
  try dsimp only
  repeat' (first
    | with_reducible assumption
    | with_reducible refine logOk_setMbx0 _ _ ?_
    | with_reducible refine logOk_sendMessage _ _ _ _ _ _ ?_
    | with_reducible refine logOk_toAdapter _ _ _ _ _ _ _ ?_
    | with_reducible refine logOk_foldl (fun s a hs => ?_) _ _ ?_
    | split)

theorem logOk_respond (s : State) (seq : ℕ) (status : ℕ) (body : Bytes) (hl : LogOk s) :
    LogOk (State.respond s seq status body) := by
  unfold State.respond
  try dsimp only
  repeat' (first
    | with_reducible assumption
    | with_reducible refine logOk_setRing _ _ ?_
    | with_reducible refine logOk_updBox _ _ _ ?_
    | with_reducible refine logOk_deliver _ _ _ _ _ _ _ _ _ ?_
    | with_reducible refine logOk_foldl (fun s a hs => ?_) _ _ ?_
    | with_reducible refine logOk_foldl_fst (fun s a hs => ?_) _ _ ?_
    | with_reducible refine logOk_elim _ ?_ (fun a => ?_)
    | split)

theorem logOk_onRequest (s : State) (seq : ℕ) (command : ℕ) (f : Request → Pitch → State) (h : LogOk s) (hf : ∀ a' b', LogOk (f a' b')) :
    LogOk (State.onRequest s seq command f) := by
  unfold State.onRequest
  try dsimp only
  repeat' (first
    | with_reducible assumption
    | with_reducible refine logOk_respond _ _ _ _ ?_
    | exact hf _ _
    | split)

theorem logOk_onRequestOp (s : State) (seq : ℕ) (command : ℕ) (off : ℕ) (n : ℕ) (op : ℕ) (f : Request → Pitch → State) (h : LogOk s) (hf : ∀ a' b', LogOk (f a' b')) :
    LogOk (State.onRequestOp s seq command off n op f) := by
  unfold State.onRequestOp
  try dsimp only
  repeat' (first
    | with_reducible assumption
    | with_reducible refine logOk_onRequest _ _ _ _ ?_ (fun z0 z1 => ?_)
    | with_reducible refine logOk_respond _ _ _ _ ?_
    | exact hf _ _
    | split)

theorem logOk_onOperator (s : State) (seq : ℕ) (command : ℕ) (f : Request → State) (h : LogOk s) (hf : ∀ a', LogOk (f a')) :
    LogOk (State.onOperator s seq command f) := by
  unfold State.onOperator
  try dsimp only
  repeat' (first
    | with_reducible assumption
    | exact hf _
    | split)

theorem logOk_onOperatorOp (s : State) (seq : ℕ) (command : ℕ) (off : ℕ) (n : ℕ) (op : ℕ) (f : Request → State) (h : LogOk s) (hf : ∀ a', LogOk (f a')) :
    LogOk (State.onOperatorOp s seq command off n op f) := by
  unfold State.onOperatorOp
  try dsimp only
  repeat' (first
    | with_reducible assumption
    | with_reducible refine logOk_onOperator _ _ _ _ ?_ (fun z0 => ?_)
    | with_reducible refine logOk_respond _ _ _ _ ?_
    | exact hf _
    | split)

theorem logOk_moveTasks (s : State) (c : Nat) (hl : LogOk s) :
    LogOk (s.moveTasks c) := by
  unfold State.moveTasks
  try dsimp only
  repeat' (first
    | with_reducible assumption
    | with_reducible refine logOk_setPitches _ _ ?_
    | with_reducible refine logOk_exMap ?_ (fun t ht => ?_)
    | split)

theorem logOk_rehome (s : State) (hl : LogOk s) :
    LogOk s.rehome := by
  unfold State.rehome
  try dsimp only
  repeat' (first
    | with_reducible assumption
    | with_reducible refine logOk_moveTasks _ _ ?_
    | with_reducible refine logOk_foldl (fun s a hs => ?_) _ _ ?_)

theorem logOk_logPageWrite (s : State) (tag : ℕ) (queue : ℕ) (off : ℕ) (hl : LogOk s) :
    LogOk (State.logPageWrite s tag queue off) := by
  unfold State.logPageWrite
  try dsimp only
  repeat' (first
    | with_reducible assumption
    | with_reducible refine logOk_logNote _ _ _ _ _ _ _ ?_)

theorem logOk_writePage (s : State) (tag : ℕ) (queue : ℕ) (off : ℕ) (data : Bytes) (hl : LogOk s) :
    LogOk (State.writePage s tag queue off data) := by
  unfold State.writePage
  try dsimp only
  repeat' (first
    | with_reducible assumption
    | with_reducible refine logOk_updQueue _ _ _ _ ?_
    | with_reducible refine logOk_logPageWrite _ _ _ _ ?_
    | split)

theorem logOk_logUnmarched (s : State) (die tag what : ℕ) (hl : LogOk s) :
    LogOk (State.logUnmarched s die tag what) := by
  unfold State.logUnmarched
  try dsimp only
  repeat' (first
    | with_reducible assumption
    | with_reducible refine logOk_logEvent _ _ _ _ _ _ ?_)

theorem logOk_firstWrite (s : State) (die page : ℕ) (hl : LogOk s) :
    LogOk (State.firstWrite s die page) := by
  unfold State.firstWrite
  try dsimp only
  repeat' (first
    | with_reducible assumption
    | with_reducible refine logOk_updDie _ _ _ ?_
    | with_reducible refine logOk_logUnmarched _ _ _ _ ?_
    | with_reducible refine logOk_elim _ ?_ (fun a => ?_)
    | split)

theorem logOk_markWritten (s : State) (k : ℕ) (hl : LogOk s) :
    LogOk (State.markWritten s k) := by
  unfold State.markWritten
  try dsimp only
  repeat' (first
    | with_reducible assumption
    | with_reducible refine logOk_firstWrite _ _ _ ?_
    | with_reducible refine logOk_elim _ ?_ (fun a => ?_)
    | split)

theorem logOk_dramNeed (s : State) (die : ℕ) (hl : LogOk s) :
    LogOk (State.dramNeed s die) := hl

theorem logOk_onItem (s : State) (k : ItemKey) (f : Pitch → Item → State) (h : LogOk s) (hf : ∀ a' b', LogOk (f a' b')) :
    LogOk (State.onItem s k f) := by
  unfold State.onItem
  try dsimp only
  repeat' (first
    | with_reducible assumption
    | exact hf _ _
    | split)

theorem logOk_leaveEngine (s : State) (pl : Place) (k : ItemKey) (hl : LogOk s) :
    LogOk (State.leaveEngine s pl k) := by
  unfold State.leaveEngine
  try dsimp only
  repeat' (first
    | with_reducible assumption
    | with_reducible refine logOk_updCluster _ _ _ ?_
    | with_reducible refine logOk_updPitch _ _ _ ?_
    | with_reducible refine logOk_updQueue _ _ _ _ ?_
    | with_reducible refine logOk_elim _ ?_ (fun a => ?_)
    | split)

theorem logOk_undefineSlots (s : State) (pl : Place) (mask : BitVec 32) (hl : LogOk s) :
    LogOk (State.undefineSlots s pl mask) := by
  unfold State.undefineSlots
  try dsimp only
  repeat' (first
    | with_reducible assumption
    | with_reducible refine logOk_updCluster _ _ _ ?_
    | with_reducible refine logOk_draw _ ?_
    | split)

theorem logOk_logBadRead (s : State) (tag : ℕ) (a : Option ℕ) (hl : LogOk s) :
    LogOk (s.logBadRead tag a) := by
  unfold State.logBadRead
  try dsimp only
  repeat' (first
    | with_reducible assumption
    | with_reducible refine logOk_logFact _ _ _ _ _ _ _ ?_
    | with_reducible refine logOk_logNote _ _ _ _ _ _ _ ?_
    | split)

theorem logOk_transfer (s : State) (die : Nat) (typ : Nat) (k : ItemKey) (x : Nat × Nat × Bool × Nat) (hl : LogOk s) :
    LogOk (State.transfer s die typ k x) := by
  unfold State.transfer
  try dsimp only
  repeat' (first
    | with_reducible assumption
    | with_reducible refine logOk_originate _ _ _ _ ?_)

theorem logOk_fetchAbroad (s : State) (p : Pitch) (i : Item) (hl : LogOk s) :
    LogOk (State.fetchAbroad s p i) := by
  unfold State.fetchAbroad
  try dsimp only
  repeat' (first
    | with_reducible assumption
    | with_reducible refine logOk_transfer _ _ _ _ _ ?_
    | with_reducible refine logOk_foldl (fun s a hs => ?_) _ _ ?_)

theorem logOk_storeAbroad (s : State) (p : Pitch) (i : Item) (hl : LogOk s) :
    LogOk (State.storeAbroad s p i) := by
  unfold State.storeAbroad
  try dsimp only
  repeat' (first
    | with_reducible assumption
    | with_reducible refine logOk_transfer _ _ _ _ _ ?_
    | with_reducible refine logOk_foldl (fun s a hs => ?_) _ _ ?_)

theorem logOk_loseSlots (s : State) (p : Pitch) (i : Item) (mask : BitVec 32) (hl : LogOk s) :
    LogOk (State.loseSlots s p i mask) := by
  unfold State.loseSlots
  try dsimp only
  repeat' (first
    | with_reducible assumption
    | with_reducible refine logOk_undefineSlots _ _ _ ?_
    | with_reducible refine logOk_updPitch _ _ _ ?_
    | with_reducible refine logOk_draw _ ?_
    | with_reducible refine logOk_exMap ?_ (fun t ht => ?_)
    | split)

theorem logOk_endRegion (s : State) (p : Pitch) (i : Item) (hl : LogOk s) :
    LogOk (State.endRegion s p i) := by
  unfold State.endRegion
  try dsimp only
  repeat' (first
    | with_reducible assumption
    | with_reducible refine logOk_loseSlots _ _ _ _ ?_
    | split)

theorem logOk_sendDown (s : State) (die : Nat) (tag : Nat) (src : Nat × Nat × Nat) (d : Config.CollDown) (hl : LogOk s) :
    LogOk (State.sendDown s die tag src d) := by
  unfold State.sendDown
  try dsimp only
  repeat' (first
    | with_reducible assumption
    | with_reducible refine logOk_toRouter _ _ _ ?_
    | split)

theorem logOk_tellDown (s : State) (tag : Nat) (c : Coll) (d : Config.CollDown) (hl : LogOk s) :
    LogOk (State.tellDown s tag c d) := by
  unfold State.tellDown
  try dsimp only
  repeat' (first
    | with_reducible assumption
    | with_reducible refine logOk_sendDown _ _ _ _ _ ?_
    | with_reducible refine logOk_foldl (fun s a hs => ?_) _ _ ?_)

theorem logOk_tileToSlot (s : State) (pl : Place) (add : Bool) (n : ℕ) (accs : List Acc) (hl : LogOk s) :
    LogOk (State.tileToSlot s pl add n accs).1 := by
  unfold State.tileToSlot
  try dsimp only
  repeat' (first
    | with_reducible assumption
    | with_reducible refine logOk_updCluster _ _ _ ?_
    | with_reducible refine logOk_exMap ?_ (fun t ht => ?_)
    | split)

theorem logOk_tileDone (s : State) (pl : Place) (key : ItemKey) (total : ℕ) (r : Raised) (hl : LogOk s) :
    LogOk (State.tileDone s pl key total r) := by
  unfold State.tileDone
  try dsimp only
  repeat' (first
    | with_reducible assumption
    | with_reducible refine logOk_updCluster _ _ _ ?_
    | with_reducible refine logOk_updItem _ _ _ ?_
    | with_reducible refine logOk_leaveEngine _ _ _ ?_
    | with_reducible refine logOk_elim _ ?_ (fun a => ?_)
    | split)

theorem logOk_updModel (s : State) (tag : ℕ) (id : ℕ) (f : Model → Model) (hl : LogOk s) :
    LogOk (State.updModel s tag id f) := hl

theorem logOk_updSession (s : State) (tag : ℕ) (model : ℕ) (id : ℕ) (f : Session → Session) (hl : LogOk s) :
    LogOk (State.updSession s tag model id f) := hl

theorem logOk_updPlan (s : State) (tag : ℕ) (run : ℕ) (f : Plan → Plan) (hl : LogOk s) :
    LogOk (State.updPlan s tag run f) := hl

theorem logOk_endRequest (s : State) (tag : ℕ) (model : ℕ) (sid : ℕ) (reason : ℕ) (status : ℕ) (hl : LogOk s) :
    LogOk (State.endRequest s tag model sid reason status) := by
  unfold State.endRequest
  try dsimp only
  repeat' (first
    | with_reducible assumption
    | with_reducible refine logOk_updPitch _ _ _ ?_
    | with_reducible refine logOk_updSession _ _ _ _ _ ?_
    | with_reducible refine logOk_exMap ?_ (fun t ht => ?_)
    | split)

theorem logOk_removeSession (s : State) (tag : ℕ) (model : ℕ) (sid : ℕ) (hl : LogOk s) :
    LogOk (State.removeSession s tag model sid) := by
  unfold State.removeSession
  try dsimp only
  repeat' (first
    | with_reducible assumption
    | with_reducible refine logOk_updPitch _ _ _ ?_
    | with_reducible refine logOk_updModel _ _ _ _ ?_
    | with_reducible refine logOk_elim _ ?_ (fun a => ?_)
    | split)

theorem logOk_closePaused (s : State) (tag : ℕ) (model : ℕ) (sid : ℕ) (reason : ℕ) (status : ℕ) (hl : LogOk s) :
    LogOk (State.closePaused s tag model sid reason status) := by
  unfold State.closePaused
  try dsimp only
  repeat' (first
    | with_reducible assumption
    | with_reducible refine logOk_endRequest _ _ _ _ _ _ ?_
    | with_reducible refine logOk_removeSession _ _ _ _ ?_)

theorem logOk_expireSession (s : State) (tag : ℕ) (model : ℕ) (sid : ℕ) (hl : LogOk s) :
    LogOk (State.expireSession s tag model sid) := by
  unfold State.expireSession
  try dsimp only
  repeat' (first
    | with_reducible assumption
    | with_reducible refine logOk_closePaused _ _ _ _ _ _ ?_
    | with_reducible refine logOk_updModel _ _ _ _ ?_)

theorem logOk_startPause (s : State) (p : Pitch) (m : Model) (x : Session) (byBooth : Bool) (ttl : ℕ) (addr : ℕ) (req : Option ℕ) (hl : LogOk s) :
    LogOk (State.startPause s p m x byBooth ttl addr req) := by
  unfold State.startPause
  try dsimp only
  repeat' (first
    | with_reducible assumption
    | with_reducible refine logOk_updSession _ _ _ _ _ ?_)

theorem logOk_dropPaused (s : State) (p : Pitch) (m : Model) (x : Session) (status : ℕ) (detail : ℕ) (hl : LogOk s) :
    LogOk (State.dropPaused s p m x status detail) := by
  unfold State.dropPaused
  try dsimp only
  repeat' (first
    | with_reducible assumption
    | with_reducible refine logOk_expireSession _ _ _ _ ?_
    | with_reducible refine logOk_closePaused _ _ _ _ _ _ ?_
    | split)

theorem logOk_expirePast (s : State) (tag : ℕ) (hl : LogOk s) :
    LogOk (State.expirePast s tag) := by
  unfold State.expirePast
  try dsimp only
  repeat' (first
    | with_reducible assumption
    | with_reducible refine logOk_expireSession _ _ _ _ ?_
    | with_reducible refine logOk_foldl (fun s a hs => ?_) _ _ ?_
    | with_reducible refine logOk_foldl_fst (fun s a hs => ?_) _ _ ?_
    | with_reducible refine logOk_exMap ?_ (fun t ht => ?_)
    | split)

theorem logOk_boothPause (s : State) (tag : ℕ) (model : ℕ) (hl : LogOk s) :
    LogOk (State.boothPause s tag model) := by
  unfold State.boothPause
  try dsimp only
  repeat' (first
    | with_reducible assumption
    | with_reducible refine logOk_startPause _ _ _ _ _ _ _ _ ?_
    | split)

theorem logOk_sample (s : State) (hl : LogOk s) :
    LogOk s.sample := hl

theorem logOk_tick (s : State) (hl : LogOk s) :
    LogOk (tick s) := by
  unfold tick
  try dsimp only
  repeat' (first
    | with_reducible assumption
    | with_reducible exact hl
    | exact hl
    | with_reducible refine logOk_setLog _ _ ?_
    | with_reducible refine logOk_setPorts _ _ ?_
    | with_reducible refine logOk_setDies _ _ ?_
    | with_reducible refine logOk_setPitches _ _ ?_
    | with_reducible refine logOk_setKpr _ _ ?_
    | with_reducible refine logOk_sample _ ?_
    | with_reducible refine logOk_exMap ?_ (fun t ht => ?_)
    | split)

theorem logOk_giveEngine (s : State) (pl : Place) (e : Engine) (k : ItemKey) (hl : LogOk s) :
    LogOk (State.giveEngine s pl e k) := by
  unfold State.giveEngine
  try dsimp only
  repeat' (first
    | with_reducible assumption
    | with_reducible refine logOk_leaveEngine _ _ _ ?_
    | with_reducible refine logOk_updItem _ _ _ ?_
    | with_reducible refine logOk_updPitch _ _ _ ?_
    | with_reducible refine logOk_updCluster _ _ _ ?_
    | with_reducible refine logOk_elim _ ?_ (fun a => ?_)
    | split)

theorem logOk_refuseContributor (s : State) (pl : Place) (key : ItemKey) (hl : LogOk s) :
    LogOk (State.refuseContributor s pl key) := by
  unfold State.refuseContributor
  try dsimp only
  repeat' (first
    | with_reducible assumption
    | with_reducible refine logOk_leaveEngine _ _ _ ?_
    | with_reducible refine logOk_updItem _ _ _ ?_)

theorem logOk_sendUp (s : State) (die : Nat) (k : ItemKey) (root : Nat × Nat) (u : Config.CollUp) (hl : LogOk s) :
    LogOk (State.sendUp s die k root u) := by
  unfold State.sendUp
  try dsimp only
  repeat' (first
    | with_reducible assumption
    | with_reducible refine logOk_originate _ _ _ _ ?_)

theorem logOk_firstUp (s : State) (i : Item) (die : Nat) (root : Option (Nat × Nat)) (vals : List (List Exact × Bool)) (hl : LogOk s) :
    LogOk (State.firstUp s i die root vals) := by
  unfold State.firstUp
  try dsimp only
  repeat' (first
    | with_reducible assumption
    | with_reducible refine logOk_sendUp _ _ _ _ _ ?_
    | with_reducible refine logOk_control _ _ _ ?_
    | with_reducible refine logOk_draw _ ?_
    | with_reducible refine logOk_elim _ ?_ (fun a => ?_))

theorem logOk_register (s : State) (p : Pitch) (pl : Place) (i : Item) (vals : List (List Exact × Bool)) (hl : LogOk s) :
    LogOk (State.register s p pl i vals) := by
  unfold State.register
  try dsimp only
  repeat' (first
    | with_reducible assumption
    | with_reducible refine logOk_updPitch _ _ _ ?_
    | with_reducible refine logOk_control _ _ _ ?_
    | with_reducible refine logOk_leaveEngine _ _ _ ?_
    | with_reducible refine logOk_updItem _ _ _ ?_
    | with_reducible refine logOk_firstUp _ _ _ _ _ ?_)

theorem logOk_updColl (s : State) (tag : ℕ) (ident : ℕ) (f : Coll → Coll) (hl : LogOk s) :
    LogOk (State.updColl s tag ident f) := hl

theorem logOk_secondUp (s : State) (tag : Nat) (c : Coll) (x : Contributor) (die : Nat) (root : Nat × Nat) (hl : LogOk s) :
    LogOk (State.secondUp s tag c x die root) := by
  unfold State.secondUp
  try dsimp only
  repeat' (first
    | with_reducible assumption
    | with_reducible refine logOk_updColl _ _ _ _ ?_
    | with_reducible refine logOk_sendUp _ _ _ _ _ ?_)

theorem logOk_endColl (s : State) (tag : ℕ) (c : Coll) (o : Outcome) (hl : LogOk s) :
    LogOk (State.endColl s tag c o) := by
  unfold State.endColl
  try dsimp only
  repeat' (first
    | with_reducible assumption
    | with_reducible refine logOk_tellDown _ _ _ _ ?_
    | with_reducible refine logOk_updItem _ _ _ ?_
    | with_reducible refine logOk_updPitch _ _ _ ?_
    | with_reducible refine logOk_foldl (fun s a hs => ?_) _ _ ?_)

theorem logOk_joinAway (s : State) (die : Nat) (f : Frame) (p : Pitch) (u : Config.CollUp) (hl : LogOk s) :
    LogOk (State.joinAway s die f p u) := by
  unfold State.joinAway
  try dsimp only
  repeat' (first
    | with_reducible assumption
    | with_reducible refine logOk_control _ _ _ ?_
    | with_reducible refine logOk_draw _ ?_
    | with_reducible refine logOk_updPitch _ _ _ ?_
    | with_reducible refine logOk_sendDown _ _ _ _ _ ?_
    | with_reducible refine logOk_elim _ ?_ (fun a => ?_)
    | split)

theorem logOk_collUp (s : State) (die : Nat) (f : Frame) (hl : LogOk s) :
    LogOk (State.collUp s die f) := by
  unfold State.collUp
  try dsimp only
  repeat' (first
    | with_reducible assumption
    | with_reducible refine logOk_updColl _ _ _ _ ?_
    | with_reducible refine logOk_control _ _ _ ?_
    | with_reducible refine logOk_joinAway _ _ _ _ _ ?_
    | split)

theorem logOk_collDown (s : State) (f : Frame) (hl : LogOk s) :
    LogOk (State.collDown s f) := by
  unfold State.collDown
  try dsimp only
  repeat' (first
    | with_reducible assumption
    | with_reducible refine logOk_endColl _ _ _ _ ?_
    | with_reducible refine logOk_updColl _ _ _ _ ?_
    | split)

theorem logOk_finishClose (s : State) (seq : ℕ) (tag : ℕ) (id : ℕ) (t : ℕ) (hl : LogOk s) :
    LogOk (State.finishClose s seq tag id t) := by
  unfold State.finishClose
  try dsimp only
  repeat' (first
    | with_reducible assumption
    | with_reducible refine logOk_updPitch _ _ _ ?_
    | with_reducible refine logOk_respond _ _ _ _ ?_
    | with_reducible refine logOk_exMap ?_ (fun t ht => ?_)
    | split)

theorem logOk_dropSave (s : State) (seq : ℕ) (tag : ℕ) (status : ℕ) (hl : LogOk s) :
    LogOk (State.dropSave s seq tag status) := by
  unfold State.dropSave
  try dsimp only
  repeat' (first
    | with_reducible assumption
    | with_reducible refine logOk_updPitch _ _ _ ?_
    | with_reducible refine logOk_respond _ _ _ _ ?_)

theorem logOk_updRun (s : State) (tag : ℕ) (id : ℕ) (f : Run → Run) (hl : LogOk s) :
    LogOk (State.updRun s tag id f) := hl

theorem logOk_ckptAnswer (s : State) (seq : ℕ) (tag : ℕ) (run : ℕ) (hl : LogOk s) :
    LogOk (State.ckptAnswer s seq tag run) := by
  unfold State.ckptAnswer
  try dsimp only
  repeat' (first
    | with_reducible assumption
    | with_reducible refine logOk_draw _ ?_
    | with_reducible refine logOk_respond _ _ _ _ ?_)

theorem logOk_acceptDelivery (s : State) (tag : ℕ) (c : Coll) (r : BlockRef) (l : Layer) (hl : LogOk s) :
    LogOk (State.acceptDelivery s tag c r l) := by
  unfold State.acceptDelivery
  try dsimp only
  repeat' (first
    | with_reducible assumption
    | with_reducible refine logOk_updRun _ _ _ _ ?_
    | with_reducible refine logOk_deliver _ _ _ _ _ _ _ _ _ ?_
    | with_reducible refine logOk_endColl _ _ _ _ ?_)

theorem logOk_noteLate (s : State) (tag : Nat) (p : Pitch) (r : Run) (l : Layer) (u : Rule) (c : CBlock) (hl : LogOk s) :
    LogOk (State.noteLate s tag p r l u c) := by
  unfold State.noteLate
  try dsimp only
  repeat' (first
    | with_reducible assumption
    | with_reducible refine logOk_updRun _ _ _ _ ?_
    | with_reducible refine logOk_logNote _ _ _ _ _ _ _ ?_
    | split)

theorem logOk_emit (s : State) (tag : ℕ) (r : Run) (l : Layer) (u : Rule) (c : CBlock) (hl : LogOk s) :
    LogOk (State.emit s tag r l u c) := by
  unfold State.emit
  try dsimp only
  repeat' (first
    | with_reducible assumption
    | with_reducible refine logOk_updRun _ _ _ _ ?_
    | split)

theorem logOk_onBlock (s : State) (tag : ℕ) (run : ℕ) (layer : ℕ) (block : ℕ) (f : Pitch → Run → Layer → Rule → CBlock → State) (h : LogOk s) (hf : ∀ a' b' c' d' e', LogOk (f a' b' c' d' e')) :
    LogOk (State.onBlock s tag run layer block f) := by
  unfold State.onBlock
  try dsimp only
  repeat' (first
    | with_reducible assumption
    | exact hf _ _ _ _ _
    | with_reducible refine logOk_elim _ ?_ (fun a => ?_)
    | split)

theorem logOk_bumpCounter (s : State) (tag : ℕ) (sig : ℕ) (hl : LogOk s) :
    LogOk (State.bumpCounter s tag sig) := by
  unfold State.bumpCounter
  try dsimp only
  repeat' (first
    | with_reducible assumption
    | with_reducible refine logOk_updPitch _ _ _ ?_
    | split)

theorem logOk_updRecord (s : State) (id : ℕ) (f : TestRecord → TestRecord) (hl : LogOk s) :
    LogOk (State.updRecord s id f) := hl

theorem logOk_openRecord (s : State) (target : ℕ) (origin : ℕ) (mask : ℕ) (dies : List ℕ) (req : Option ℕ) (hl : LogOk s) :
    LogOk (State.openRecord s target origin mask dies req) := by
  unfold State.openRecord
  try dsimp only
  repeat' (first
    | with_reducible assumption
    | with_reducible refine logOk_setTests _ _ ?_)

theorem logOk_closeRecord (s : State) (id : ℕ) (hl : LogOk s) :
    LogOk (State.closeRecord s id) := by
  unfold State.closeRecord
  try dsimp only
  repeat' (first
    | with_reducible assumption
    | with_reducible refine logOk_updRecord _ _ _ ?_
    | with_reducible refine logOk_outcome _ _ _ _ _ ?_
    | with_reducible refine logOk_respond _ _ _ _ ?_
    | with_reducible refine logOk_elim _ ?_ (fun a => ?_)
    | split)

theorem logOk_cancelMove (s : State) (p : Pitch) (hl : LogOk s) :
    LogOk (State.cancelMove s p) := by
  unfold State.cancelMove
  try dsimp only
  repeat' (first
    | with_reducible assumption
    | with_reducible refine logOk_updDie _ _ _ ?_
    | with_reducible refine logOk_updPitch _ _ _ ?_
    | with_reducible refine logOk_foldl (fun s a hs => ?_) _ _ ?_
    | split)

theorem logOk_failPitch (s : State) (tag : ℕ) (hl : LogOk s) :
    LogOk (State.failPitch s tag) := by
  unfold State.failPitch
  try dsimp only
  repeat' (first
    | with_reducible assumption
    | with_reducible refine logOk_updDie _ _ _ ?_
    | with_reducible refine logOk_cancelMove _ _ ?_
    | with_reducible refine logOk_updPitch _ _ _ ?_
    | with_reducible refine logOk_respond _ _ _ _ ?_
    | with_reducible refine logOk_foldl (fun s a hs => ?_) _ _ ?_
    | with_reducible refine logOk_elim _ ?_ (fun a => ?_)
    | with_reducible refine logOk_exMap ?_ (fun t ht => ?_)
    | split)

theorem logOk_testOver (s : State) (die : ℕ) (target : ℕ) (hl : LogOk s) :
    LogOk (State.testOver s die target) := by
  unfold State.testOver
  try dsimp only
  repeat' (first
    | with_reducible assumption
    | with_reducible refine logOk_dramNeed _ _ ?_
    | with_reducible refine logOk_updDie _ _ _ ?_
    | split)

theorem logOk_endMarch (s : State) (die : Nat) (abandoned : Bool) (hl : LogOk s) :
    LogOk (State.endMarch s die abandoned) := by
  unfold State.endMarch
  try dsimp only
  repeat' (first
    | with_reducible assumption
    | with_reducible refine logOk_updDie _ _ _ ?_
    | with_reducible refine logOk_updRecord _ _ _ ?_
    | with_reducible refine logOk_logEvent _ _ _ _ _ _ ?_
    | with_reducible refine logOk_closeRecord _ _ ?_
    | split)

theorem logOk_startOn (target : Nat) (origin : Nat) (repair : Bool) (id : Nat) (port : Nat) (s : State) (die : Nat) (hl : LogOk s) :
    LogOk (State.startOn target origin repair id port s die) := by
  unfold State.startOn
  try dsimp only
  repeat' (first
    | with_reducible assumption
    | with_reducible refine logOk_updDie _ _ _ ?_
    | with_reducible refine logOk_updRecord _ _ _ ?_
    | split)

theorem logOk_startTest (s : State) (target : Nat) (origin : Nat) (repair : Bool) (dies : List Nat) (req : Option Nat) (port : Nat) (hl : LogOk s) :
    LogOk (State.startTest s target origin repair dies req port) := by
  unfold State.startTest
  try dsimp only
  repeat' (first
    | with_reducible assumption
    | with_reducible refine logOk_openRecord _ _ _ _ _ _ ?_
    | with_reducible refine logOk_startOn _ _ _ _ _ _ _ ?_
    | with_reducible refine logOk_closeRecord _ _ ?_
    | with_reducible refine logOk_foldl (fun s a hs => ?_) _ _ ?_)

theorem logOk_logRepairs (s : State) (die : ℕ) (l : List (ℕ × Failure)) (hl : LogOk s) :
    LogOk (State.logRepairs s die l) := by
  unfold State.logRepairs
  try dsimp only
  repeat' (first
    | with_reducible assumption
    | with_reducible refine logOk_logEvent _ _ _ _ _ _ ?_
    | with_reducible refine logOk_foldl (fun s a hs => ?_) _ _ ?_)

theorem logOk_pairTested (s : State) (die : Nat) (passed : Bool) (repairable : Bool) (hl : LogOk s) :
    LogOk (State.pairTested s die passed repairable) := by
  unfold State.pairTested
  try dsimp only
  repeat' (first
    | with_reducible assumption
    | with_reducible refine logOk_draw _ ?_
    | with_reducible refine logOk_setRing _ _ ?_
    | with_reducible refine logOk_rehome _ ?_
    | with_reducible refine logOk_logNote _ _ _ _ _ _ _ ?_
    | split)

theorem logOk_dueTest (s : State) (die : Nat) (hl : LogOk s) :
    LogOk (State.dueTest s die) := by
  unfold State.dueTest
  try dsimp only
  repeat' (first
    | with_reducible assumption
    | with_reducible refine logOk_setRing _ _ ?_
    | with_reducible refine logOk_startTest _ _ _ _ _ _ _ ?_
    | with_reducible refine logOk_elim _ ?_ (fun a => ?_)
    | split)

theorem logOk_step3 (s : State) (hl : LogOk s) :
    LogOk (State.step3 s) := by
  unfold State.step3
  try dsimp only
  repeat' (first
    | with_reducible assumption
    | with_reducible refine logOk_setPower _ _ ?_
    | with_reducible refine logOk_setKpr _ _ ?_
    | with_reducible refine logOk_setEeprom _ _ ?_
    | with_reducible refine logOk_logEvent _ _ _ _ _ _ ?_)

theorem logOk_bindPort (s : State) (seq : ℕ) (port : ℕ) (mask : ℕ) (role : ℕ) (tag : ℕ) (hl : LogOk s) :
    LogOk (State.bindPort s seq port mask role tag) := by
  unfold State.bindPort
  try dsimp only
  repeat' (first
    | with_reducible assumption
    | with_reducible refine logOk_updPort _ _ _ ?_
    | with_reducible refine logOk_respond _ _ _ _ ?_
    | with_reducible refine logOk_getD ?_ ?_
    | split)

theorem logOk_bindBox (s : State) (seq : ℕ) (m : ℕ) (role : ℕ) (tag : ℕ) (hl : LogOk s) :
    LogOk (State.bindBox s seq m role tag) := by
  unfold State.bindBox
  try dsimp only
  repeat' (first
    | with_reducible assumption
    | with_reducible refine logOk_respond _ _ _ _ ?_
    | with_reducible refine logOk_updBox _ _ _ ?_
    | with_reducible refine logOk_elim _ ?_ (fun a => ?_)
    | split)

theorem logOk_carry (s : State) (p : Pitch) (seq : Nat) (command : Nat) (value : Nat) (hl : LogOk s) :
    LogOk (State.carry s p seq command value) := by
  unfold State.carry
  try dsimp only
  repeat' (first
    | with_reducible assumption
    | with_reducible refine logOk_sendMessage _ _ _ _ _ _ ?_
    | with_reducible refine logOk_foldl (fun s a hs => ?_) _ _ ?_)

theorem logOk_coordinated (s : State) (seq : ℕ) (p : Pitch) (body : Bytes) (done : State → State) (h : LogOk s) (hf : ∀ t : State, LogOk t → LogOk (done t)) :
    LogOk (State.coordinated s seq p body done) := by
  unfold State.coordinated
  try dsimp only
  repeat' (first
    | with_reducible assumption
    | with_reducible refine logOk_respond _ _ _ _ ?_
    | refine hf _ ?_
    | split)

theorem logOk_suspended (s : State) (p : Pitch) (hl : LogOk s) :
    LogOk (State.suspended s p) := by
  unfold State.suspended
  try dsimp only
  repeat' (first
    | with_reducible assumption
    | with_reducible refine logOk_updDie _ _ _ ?_
    | with_reducible refine logOk_updPitch _ _ _ ?_
    | with_reducible refine logOk_foldl (fun s a hs => ?_) _ _ ?_)

theorem logOk_onNamed (s : State) (seq : ℕ) (tag : ℕ) (f : Pitch → State) (h : LogOk s) (hf : ∀ a', LogOk (f a')) :
    LogOk (State.onNamed s seq tag f) := by
  unfold State.onNamed
  try dsimp only
  repeat' (first
    | with_reducible assumption
    | with_reducible refine logOk_respond _ _ _ _ ?_
    | exact hf _
    | split)

theorem logOk_resumed (s : State) (p : Pitch) (hl : LogOk s) :
    LogOk (State.resumed s p) := by
  unfold State.resumed
  try dsimp only
  repeat' (first
    | with_reducible assumption
    | with_reducible refine logOk_updPitch _ _ _ ?_
    | with_reducible refine logOk_updDie _ _ _ ?_
    | with_reducible refine logOk_expirePast _ _ ?_
    | with_reducible refine logOk_foldl (fun s a hs => ?_) _ _ ?_)

theorem logOk_suspendUndo (s : State) (seq : ℕ) (p : Pitch) (hl : LogOk s) :
    LogOk (State.suspendUndo s seq p) := by
  unfold State.suspendUndo
  try dsimp only
  repeat' (first
    | with_reducible assumption
    | with_reducible refine logOk_suspended _ _ ?_
    | with_reducible refine logOk_resumed _ _ ?_
    | with_reducible refine logOk_updPitch _ _ _ ?_
    | with_reducible refine logOk_carry _ _ _ _ _ ?_
    | with_reducible refine logOk_respond _ _ _ _ ?_
    | split)

theorem logOk_releaseLent (s : State) (p : Pitch) (hl : LogOk s) :
    LogOk (State.releaseLent s p) := by
  unfold State.releaseLent
  try dsimp only
  repeat' (first
    | with_reducible assumption
    | with_reducible refine logOk_sendMessage _ _ _ _ _ _ ?_
    | with_reducible refine logOk_updPitch _ _ _ ?_
    | with_reducible refine logOk_foldl (fun s a hs => ?_) _ _ ?_)

theorem logOk_unbindTag (s : State) (tag : ℕ) (hl : LogOk s) :
    LogOk (State.unbindTag s tag) := by
  unfold State.unbindTag
  try dsimp only
  repeat' (first
    | with_reducible assumption
    | with_reducible refine logOk_setPorts _ _ ?_
    | with_reducible refine logOk_setBoxes _ _ ?_)

theorem logOk_abortRequests (s : State) (p : Pitch) (hl : LogOk s) :
    LogOk (State.abortRequests s p) := by
  unfold State.abortRequests
  try dsimp only
  repeat' (first
    | with_reducible assumption
    | with_reducible refine logOk_respond _ _ _ _ ?_
    | with_reducible refine logOk_foldl (fun s a hs => ?_) _ _ ?_)

theorem logOk_signQuote (s : State) (seq : ℕ) (p : Option Pitch) (nonce : Bytes) (hl : LogOk s) :
    LogOk (State.signQuote s seq p nonce) := by
  unfold State.signQuote
  try dsimp only
  repeat' (first
    | with_reducible assumption
    | with_reducible refine logOk_setRing _ _ ?_
    | with_reducible refine logOk_draw _ ?_
    | with_reducible refine logOk_respond _ _ _ _ ?_)

theorem logOk_sendStatus (s : State) (f : Frame) (status : ℕ) (hl : LogOk s) :
    LogOk (State.sendStatus s f status) := by
  unfold State.sendStatus
  try dsimp only
  repeat' (first
    | with_reducible assumption
    | with_reducible refine logOk_toAdapter _ _ _ _ _ _ _ ?_)

theorem logOk_submitTo (s : State) (m : Nat) (x : Submission) (hl : LogOk s) :
    LogOk (State.submitTo s m x) := by
  unfold State.submitTo
  try dsimp only
  repeat' (first
    | with_reducible assumption
    | with_reducible refine logOk_updBox _ _ _ ?_
    | with_reducible refine logOk_setRing _ _ ?_)

theorem logOk_refuseRequest (s : State) (m : ℕ) (x : Submission) (status : ℕ) (hl : LogOk s) :
    LogOk (State.refuseRequest s m x status) := by
  unfold State.refuseRequest
  try dsimp only
  repeat' (first
    | with_reducible assumption
    | with_reducible refine logOk_deliver _ _ _ _ _ _ _ _ _ ?_)

theorem logOk_turnAway (s : State) (m : ℕ) (x : Submission) (hl : LogOk s) :
    LogOk (State.turnAway s m x) := by
  unfold State.turnAway
  try dsimp only
  repeat' (first
    | with_reducible assumption
    | with_reducible refine logOk_refuseRequest _ _ _ _ ?_
    | with_reducible refine logOk_logFact _ _ _ _ _ _ _ ?_)

theorem logOk_segment (s : State) (m : ℕ) (f : Frame) (w : MsgWord) (hl : LogOk s) :
    LogOk (State.segment s m f w) := by
  unfold State.segment
  try dsimp only
  repeat' (first
    | with_reducible assumption
    | with_reducible refine logOk_turnAway _ _ _ ?_
    | with_reducible refine logOk_submitTo _ _ _ ?_
    | with_reducible refine logOk_updBox _ _ _ ?_
    | with_reducible refine logOk_sendStatus _ _ _ ?_
    | with_reducible refine logOk_message _ _ ?_
    | with_reducible refine logOk_draw _ ?_
    | with_reducible refine logOk_getD ?_ ?_
    | split)

theorem logOk_mailboxFrame (s : State) (f : Frame) (hl : LogOk s) :
    LogOk (State.mailboxFrame s f) := by
  unfold State.mailboxFrame
  try dsimp only
  repeat' (first
    | with_reducible assumption
    | with_reducible refine logOk_segment _ _ _ _ ?_
    | with_reducible refine logOk_sendStatus _ _ _ ?_
    | split)

theorem logOk_takeMessage (s : State) (f : Frame) (w : MsgWord) (hl : LogOk s) :
    LogOk (State.takeMessage s f w) := by
  unfold State.takeMessage
  try dsimp only
  repeat' (first
    | with_reducible assumption
    | with_reducible refine logOk_setRing _ _ ?_
    | split)

theorem logOk_takeAnswer (s : State) (f : Frame) (w : MsgWord) (hl : LogOk s) :
    LogOk (State.takeAnswer s f w) := by
  unfold State.takeAnswer
  try dsimp only
  repeat' (first
    | with_reducible assumption
    | with_reducible refine logOk_setPitches _ _ ?_)

theorem logOk_message (s : State) (f : Frame) (hl : LogOk s) :
    LogOk (s.message f) := by
  unfold State.message
  try dsimp only
  repeat' (first
    | with_reducible assumption
    | with_reducible refine logOk_takeMessage _ _ _ ?_
    | with_reducible refine logOk_takeAnswer _ _ _ ?_
    | split)

theorem logOk_accept (s : State) (m : ℕ) (x : Submission) (hl : LogOk s) :
    LogOk (State.accept s m x) := by
  unfold State.accept
  try dsimp only
  repeat' (first
    | with_reducible assumption
    | with_reducible refine logOk_setRing _ _ ?_
    | with_reducible refine logOk_updBox _ _ _ ?_)

theorem logOk_duplicate (s : State) (m : ℕ) (x : Submission) (e : WinEntry) (hl : LogOk s) :
    LogOk (State.duplicate s m x e) := by
  unfold State.duplicate
  try dsimp only
  repeat' (first
    | with_reducible assumption
    | with_reducible refine logOk_deliver _ _ _ _ _ _ _ _ _ ?_
    | with_reducible refine logOk_updBox _ _ _ ?_
    | with_reducible refine logOk_exMap ?_ (fun t ht => ?_)
    | split)

theorem logOk_queueFull (s : State) (m : ℕ) (x : Submission) (hl : LogOk s) :
    LogOk (State.queueFull s m x) := by
  unfold State.queueFull
  try dsimp only
  repeat' (first
    | with_reducible assumption
    | with_reducible refine logOk_updBox _ _ _ ?_
    | with_reducible refine logOk_refuseRequest _ _ _ _ ?_
    | split)

theorem logOk_meetChecks (s : State) (m : ℕ) (x : Submission) (hl : LogOk s) :
    LogOk (State.meetChecks s m x) := by
  unfold State.meetChecks
  try dsimp only
  repeat' (first
    | with_reducible assumption
    | with_reducible refine logOk_turnAway _ _ _ ?_
    | with_reducible refine logOk_duplicate _ _ _ _ ?_
    | with_reducible refine logOk_queueFull _ _ _ ?_
    | with_reducible refine logOk_refuseRequest _ _ _ _ ?_
    | with_reducible refine logOk_accept _ _ _ ?_
    | split)

theorem logOk_submitBox (s : State) (m : ℕ) (hl : LogOk s) :
    LogOk (State.submitBox s m) := by
  unfold State.submitBox
  try dsimp only
  repeat' (first
    | with_reducible assumption
    | with_reducible refine logOk_updBox _ _ _ ?_
    | with_reducible refine logOk_setRing _ _ ?_
    | with_reducible refine logOk_meetChecks _ _ _ ?_
    | split)

theorem logOk_releaseHeld (s : State) (hl : LogOk s) :
    LogOk (State.releaseHeld s) := by
  unfold State.releaseHeld
  try dsimp only
  repeat' (first
    | with_reducible assumption
    | with_reducible refine logOk_submitBox _ _ ?_
    | with_reducible refine logOk_setRing _ _ ?_
    | with_reducible refine logOk_foldl (fun s a hs => ?_) _ _ ?_)

theorem logOk_boothCause (s : State) (c : ℕ) (hl : LogOk s) :
    LogOk (State.boothCause s c) := by
  unfold State.boothCause
  try dsimp only
  repeat' (first
    | with_reducible assumption
    | with_reducible refine logOk_setPitches _ _ ?_)

theorem logOk_completeHandover (s : State) (h : Handover) (fault : Bool) (hl : LogOk s) :
    LogOk (State.completeHandover s h fault) := by
  unfold State.completeHandover
  try dsimp only
  repeat' (first
    | with_reducible assumption
    | with_reducible refine logOk_setFw _ _ ?_
    | with_reducible refine logOk_control _ _ _ ?_
    | with_reducible refine logOk_setRing _ _ ?_
    | with_reducible refine logOk_draw _ ?_
    | with_reducible refine logOk_respond _ _ _ _ ?_)

theorem logOk_servicesMove (s : State) (hl : LogOk s) :
    LogOk (State.servicesMove s) := by
  unfold State.servicesMove
  try dsimp only
  repeat' (first
    | with_reducible assumption
    | with_reducible refine logOk_boothCause _ _ ?_
    | with_reducible refine logOk_rehome _ ?_)

theorem logOk_portDown (s : State) (port : ℕ) (hl : LogOk s) :
    LogOk (State.portDown s port) := by
  unfold State.portDown
  try dsimp only
  repeat' (first
    | with_reducible assumption
    | with_reducible refine logOk_updPort _ _ _ ?_
    | with_reducible refine logOk_logNote _ _ _ _ _ _ _ ?_)

theorem logOk_sendHello (s : State) (port : Nat) (hl : LogOk s) :
    LogOk (State.sendHello s port) := by
  unfold State.sendHello
  try dsimp only
  repeat' (first
    | with_reducible assumption
    | with_reducible refine logOk_send _ _ ?_
    | with_reducible refine logOk_updPort _ _ _ ?_)

theorem logOk_sendHellos (s : State) (ok : Port → Bool) (hl : LogOk s) :
    LogOk (s.sendHellos ok) := by
  unfold State.sendHellos
  try dsimp only
  repeat' (first
    | with_reducible assumption
    | with_reducible refine logOk_sendHello _ _ ?_
    | with_reducible refine logOk_foldl (fun s a hs => ?_) _ _ ?_
    | split)

theorem logOk_checkPeer (s : State) (port : ℕ) (hl : LogOk s) :
    LogOk (State.checkPeer s port) := by
  unfold State.checkPeer
  try dsimp only
  repeat' (first
    | with_reducible assumption
    | with_reducible refine logOk_updPort _ _ _ ?_
    | with_reducible refine logOk_logNote _ _ _ _ _ _ _ ?_
    | with_reducible refine logOk_flushHost _ _ ?_
    | split)

theorem logOk_takeAck (s : State) (port : Nat) (a : Nat) (hl : LogOk s) :
    LogOk (State.takeAck s port a) := by
  unfold State.takeAck
  try dsimp only
  repeat' (first
    | with_reducible assumption
    | with_reducible refine logOk_updPort _ _ _ ?_
    | with_reducible refine logOk_flushHost _ _ ?_
    | split)

theorem logOk_takeBack (s : State) (port : Nat) (hl : LogOk s) :
    LogOk (State.takeBack s port) := by
  unfold State.takeBack
  try dsimp only
  repeat' (first
    | with_reducible assumption
    | with_reducible refine logOk_updPort _ _ _ ?_
    | with_reducible refine logOk_updDie _ _ _ ?_
    | with_reducible refine logOk_exMap ?_ (fun t ht => ?_)
    | split)

theorem logOk_swapSpare (s : State) (port : ℕ) (lane : ℕ) (hl : LogOk s) :
    LogOk (State.swapSpare s port lane) := by
  unfold State.swapSpare
  try dsimp only
  repeat' (first
    | with_reducible assumption
    | with_reducible refine logOk_updPort _ _ _ ?_
    | with_reducible refine logOk_control _ _ _ ?_)

theorem logOk_failLane (s : State) (port lane : ℕ) (hl : LogOk s) :
    LogOk (State.failLane s port lane) := by
  unfold State.failLane
  try dsimp only
  repeat' (first
    | with_reducible assumption
    | with_reducible refine logOk_updPort _ _ _ ?_
    | with_reducible refine logOk_portDown _ _ ?_
    | with_reducible refine logOk_swapSpare _ _ _ ?_
    | split)

theorem logOk_resend (s : State) (port : ℕ) (n : ℕ) (hl : LogOk s) :
    LogOk (State.resend s port n) := by
  unfold State.resend
  try dsimp only
  repeat' (first
    | with_reducible assumption
    | with_reducible refine logOk_updPort _ _ _ ?_
    | with_reducible refine logOk_onLink _ _ _ ?_
    | with_reducible refine logOk_foldl (fun s a hs => ?_) _ _ ?_)

theorem logOk_freeCredits (s : State) (w : Waiting) (hl : LogOk s) :
    LogOk (State.freeCredits s w) := by
  unfold State.freeCredits
  try dsimp only
  repeat' (first
    | with_reducible assumption
    | with_reducible refine logOk_updPort _ _ _ ?_
    | with_reducible refine logOk_elim _ ?_ (fun a => ?_))

theorem logOk_hostDone (s : State) (t : Txn) (status : ℕ) (data : Bytes) (hl : LogOk s) :
    LogOk (State.hostDone s t status data) := by
  unfold State.hostDone
  try dsimp only
  repeat' (first
    | with_reducible assumption
    | with_reducible refine logOk_updPort _ _ _ ?_
    | with_reducible refine logOk_sendHost _ _ _ _ ?_
    | with_reducible refine logOk_exMap ?_ (fun t ht => ?_)
    | split)

theorem logOk_lenderHeard (s : State) (f : Frame) (lost : Bool) (hl : LogOk s) :
    LogOk (State.lenderHeard s f lost) := by
  unfold State.lenderHeard
  try dsimp only
  repeat' (first
    | with_reducible assumption
    | with_reducible refine logOk_updPitch _ _ _ ?_)

theorem logOk_respondFrame (s : State) (die : ℕ) (g : Frame) (hl : LogOk s) :
    LogOk (State.respondFrame s die g) := by
  unfold State.respondFrame
  try dsimp only
  repeat' (first
    | with_reducible assumption
    | with_reducible refine logOk_toRouter _ _ _ ?_)

theorem logOk_rejectFrame (s : State) (die : ℕ) (f : Frame) (inPort : Option ℕ) (hl : LogOk s) :
    LogOk (State.rejectFrame s die f inPort) := by
  unfold State.rejectFrame
  try dsimp only
  repeat' (first
    | with_reducible assumption
    | with_reducible refine logOk_updDie _ _ _ ?_
    | with_reducible refine logOk_countDiscard _ _ ?_
    | with_reducible refine logOk_logNote _ _ _ _ _ _ _ ?_
    | with_reducible refine logOk_elim _ ?_ (fun a => ?_))

theorem logOk_noteContext (s : State) (die : Nat) (off : Nat) (n : Nat) (hl : LogOk s) :
    LogOk (State.noteContext s die off n) := by
  unfold State.noteContext
  try dsimp only
  repeat' (first
    | with_reducible assumption
    | with_reducible refine logOk_suspended _ _ ?_
    | with_reducible refine logOk_updPitch _ _ _ ?_
    | split)

theorem logOk_frameAtomic (s : State) (f : Frame) (hl : LogOk s) :
    LogOk (State.frameAtomic s f) := by
  unfold State.frameAtomic
  try dsimp only
  repeat' (first
    | with_reducible assumption
    | with_reducible refine logOk_updPitch _ _ _ ?_
    | split)

theorem logOk_noteOperator (s : State) (die : ℕ) (f : Frame) (e : ℕ) (hl : LogOk s) :
    LogOk (State.noteOperator s die f e) := by
  unfold State.noteOperator
  try dsimp only
  repeat' (first
    | with_reducible assumption
    | with_reducible refine logOk_logNote _ _ _ _ _ _ _ ?_
    | with_reducible refine logOk_elim _ ?_ (fun a => ?_)
    | split)

theorem logOk_egress (s : State) (die : Nat) (f : Frame) (hl : LogOk s) :
    LogOk (State.egress s die f).1 := by
  unfold State.egress
  try dsimp only
  repeat' (first
    | with_reducible assumption
    | with_reducible refine logOk_logNote _ _ _ _ _ _ _ ?_
    | with_reducible refine logOk_sendHost _ _ _ _ ?_
    | split)

theorem logOk_executeMessage (s : State) (f : Frame) (hl : LogOk s) :
    LogOk (State.executeMessage s f) := by
  unfold State.executeMessage
  try dsimp only
  repeat' (first
    | with_reducible assumption
    | with_reducible refine logOk_sendHost _ _ _ _ ?_
    | with_reducible refine logOk_message _ _ ?_
    | split)

theorem logOk_countKind (s : State) (f : Frame) (inPort : Option ℕ) (hl : LogOk s) :
    LogOk (State.countKind s f inPort) := by
  unfold State.countKind
  try dsimp only
  repeat' (first
    | with_reducible assumption
    | with_reducible refine logOk_setRing _ _ ?_
    | with_reducible refine logOk_countDiscard _ _ ?_
    | with_reducible refine logOk_elim _ ?_ (fun a => ?_)
    | split)

theorem logOk_serveRead (s : State) (die : Nat) (f : Frame) (hl : LogOk s) :
    LogOk (State.serveRead s die f) := by
  unfold State.serveRead
  try dsimp only
  repeat' (first
    | with_reducible assumption
    | with_reducible refine logOk_updDie _ _ _ ?_
    | with_reducible refine logOk_egress _ _ _ ?_
    | with_reducible refine logOk_respondFrame _ _ _ ?_
    | with_reducible refine logOk_noteOperator _ _ _ _ ?_
    | with_reducible refine ExLog.of_eq ?_ (by assumption)
    | split)

theorem logOk_serveMsg (s : State) (die : Nat) (f : Frame) (inPort : Option Nat) (hl : LogOk s) :
    LogOk (State.serveMsg s die f inPort) := by
  unfold State.serveMsg
  try dsimp only
  repeat' (first
    | with_reducible assumption
    | with_reducible refine logOk_updDie _ _ _ ?_
    | with_reducible refine logOk_mailboxFrame _ _ ?_
    | with_reducible refine logOk_countKind _ _ _ ?_
    | with_reducible refine logOk_respondFrame _ _ _ ?_)

theorem logOk_takeFrame (s : State) (die : ℕ) (index : ℕ) (w : Waiting) (hl : LogOk s) :
    LogOk (State.takeFrame s die index w) := by
  unfold State.takeFrame
  try dsimp only
  repeat' (first
    | with_reducible assumption
    | with_reducible refine logOk_updDie _ _ _ ?_
    | with_reducible refine logOk_freeCredits _ _ ?_)

theorem logOk_sendOn (s : State) (die : ℕ) (index : ℕ) (w : Waiting) (port : ℕ) (vc : ℕ) (hl : LogOk s) :
    LogOk (State.sendOn s die index w port vc) := by
  unfold State.sendOn
  try dsimp only
  repeat' (first
    | with_reducible assumption
    | with_reducible refine logOk_takeFrame _ _ _ _ ?_
    | with_reducible refine logOk_transmit _ _ _ _ ?_
    | with_reducible refine logOk_updDie _ _ _ ?_
    | with_reducible refine logOk_exMap ?_ (fun t ht => ?_)
    | split)

theorem logOk_haul (s : State) (die index : ℕ) (w : Waiting) (target : ℕ) (hl : LogOk s) :
    LogOk (State.haul s die index w target) := by
  unfold State.haul
  try dsimp only
  repeat' (first
    | with_reducible assumption
    | with_reducible refine logOk_takeFrame _ _ _ _ ?_
    | with_reducible refine logOk_toRouter _ _ _ ?_)

theorem logOk_launch (s : State) (port : Nat) (f : Frame) (hl : LogOk s) :
    LogOk (State.launch s port f) := by
  unfold State.launch
  try dsimp only
  repeat' (first
    | with_reducible assumption
    | with_reducible refine logOk_originate _ _ _ _ ?_
    | with_reducible refine logOk_updPort _ _ _ ?_
    | split)

theorem logOk_launchHead (s : State) (port : ℕ) (f : Frame) (hl : LogOk s) :
    LogOk (State.launchHead s port f) := by
  unfold State.launchHead
  try dsimp only
  repeat' (first
    | with_reducible assumption
    | with_reducible refine logOk_updPort _ _ _ ?_
    | with_reducible refine logOk_launch _ _ _ ?_)

theorem logOk_drainHeld (port : ℕ) (l : List HeldWrite) (s : State) (hl : LogOk s) :
    LogOk (State.drainHeld port l s) := by
  induction l generalizing s with
  | nil => exact hl
  | cons x l ih =>
    unfold State.drainHeld
    split
    · exact hl
    · exact ih _ (logOk_launchHead _ _ _ hl)

theorem logOk_ingress (s : State) (port : ℕ) (vc : ℕ) (f : Frame) (hl : LogOk s) :
    LogOk (State.ingress s port vc f) := by
  unfold State.ingress
  try dsimp only
  repeat' (first
    | with_reducible assumption
    | with_reducible refine logOk_countDiscard _ _ ?_
    | with_reducible refine logOk_updPort _ _ _ ?_
    | with_reducible refine logOk_meterHost _ _ _ ?_
    | with_reducible refine logOk_launch _ _ _ ?_
    | with_reducible refine logOk_getD ?_ ?_
    | split)

theorem logOk_sendNak (s : State) (port : ℕ) (hl : LogOk s) :
    LogOk (State.sendNak s port) := by
  unfold State.sendNak
  try dsimp only
  repeat' (first
    | with_reducible assumption
    | with_reducible refine logOk_updPort _ _ _ ?_
    | with_reducible refine logOk_control _ _ _ ?_
    | with_reducible refine logOk_elim _ ?_ (fun a => ?_)
    | split)

theorem logOk_acceptFrame (s : State) (port : ℕ) (f : Frame) (hl : LogOk s) :
    LogOk (State.acceptFrame s port f) := by
  unfold State.acceptFrame
  try dsimp only
  repeat' (first
    | with_reducible assumption
    | with_reducible refine logOk_updPort _ _ _ ?_
    | with_reducible refine logOk_ingress _ _ _ _ ?_
    | with_reducible refine logOk_freeCredits _ _ ?_
    | with_reducible refine logOk_countDiscard _ _ ?_
    | with_reducible refine logOk_toRouter _ _ _ ?_
    | with_reducible refine logOk_getD ?_ ?_
    | split)

theorem logOk_receive (s : State) (port : Nat) (f : Frame) (hl : LogOk s) :
    LogOk (State.receive s port f) := by
  unfold State.receive
  try dsimp only
  repeat' (first
    | with_reducible assumption
    | with_reducible refine logOk_takeAck _ _ _ ?_
    | with_reducible refine logOk_acceptFrame _ _ _ ?_
    | with_reducible refine logOk_tellCredits _ _ ?_
    | with_reducible refine logOk_sendNak _ _ ?_
    | split)

theorem logOk_setMode (s : State) (port : ℕ) (mode : ℕ) (hl : LogOk s) :
    LogOk (State.setMode s port mode) := by
  unfold State.setMode
  try dsimp only
  repeat' (first
    | with_reducible assumption
    | with_reducible refine logOk_portDown _ _ ?_
    | with_reducible refine logOk_updPort _ _ _ ?_
    | split)

theorem logOk_setPort (s : State) (b : Bytes) (port : ℕ) (hl : LogOk s) :
    LogOk (State.setPort s b port) := by
  unfold State.setPort
  try dsimp only
  repeat' (first
    | with_reducible assumption
    | with_reducible refine logOk_updPort _ _ _ ?_
    | with_reducible refine logOk_setMode _ _ _ ?_
    | with_reducible refine logOk_checkPeer _ _ ?_)

theorem logOk_changeSide (s : State) (port : ℕ) (hl : LogOk s) :
    LogOk (State.changeSide s port) := by
  unfold State.changeSide
  try dsimp only
  repeat' (first
    | with_reducible assumption
    | with_reducible refine logOk_portDown _ _ ?_
    | with_reducible refine logOk_updPort _ _ _ ?_
    | split)

theorem logOk_recover (s : State) (hl : LogOk s) :
    LogOk (State.recover s) := by
  unfold State.recover
  try dsimp only
  repeat' (first
    | with_reducible assumption
    | with_reducible refine logOk_setPorts _ _ ?_
    | with_reducible refine logOk_setKpr _ _ ?_
    | with_reducible refine logOk_logNote _ _ _ _ _ _ _ ?_)

theorem logOk_startImage (s : State) (b : Bytes) (i : Image) (hl : LogOk s) :
    LogOk (State.startImage s b i) := by
  unfold State.startImage
  try dsimp only
  repeat' (first
    | with_reducible assumption
    | with_reducible refine logOk_setFw _ _ ?_
    | with_reducible refine logOk_setRing _ _ ?_
    | with_reducible refine logOk_setKpr _ _ ?_
    | with_reducible refine logOk_draw _ ?_)

theorem logOk_stageDone (s : State) (seq : ℕ) (hl : LogOk s) :
    LogOk (State.stageDone s seq) := by
  unfold State.stageDone
  try dsimp only
  repeat' (first
    | with_reducible assumption
    | with_reducible refine logOk_draw _ ?_
    | with_reducible refine logOk_respond _ _ _ _ ?_)

theorem logOk_startRewrite (s : State) (b : Bytes) (raise : Bool) (hl : LogOk s) :
    LogOk (State.startRewrite s b raise) := by
  unfold State.startRewrite
  try dsimp only
  repeat' (first
    | with_reducible assumption
    | with_reducible refine logOk_setFw _ _ ?_)

theorem logOk_handoverStep (s : State) (h : Handover) (hl : LogOk s) :
    LogOk (State.handoverStep s h) := by
  unfold State.handoverStep
  try dsimp only
  repeat' (first
    | with_reducible assumption
    | with_reducible refine logOk_setFw _ _ ?_
    | with_reducible refine logOk_setRing _ _ ?_
    | with_reducible refine logOk_completeHandover _ _ _ ?_
    | with_reducible refine logOk_releaseHeld _ ?_
    | split)

theorem logOk_activateStaged (s : State) (seq : ℕ) (b : Bytes) (i : Image) (hl : LogOk s) :
    LogOk (State.activateStaged s seq b i) := by
  unfold State.activateStaged
  try dsimp only
  repeat' (first
    | with_reducible assumption
    | with_reducible refine logOk_respond _ _ _ _ ?_
    | with_reducible refine logOk_startRewrite _ _ _ ?_
    | with_reducible refine logOk_setFw _ _ ?_
    | with_reducible refine logOk_elim _ ?_ (fun a => ?_)
    | split)

theorem logOk_dropHandover (s : State) (h : Handover) (status : ℕ) (hl : LogOk s) :
    LogOk (State.dropHandover s h status) := by
  unfold State.dropHandover
  try dsimp only
  repeat' (first
    | with_reducible assumption
    | with_reducible refine logOk_setFw _ _ ?_
    | with_reducible refine logOk_releaseHeld _ ?_
    | with_reducible refine logOk_respond _ _ _ _ ?_)

theorem logOk_stripDone (s : State) (pl : Place) (key : ItemKey) (total : ℕ) (r : Raised) (hl : LogOk s) :
    LogOk (State.stripDone s pl key total r) := by
  unfold State.stripDone
  try dsimp only
  repeat' (first
    | with_reducible assumption
    | with_reducible refine logOk_updItem _ _ _ ?_
    | with_reducible refine logOk_leaveEngine _ _ _ ?_
    | with_reducible refine logOk_elim _ ?_ (fun a => ?_)
    | split)

theorem logOk_setVin (s : State) (mv : ℕ) (hl : LogOk s) :
    LogOk (State.setVin s mv) := by
  unfold State.setVin
  try dsimp only
  repeat' (first
    | with_reducible assumption
    | with_reducible refine logOk_setPower _ _ ?_)

theorem logOk_keeperStart (s : State) (hl : LogOk s) :
    LogOk (State.keeperStart s) := by
  unfold State.keeperStart
  try dsimp only
  repeat' (first
    | with_reducible assumption
    | with_reducible refine logOk_setEeprom _ _ ?_
    | with_reducible refine logOk_setKpr _ _ ?_
    | with_reducible refine logOk_step3 _ ?_
    | with_reducible refine logOk_logEvent _ _ _ _ _ _ ?_
    | with_reducible refine logOk_elim _ ?_ (fun a => ?_))

theorem logOk_railsOn (s : State) (hl : LogOk s) :
    LogOk (State.railsOn s) := by
  unfold State.railsOn
  try dsimp only
  repeat' (first
    | with_reducible assumption
    | with_reducible refine logOk_setDies _ _ ?_
    | with_reducible refine logOk_setPower _ _ ?_)

theorem logOk_divide (s : State) (on : Bool) (hl : LogOk s) :
    LogOk (State.divide s on) := by
  unfold State.divide
  try dsimp only
  repeat' (first
    | with_reducible assumption
    | with_reducible refine logOk_setDies _ _ ?_)

theorem logOk_stepsDown (s : State) (currentMa : ℕ) (hl : LogOk s) :
    LogOk (State.stepsDown s currentMa) := by
  unfold State.stepsDown
  try dsimp only
  repeat' (first
    | with_reducible assumption
    | with_reducible refine logOk_setDies _ _ ?_
    | with_reducible refine logOk_setPower _ _ ?_)

theorem logOk_stepsUp (s : State) (hl : LogOk s) :
    LogOk (State.stepsUp s) := by
  unfold State.stepsUp
  try dsimp only
  repeat' (first
    | with_reducible assumption
    | with_reducible refine logOk_setDies _ _ ?_
    | with_reducible refine logOk_setPower _ _ ?_)

theorem logOk_onDies (s : State) (seq : ℕ) (op : ℕ) (cap : Bool) (idle : Bool) (f : Bytes → List ℕ → State) (h : LogOk s) (hf : ∀ a' b', LogOk (f a' b')) :
    LogOk (State.onDies s seq op cap idle f) := by
  unfold State.onDies
  try dsimp only
  repeat' (first
    | with_reducible assumption
    | with_reducible refine logOk_onOperatorOp _ _ _ _ _ _ _ ?_ (fun z0 => ?_)
    | with_reducible refine logOk_respond _ _ _ _ ?_
    | exact hf _ _
    | split)

theorem logOk_diesDone (s : State) (seq : ℕ) (mask : ℕ) (hl : LogOk s) :
    LogOk (State.diesDone s seq mask) := by
  unfold State.diesDone
  try dsimp only
  repeat' (first
    | with_reducible assumption
    | with_reducible refine logOk_respond _ _ _ _ ?_)

theorem logOk_settleDies (s : State) (dies : ℕ) (drain : Bool) (hl : LogOk s) :
    LogOk (State.settleDies s dies drain) := by
  unfold State.settleDies
  try dsimp only
  repeat' (first
    | with_reducible assumption
    | with_reducible refine logOk_updDie _ _ _ ?_
    | with_reducible refine logOk_foldl (fun s a hs => ?_) _ _ ?_)

theorem logOk_placeSlots (s : State) (p : Pitch) (loads : List ℕ) (x : ℕ × List (ℕ × Acc)) (hl : LogOk s) :
    LogOk (State.placeSlots s p loads x) := by
  unfold State.placeSlots
  try dsimp only
  repeat' (first
    | with_reducible assumption
    | with_reducible refine logOk_updCluster _ _ _ ?_
    | with_reducible refine logOk_updPitch _ _ _ ?_
    | split)

theorem logOk_moveDone (s : State) (seq : ℕ) (hl : LogOk s) :
    LogOk (State.moveDone s seq) := by
  unfold State.moveDone
  try dsimp only
  repeat' (first
    | with_reducible assumption
    | with_reducible refine logOk_diesDone _ _ _ ?_
    | with_reducible refine logOk_elim _ ?_ (fun a => ?_)
    | split)

theorem logOk_startDrain (s : State) (dies : List ℕ) (hl : LogOk s) :
    LogOk (State.startDrain s dies) := by
  unfold State.startDrain
  try dsimp only
  repeat' (first
    | with_reducible assumption
    | with_reducible refine logOk_updDie _ _ _ ?_
    | with_reducible refine logOk_foldl (fun s a hs => ?_) _ _ ?_
    | split)

theorem logOk_exitKeeperOnly (s : State) (hl : LogOk s) :
    LogOk (State.exitKeeperOnly s) := by
  unfold State.exitKeeperOnly
  try dsimp only
  repeat' (first
    | with_reducible assumption
    | with_reducible refine logOk_setDies _ _ ?_
    | with_reducible refine logOk_setPorts _ _ ?_
    | with_reducible refine logOk_setRing _ _ ?_
    | with_reducible refine logOk_setBoxes _ _ ?_
    | with_reducible refine logOk_setFw _ _ ?_
    | with_reducible refine logOk_setPower _ _ ?_
    | with_reducible refine logOk_setKpr _ _ ?_)

theorem logOk_scrubFound (s : State) (die : ℕ) (off : ℕ) (hl : LogOk s) :
    LogOk (State.scrubFound s die off) := by
  unfold State.scrubFound
  try dsimp only
  repeat' (first
    | with_reducible assumption
    | with_reducible refine logOk_setBad _ _ ?_
    | with_reducible refine logOk_logNote _ _ _ _ _ _ _ ?_
    | with_reducible refine logOk_logFact _ _ _ _ _ _ _ ?_
    | split)

theorem logOk_scrubFoundAt (s : State) (die : Nat) (x : StorePlace) (hl : LogOk s) :
    LogOk (s.scrubFoundAt die x) := by
  unfold State.scrubFoundAt
  try dsimp only
  repeat' (first
    | with_reducible assumption
    | with_reducible refine logOk_scrubFound _ _ _ ?_
    | with_reducible refine logOk_logNote _ _ _ _ _ _ _ ?_
    | with_reducible refine logOk_getD ?_ ?_
    | split)

theorem logOk_recordRow (s : State) (die : ℕ) (kind : ℕ) (row : ℕ) (hl : LogOk s) :
    LogOk (State.recordRow s die kind row) := by
  unfold State.recordRow
  try dsimp only
  repeat' (first
    | with_reducible assumption
    | with_reducible refine logOk_openRecord _ _ _ _ _ _ ?_
    | with_reducible refine logOk_updRecord _ _ _ ?_
    | with_reducible refine logOk_draw _ ?_
    | with_reducible refine logOk_logRepairs _ _ _ ?_)

theorem logOk_beginMarch (s : State) (die : Nat) (hl : LogOk s) :
    LogOk (State.beginMarch s die) := by
  unfold State.beginMarch
  try dsimp only
  repeat' (first
    | with_reducible assumption
    | with_reducible refine logOk_openRecord _ _ _ _ _ _ ?_
    | with_reducible refine logOk_updDie _ _ _ ?_
    | split)

theorem logOk_marchPage (s : State) (die : Nat) (page : Nat) (fs : List Failure) (hl : LogOk s) :
    LogOk (State.marchPage s die page fs) := by
  unfold State.marchPage
  try dsimp only
  repeat' (first
    | with_reducible assumption
    | with_reducible refine logOk_updDie _ _ _ ?_
    | with_reducible refine logOk_updRecord _ _ _ ?_
    | with_reducible refine logOk_logEvent _ _ _ _ _ _ ?_
    | with_reducible refine logOk_exMap ?_ (fun t ht => ?_)
    | split)

theorem logOk_fuseEnd (s : State) (f : Fusing) (ds : List Nat) (status : Nat) (hl : LogOk s) :
    LogOk (State.fuseEnd s f ds status) := by
  unfold State.fuseEnd
  try dsimp only
  repeat' (first
    | with_reducible assumption
    | with_reducible refine logOk_logEvent _ _ _ _ _ _ ?_
    | with_reducible refine logOk_setTests _ _ ?_
    | with_reducible refine logOk_respond _ _ _ _ ?_
    | with_reducible refine logOk_foldl (fun s a hs => ?_) _ _ ?_
    | split)

theorem logOk_fuseNext (s : State) (f : Fusing) (ds : List Nat) (hl : LogOk s) :
    LogOk (State.fuseNext s f ds) := by
  unfold State.fuseNext
  try dsimp only
  repeat' (first
    | with_reducible assumption
    | with_reducible refine logOk_fuseEnd _ _ _ _ ?_
    | with_reducible refine logOk_updDie _ _ _ ?_
    | with_reducible refine logOk_setTests _ _ ?_
    | split)

theorem logOk_afterRead (s : State) (a : ℕ) (hl : LogOk s) :
    LogOk (State.afterRead s a) := by
  unfold State.afterRead
  try dsimp only
  repeat' (first
    | with_reducible assumption
    | with_reducible refine logOk_setKpr _ _ ?_)

theorem logOk_kprError (s : State) (ktag : ℕ) (addr : ℕ) (status : ℕ) (hl : LogOk s) :
    LogOk (State.kprError s ktag addr status) := by
  unfold State.kprError
  try dsimp only
  repeat' (first
    | with_reducible assumption
    | with_reducible refine logOk_send _ _ ?_)

theorem logOk_arrived (s : State) (hl : LogOk s) :
    LogOk (State.arrived s) := by
  unfold State.arrived
  try dsimp only
  repeat' (first
    | with_reducible assumption
    | with_reducible refine logOk_setKpr _ _ ?_)

theorem logOk_kprRead (s : State) (ktag : ℕ) (addr : ℕ) (hl : LogOk s) :
    LogOk (State.kprRead s ktag addr) := by
  unfold State.kprRead
  try dsimp only
  repeat' (first
    | with_reducible assumption
    | with_reducible refine logOk_arrived _ ?_
    | with_reducible refine logOk_kprError _ _ _ _ ?_
    | with_reducible refine logOk_afterRead _ _ ?_
    | with_reducible refine logOk_send _ _ ?_
    | split)

theorem logOk_writeReset (s : State) (d : BitVec 32) (hl : LogOk s) :
    LogOk (State.writeReset s d) := by
  unfold State.writeReset
  try dsimp only
  repeat' (first
    | with_reducible assumption
    | with_reducible refine logOk_setKpr _ _ ?_)

theorem logOk_ringDoorbell (s : State) (d : BitVec 32) (hl : LogOk s) :
    LogOk (State.ringDoorbell s d) := by
  unfold State.ringDoorbell
  try dsimp only
  repeat' (first
    | with_reducible assumption
    | with_reducible refine logOk_submitTo _ _ _ ?_
    | split)

theorem logOk_releaseRsp (s : State) (d : BitVec 32) (hl : LogOk s) :
    LogOk (State.releaseRsp s d) := by
  unfold State.releaseRsp
  try dsimp only
  repeat' (first
    | with_reducible assumption
    | with_reducible refine logOk_setMbx0 _ _ ?_
    | with_reducible refine logOk_updBox _ _ _ ?_
    | split)

theorem logOk_clearAlerts (s : State) (d : BitVec 32) (hl : LogOk s) :
    LogOk (State.clearAlerts s d) := hl

theorem logOk_clearCounters (s : State) (port : ℕ) (d : BitVec 32) (hl : LogOk s) :
    LogOk (State.clearCounters s port d) := by
  unfold State.clearCounters
  try dsimp only
  repeat' (first
    | with_reducible assumption
    | with_reducible refine logOk_updPort _ _ _ ?_
    | split)

theorem logOk_flagRow (s : State) (key : ItemKey) (bad : Bool) (hl : LogOk s) :
    LogOk (State.flagRow s key bad) := by
  unfold State.flagRow
  try dsimp only
  repeat' (first
    | with_reducible assumption
    | with_reducible refine logOk_updItem _ _ _ ?_)

theorem logOk_admitRequest (s : State) (p : Pitch) (m : Model) (x : Session) (b : Bytes) (toks : List ℕ) (c : Candidate) (rollout : Option ℕ) (hl : LogOk s) :
    LogOk (State.admitRequest s p m x b toks c rollout) := by
  unfold State.admitRequest
  try dsimp only
  repeat' (first
    | with_reducible assumption
    | with_reducible refine logOk_updModel _ _ _ _ ?_
    | with_reducible refine logOk_updSession _ _ _ _ _ ?_
    | with_reducible refine logOk_endRequest _ _ _ _ _ _ ?_
    | split)

theorem logOk_refuse (s : State) (seq : ℕ) (committed : ℕ) (hint : ℕ) (hl : LogOk s) :
    LogOk (State.refuse s seq committed hint) := by
  unfold State.refuse
  try dsimp only
  repeat' (first
    | with_reducible assumption
    | with_reducible refine logOk_respond _ _ _ _ ?_)

theorem logOk_joinStep (s : State) (tag : ℕ) (model : ℕ) (sid : ℕ) (n : ℕ) (decode : Bool) (step : ℕ) (hl : LogOk s) :
    LogOk (State.joinStep s tag model sid n decode step).1 := by
  unfold State.joinStep
  try dsimp only
  repeat' (first
    | with_reducible assumption
    | with_reducible refine logOk_updPitch _ _ _ ?_
    | with_reducible refine logOk_updModel _ _ _ _ ?_
    | with_reducible refine logOk_updSession _ _ _ _ _ ?_
    | with_reducible refine logOk_elim _ ?_ (fun a => ?_)
    | split)

theorem logOk_formDecode (tag model step : ℕ) (f : Forming) (sid : ℕ) (hl : LogOk f.s) :
    LogOk (formDecode tag model step f sid).s := by
  unfold formDecode
  try dsimp only
  repeat' (first
    | with_reducible assumption
    | with_reducible refine logOk_joinStep _ _ _ _ _ _ _ ?_
    | split)

theorem logOk_formPrefill (tag model step : ℕ) (f : Forming) (sid : ℕ) (hl : LogOk f.s) :
    LogOk (formPrefill tag model step f sid).s := by
  unfold formPrefill
  try dsimp only
  repeat' (first
    | with_reducible assumption
    | with_reducible refine logOk_updModel _ _ _ _ ?_
    | with_reducible refine logOk_endRequest _ _ _ _ _ _ ?_
    | with_reducible refine logOk_joinStep _ _ _ _ _ _ _ ?_
    | with_reducible refine logOk_elim _ ?_ (fun a => ?_)
    | split)

theorem logOk_recomputeKv (s : State) (tag : ℕ) (model : ℕ) (sid : ℕ) (hl : LogOk s) :
    LogOk (State.recomputeKv s tag model sid) := by
  unfold State.recomputeKv
  try dsimp only
  repeat' (first
    | with_reducible assumption
    | with_reducible refine logOk_updModel _ _ _ _ ?_)

theorem logOk_commitDraft (tag : Nat) (draft : Nat) (target : Nat) (epoch : Nat) (results : List StepResult) (s : State) (part : StepPart) (hl : LogOk s) :
    LogOk (commitDraft tag draft target epoch results s part) := by
  unfold commitDraft
  try dsimp only
  repeat' (first
    | with_reducible assumption
    | with_reducible refine logOk_updPitch _ _ _ ?_)

theorem logOk_planAnswer (s : State) (seq : ℕ) (tag : ℕ) (run : ℕ) (hl : LogOk s) :
    LogOk (State.planAnswer s seq tag run) := by
  unfold State.planAnswer
  try dsimp only
  repeat' (first
    | with_reducible assumption
    | with_reducible refine logOk_respond _ _ _ _ ?_
    | with_reducible refine logOk_exMap ?_ (fun t ht => ?_)
    | split)

theorem logOk_onTurnover (s : State) (tag : ℕ) (run : ℕ) (f : Pitch → Plan → Run → Model → State) (h : LogOk s) (hf : ∀ a' b' c' d', LogOk (f a' b' c' d')) :
    LogOk (State.onTurnover s tag run f) := by
  unfold State.onTurnover
  try dsimp only
  repeat' (first
    | with_reducible assumption
    | exact hf _ _ _ _
    | with_reducible refine logOk_elim _ ?_ (fun a => ?_)
    | split)

theorem logOk_withFetchWord (s : State) (nbits : Nat) (w : Nat) (hl : LogOk s) :
    LogOk (State.withFetchWord s nbits w) := by
  unfold State.withFetchWord
  split
  · exact hl
  · exact hl

theorem logOk_suspendAnswer (s : State) (seq : Nat) (p : Pitch) (hl : LogOk s) :
    LogOk (s.suspendAnswer seq p) := by
  unfold State.suspendAnswer
  try dsimp only
  repeat' (first
    | with_reducible assumption
    | with_reducible refine logOk_coordinated _ _ _ _ _ ?_ (fun z0 z1 => ?_)
    | with_reducible refine logOk_updPitch _ _ _ ?_)

theorem logOk_suspendRest (s : State) (seq : Nat) (p : Pitch) (hl : LogOk s) :
    LogOk (s.suspendRest seq p) := by
  unfold State.suspendRest
  try dsimp only
  repeat' (first
    | with_reducible assumption
    | with_reducible refine logOk_suspended _ _ ?_
    | with_reducible refine logOk_suspendAnswer _ _ _ ?_
    | split)

theorem logOk_suspendStep (s : State) (seq : Nat) (p : Pitch) (hl : LogOk s) :
    LogOk (s.suspendStep seq p) := by
  unfold State.suspendStep
  try dsimp only
  repeat' (first
    | with_reducible assumption
    | with_reducible refine logOk_suspended _ _ ?_
    | with_reducible refine logOk_suspendAnswer _ _ _ ?_
    | with_reducible refine logOk_updPitch _ _ _ ?_
    | with_reducible refine logOk_suspendRest _ _ _ ?_
    | split)

theorem logOk_writeUnits (s : State) (ks : List Nat) (cs : List Host.Cell) (h : LogOk s) :
    ExLog (State.writeUnits s ks cs) := by
  unfold State.writeUnits
  try dsimp only
  repeat' (first
    | with_reducible assumption
    | with_reducible refine logOk_setMem _ _ ?_
    | with_reducible refine logOk_setBad _ _ ?_
    | with_reducible refine logOk_markWritten _ _ ?_
    | with_reducible refine logOk_ok ?_
    | with_reducible exact logOk_error _
    | with_reducible refine logOk_foldl (fun s a hs => ?_) _ _ ?_
    | with_reducible refine logOk_foldl_fst (fun s a hs => ?_) _ _ ?_
    | with_reducible refine ExLog.of_eq ?_ (by assumption)
    | split)

theorem logOk_writeCells (s : State) (cs : List Host.Cell) (h : LogOk s) :
    ExLog (State.writeCells s cs) := by
  unfold State.writeCells
  try dsimp only
  repeat' (first
    | with_reducible assumption
    | with_reducible refine logOk_writeUnits _ _ _ ?_)

theorem logOk_pitchWrite (s : State) (tag a : ℕ) (bs : List (Option Byte)) (h : LogOk s) :
    ExLog (pitchWrite s tag a bs) := by
  unfold pitchWrite
  try dsimp only
  repeat' (first
    | with_reducible assumption
    | with_reducible refine logOk_writePage _ _ _ _ _ ?_
    | with_reducible refine logOk_writeUnits _ _ _ ?_
    | with_reducible refine logOk_updPitch _ _ _ ?_
    | with_reducible refine logOk_ok ?_
    | with_reducible exact logOk_error _
    | with_reducible refine logOk_elim _ ?_ (fun a => ?_)
    | with_reducible refine logOk_exMap ?_ (fun t ht => ?_)
    | with_reducible refine ExLog.of_eq ?_ (by assumption)
    | split)

theorem logOk_pitchWriteAll (s : State) (tag : ℕ) (a : ℕ) (b : Bytes) (h : LogOk s) :
    ExLog (pitchWriteAll s tag a b) := by
  unfold pitchWriteAll
  try dsimp only
  repeat' (first
    | with_reducible assumption
    | with_reducible refine logOk_pitchWrite _ _ _ _ ?_)

theorem logOk_tryWrite (s : State) (tag a : ℕ) (b : Bytes) (h : LogOk s) :
    LogOk (s.tryWrite tag a b) := by
  unfold State.tryWrite
  try dsimp only
  repeat' (first
    | with_reducible assumption
    | with_reducible refine logOk_pitchWriteAll _ _ _ _ ?_
    | with_reducible refine logOk_getD ?_ ?_)

theorem logOk_clearSram (s : State) (die : ℕ) (cluster : ℕ) (h : LogOk s) :
    LogOk (State.clearSram s die cluster) := by
  unfold State.clearSram
  try dsimp only
  repeat' (first
    | with_reducible assumption
    | with_reducible refine logOk_setMem _ _ ?_
    | with_reducible refine logOk_setBad _ _ ?_)

theorem logOk_clearDram (s : State) (die : ℕ) (off : ℕ) (n : ℕ) (h : LogOk s) :
    LogOk (State.clearDram s die off n) := by
  unfold State.clearDram
  try dsimp only
  repeat' (first
    | with_reducible assumption
    | with_reducible refine logOk_setMem _ _ ?_
    | with_reducible refine logOk_setBad _ _ ?_)

theorem logOk_unmarch (s : State) (die : ℕ) (h : LogOk s) :
    LogOk (State.unmarch s die) := by
  unfold State.unmarch
  try dsimp only
  repeat' (first
    | with_reducible assumption
    | with_reducible refine logOk_clearDram _ _ _ _ ?_
    | with_reducible refine logOk_updDie _ _ _ ?_)

theorem logOk_writeStrip (s : State) (tag : ℕ) (t : TDesc) (v : List ℤ) (cs : List (ℕ × ℕ)) (scale : ℤ) (h : LogOk s) :
    ExLog (writeStrip s tag t v cs scale) := by
  unfold writeStrip
  try dsimp only
  repeat' (first
    | with_reducible assumption
    | with_reducible refine logOk_pitchWrite _ _ _ _ ?_
    | with_reducible refine logOk_pitchWriteAll _ _ _ _ ?_
    | with_reducible refine logOk_ok ?_
    | with_reducible exact logOk_error _
    | with_reducible refine logOk_elim _ ?_ (fun a => ?_)
    | with_reducible refine ExLog.of_eq ?_ (by assumption)
    | split)

theorem logOk_writeRecord (s : State) (tag : ℕ) (t : TDesc) (v : List ℤ) (lanes elems : List ℕ) (mid : Bytes) (flags : List (List Bool)) (h : LogOk s) :
    ExLog (writeRecord s tag t v lanes elems mid flags) := by
  unfold writeRecord
  try dsimp only
  repeat' (first
    | with_reducible assumption
    | with_reducible refine logOk_pitchWrite _ _ _ _ ?_
    | with_reducible refine logOk_ok ?_
    | with_reducible exact logOk_error _
    | with_reducible refine logOk_foldl (fun s a hs => ?_) _ _ ?_
    | with_reducible refine logOk_foldl_fst (fun s a hs => ?_) _ _ ?_
    | with_reducible refine logOk_elim _ ?_ (fun a => ?_)
    | with_reducible refine logOk_getD ?_ ?_
    | with_reducible refine logOk_exMap ?_ (fun t ht => ?_)
    | split)

theorem logOk_writeAccRecord (s : State) (tag : ℕ) (t : TDesc) (v : List ℤ) (lanes : List ℕ) (accs : List Acc) (h : LogOk s) :
    ExLog (writeAccRecord s tag t v lanes accs) := by
  unfold writeAccRecord
  try dsimp only
  repeat' (first
    | with_reducible assumption
    | with_reducible refine logOk_writeRecord _ _ _ _ _ _ _ _ ?_)

theorem logOk_writeAnchored (s : State) (tag : ℕ) (t : TDesc) (v : List ℤ) (q : List ℤ) (anchor : ℤ) (mask : List Bool) (h : LogOk s) :
    ExLog (writeAnchored s tag t v q anchor mask) := by
  unfold writeAnchored
  try dsimp only
  repeat' (first
    | with_reducible assumption
    | with_reducible refine logOk_writeRecord _ _ _ _ _ _ _ _ ?_)

theorem logOk_undefineLanes (s : State) (tag : Nat) (t : TDesc) (pick : List Int → List Nat) (h : LogOk s) :
    LogOk (undefineLanes s tag t pick) := by
  unfold undefineLanes
  try dsimp only
  repeat' (first
    | with_reducible assumption
    | with_reducible refine logOk_writeRecord _ _ _ _ _ _ _ _ ?_
    | with_reducible refine logOk_writeStrip _ _ _ _ _ _ ?_
    | with_reducible refine logOk_draw _ ?_
    | with_reducible refine logOk_foldl (fun s a hs => ?_) _ _ ?_
    | with_reducible refine logOk_foldl_fst (fun s a hs => ?_) _ _ ?_
    | with_reducible refine logOk_getD ?_ ?_
    | with_reducible refine logOk_exMap ?_ (fun t ht => ?_)
    | with_reducible refine ExLog.of_eq ?_ (by assumption)
    | split)

theorem logOk_undefineTensor (s : State) (tag : Nat) (t : TDesc) (lo : Nat) (hi : Nat) (h : LogOk s) :
    LogOk (undefineTensor s tag t lo hi) := by
  unfold undefineTensor
  try dsimp only
  repeat' (first
    | with_reducible assumption
    | with_reducible refine logOk_undefineLanes _ _ _ _ ?_)

theorem logOk_writeOut (s : State) (tag : ℕ) (t : TDesc) (v : List ℤ) (o : StripOut) (h : LogOk s) :
    ExLog (writeOut s tag t v o) := by
  unfold writeOut
  try dsimp only
  repeat' (first
    | with_reducible assumption
    | with_reducible refine logOk_writeStrip _ _ _ _ _ _ ?_)

theorem logOk_collWriteStrip (c : Coll) (tag : ℕ) (acc : State × ℕ) (x : List ℤ × ℕ) (h : LogOk acc.1) {r : State × ℕ}
    (e : c.writeStrip tag acc x = .ok r) : LogOk r.1 := by
  unfold Coll.writeStrip at e
  simp only [Except.map] at e
  split at e
  · split at e
    · exact absurd e (by simp)
    · rename_i e1
      obtain rfl := Except.ok.inj e
      exact (logOk_writeAnchored _ _ _ _ _ _ _ h).of_eq e1
  · split at e
    · exact absurd e (by simp)
    · rename_i e1
      obtain rfl := Except.ok.inj e
      exact (logOk_writeOut _ _ _ _ _ h).of_eq e1

theorem logOk_notify (s : State) (k : ItemKey) (addr : ℕ) (h : LogOk s) :
    LogOk (s.notify k addr) := by
  unfold State.notify
  try dsimp only
  repeat' (first
    | with_reducible assumption
    | with_reducible refine logOk_pitchWriteAll _ _ _ _ ?_
    | with_reducible refine logOk_logFact _ _ _ _ _ _ _ ?_
    | with_reducible refine ExLog.of_eq ?_ (by assumption)
    | split)

theorem logOk_undefineBytes (s : State) (tag : ℕ) (lo : ℕ) (hi : ℕ) (h : LogOk s) :
    LogOk (State.undefineBytes s tag lo hi) := by
  unfold State.undefineBytes
  try dsimp only
  repeat' (first
    | with_reducible assumption
    | with_reducible refine logOk_tryWrite _ _ _ _ ?_
    | with_reducible refine logOk_draw _ ?_
    | with_reducible refine logOk_exMap ?_ (fun t ht => ?_)
    | split)

theorem logOk_spoilGuarded (s : State) (tag : Nat) (queue : Option Nat) (lo : Nat) (hi : Nat) (h : LogOk s) :
    LogOk (State.spoilGuarded s tag queue lo hi) := by
  unfold State.spoilGuarded
  try dsimp only
  repeat' (first
    | with_reducible assumption
    | with_reducible refine logOk_undefineBytes _ _ _ _ ?_
    | with_reducible refine logOk_foldl (fun s a hs => ?_) _ _ ?_
    | with_reducible refine logOk_foldl_fst (fun s a hs => ?_) _ _ ?_
    | with_reducible refine logOk_elim _ ?_ (fun a => ?_)
    | split)

theorem logOk_spoilAddrs (s : State) (tag : Nat) (queue : Option Nat) (as : List Nat) (h : LogOk s) :
    LogOk (State.spoilAddrs s tag queue as) := by
  unfold State.spoilAddrs
  try dsimp only
  repeat' (first
    | with_reducible assumption
    | with_reducible refine logOk_undefineBytes _ _ _ _ ?_
    | with_reducible refine logOk_foldl (fun s a hs => ?_) _ _ ?_)

theorem logOk_failItem (s : State) (k : ItemKey) (status : ℕ) (h : LogOk s) :
    LogOk (State.failItem s k status) := by
  unfold State.failItem
  try dsimp only
  repeat' (first
    | with_reducible assumption
    | with_reducible refine logOk_undefineTensor _ _ _ _ _ ?_
    | with_reducible refine logOk_undefineBytes _ _ _ _ ?_
    | with_reducible refine logOk_undefineSlots _ _ _ ?_
    | with_reducible refine logOk_leaveEngine _ _ _ ?_
    | with_reducible refine logOk_updItem _ _ _ ?_
    | split)

theorem logOk_spoilItem (s : State) (k : ItemKey) (i : Item) (h : LogOk s) :
    LogOk (State.spoilItem s k i) := by
  unfold State.spoilItem
  try dsimp only
  repeat' (first
    | with_reducible assumption
    | with_reducible refine logOk_spoilAddrs _ _ _ _ ?_)

theorem logOk_failMemory (s : State) (k : ItemKey) (status : Nat) (h : LogOk s) :
    LogOk (State.failMemory s k status) := by
  unfold State.failMemory
  try dsimp only
  repeat' (first
    | with_reducible assumption
    | with_reducible refine logOk_logBadRead _ _ _ ?_
    | with_reducible refine logOk_failItem _ _ _ ?_
    | split)

theorem logOk_settleRaces (s : State) (p : Pitch) (i : Item) (h : LogOk s) :
    LogOk (State.settleRaces s p i) := by
  unfold State.settleRaces
  try dsimp only
  repeat' (first
    | with_reducible assumption
    | with_reducible refine logOk_control _ _ _ ?_
    | with_reducible refine logOk_undefineLanes _ _ _ _ ?_
    | with_reducible refine logOk_undefineTensor _ _ _ _ _ ?_
    | with_reducible refine logOk_undefineBytes _ _ _ _ ?_
    | with_reducible refine logOk_loseSlots _ _ _ _ ?_
    | with_reducible refine logOk_foldl (fun s a hs => ?_) _ _ ?_
    | with_reducible refine logOk_foldl_fst (fun s a hs => ?_) _ _ ?_
    | split)

theorem logOk_completeItem (s : State) (k : ItemKey) (h : LogOk s) :
    LogOk (State.completeItem s k) := by
  unfold State.completeItem
  try dsimp only
  repeat' (first
    | with_reducible assumption
    | with_reducible refine logOk_endRegion _ _ _ ?_
    | with_reducible refine logOk_settleRaces _ _ _ ?_
    | with_reducible refine logOk_spoilItem _ _ _ ?_
    | with_reducible refine logOk_tryWrite _ _ _ _ ?_
    | with_reducible refine logOk_updPitch _ _ _ ?_
    | with_reducible refine logOk_updQueue _ _ _ _ ?_
    | with_reducible refine logOk_notify _ _ _ ?_
    | split)

theorem logOk_completeWith (s : State) (k : ItemKey) (status : ℕ) (h : LogOk s) :
    LogOk (State.completeWith s k status) := by
  unfold State.completeWith
  try dsimp only
  repeat' (first
    | with_reducible assumption
    | with_reducible refine logOk_updItem _ _ _ ?_
    | with_reducible refine logOk_completeItem _ _ ?_)

theorem logOk_abortRoot (s : State) (tag : Nat) (control : Nat) (dest : Bytes) (h : LogOk s) :
    LogOk (State.abortRoot s tag control dest) := by
  unfold State.abortRoot
  try dsimp only
  repeat' (first
    | with_reducible assumption
    | with_reducible refine logOk_control _ _ _ ?_
    | with_reducible refine logOk_undefineTensor _ _ _ _ _ ?_
    | with_reducible refine logOk_spoilAddrs _ _ _ _ ?_
    | with_reducible refine logOk_updPitch _ _ _ ?_
    | with_reducible refine logOk_exMap ?_ (fun t ht => ?_)
    | split)

theorem logOk_abortRest (s : State) (tag ident control : ℕ) (dest : Bytes) (ended : List ℕ) (h : LogOk s) :
    LogOk (State.abortRest s tag ident control dest ended) := by
  unfold State.abortRest
  try dsimp only
  repeat' (first
    | with_reducible assumption
    | with_reducible refine logOk_control _ _ _ ?_
    | with_reducible refine logOk_updItem _ _ _ ?_
    | with_reducible refine logOk_abortRoot _ _ _ _ ?_
    | with_reducible refine logOk_updPitch _ _ _ ?_
    | with_reducible refine logOk_foldl (fun s a hs => ?_) _ _ ?_
    | split)

theorem logOk_abortColl (s : State) (tag : Nat) (ident : Nat) (ended : List Nat) (h : LogOk s) :
    LogOk (State.abortColl s tag ident ended) := by
  unfold State.abortColl
  try dsimp only
  repeat' (first
    | with_reducible assumption
    | with_reducible refine logOk_tellDown _ _ _ _ ?_
    | with_reducible refine logOk_updItem _ _ _ ?_
    | with_reducible refine logOk_control _ _ _ ?_
    | with_reducible refine logOk_updPitch _ _ _ ?_
    | with_reducible refine logOk_abortRest _ _ _ _ _ _ ?_
    | with_reducible refine logOk_foldl (fun s a hs => ?_) _ _ ?_
    | with_reducible refine logOk_exMap ?_ (fun t ht => ?_)
    | split)

theorem logOk_abortWhole (s : State) (k : ItemKey) (i : Item) (h : LogOk s) :
    LogOk (State.abortWhole s k i) := by
  unfold State.abortWhole
  try dsimp only
  repeat' (first
    | with_reducible assumption
    | with_reducible refine logOk_updPitch _ _ _ ?_
    | with_reducible refine logOk_updItem _ _ _ ?_
    | with_reducible refine logOk_abortColl _ _ _ _ ?_
    | with_reducible refine logOk_control _ _ _ ?_
    | with_reducible refine logOk_abortRest _ _ _ _ _ _ ?_
    | split)

theorem logOk_abortResult (s : State) (k : ItemKey) (i : Item) (h : LogOk s) :
    LogOk (State.abortResult s k i) := by
  unfold State.abortResult
  try dsimp only
  repeat' (first
    | with_reducible assumption
    | with_reducible refine logOk_control _ _ _ ?_
    | with_reducible refine logOk_updPitch _ _ _ ?_
    | with_reducible refine logOk_abortRoot _ _ _ _ ?_)

theorem logOk_abortNow (s : State) (k : ItemKey) (h : LogOk s) :
    LogOk (State.abortNow s k) := by
  unfold State.abortNow
  try dsimp only
  repeat' (first
    | with_reducible assumption
    | with_reducible refine logOk_updItem _ _ _ ?_
    | with_reducible refine logOk_abortWhole _ _ _ ?_
    | with_reducible refine logOk_completeItem _ _ ?_
    | with_reducible refine logOk_completeWith _ _ _ ?_
    | split)

theorem logOk_abortItem (s : State) (k : ItemKey) (h : LogOk s) :
    LogOk (State.abortItem s k) := by
  unfold State.abortItem
  try dsimp only
  repeat' (first
    | with_reducible assumption
    | with_reducible refine logOk_abortNow _ _ ?_
    | with_reducible refine logOk_updItem _ _ _ ?_
    | with_reducible refine logOk_abortColl _ _ _ _ ?_
    | with_reducible refine logOk_abortResult _ _ _ ?_
    | with_reducible refine logOk_failItem _ _ _ ?_
    | split)

theorem logOk_abortConsumed (s : State) (tag : ℕ) (queue : ℕ) (lo : ℕ) (hi : ℕ) (h : LogOk s) :
    LogOk (State.abortConsumed s tag queue lo hi) := by
  unfold State.abortConsumed
  try dsimp only
  repeat' (first
    | with_reducible assumption
    | with_reducible refine logOk_abortItem _ _ ?_
    | with_reducible refine logOk_foldl (fun s a hs => ?_) _ _ ?_
    | with_reducible refine logOk_exMap ?_ (fun t ht => ?_)
    | split)

theorem logOk_tileStrip (key : ItemKey) (w : WDesc) (o : Operand) (m : OutMode) (v : List ℤ) (ls : List (ℕ × Acc)) (acc : State × Raised) (h : LogOk acc.1) :
    LogOk (tileStrip key w o m v ls acc).1.1 := by
  unfold tileStrip
  try dsimp only
  repeat' (first
    | with_reducible assumption
    | with_reducible refine logOk_updItem _ _ _ ?_
    | with_reducible refine logOk_writeAccRecord _ _ _ _ _ _ ?_
    | with_reducible refine logOk_writeOut _ _ _ _ _ ?_
    | with_reducible refine logOk_kept ?_ ?_
    | with_reducible refine logOk_exMap ?_ (fun t ht => ?_)
    | split)

theorem logOk_ewStrip (key : ItemKey) (p : Pitch) (w : WDesc) (srcs : List Operand) (o : Operand) (m : OutMode) (acc : State × Raised) (v : List ℤ) (h : LogOk acc.1) :
    LogOk (ewStrip key p w srcs o m acc v).1.1 := by
  unfold ewStrip
  try dsimp only
  repeat' (first
    | with_reducible assumption
    | with_reducible refine logOk_updItem _ _ _ ?_
    | with_reducible refine logOk_writeOut _ _ _ _ _ ?_
    | with_reducible refine logOk_kept ?_ ?_
    | with_reducible refine logOk_exMap ?_ (fun t ht => ?_)
    | with_reducible refine ExLog.of_eq ?_ (by assumption)
    | split)

theorem logOk_ewUnit (key : ItemKey) (p : Pitch) (w : WDesc) (srcs : List Operand) (o : Operand) (m : OutMode) (s : State) (vs : List (List ℤ)) (h : LogOk s) :
    LogOk (ewUnit key p w srcs o m s vs).1 := by
  unfold ewUnit
  try dsimp only
  repeat' (first
    | with_reducible assumption
    | with_reducible refine logOk_ewStrip _ _ _ _ _ _ _ _ ?_
    | with_reducible refine logOk_updItem _ _ _ ?_
    | with_reducible refine logOk_foldKeep_fst (fun s a hs => ?_) _ _ ?_
    | with_reducible refine logOk_foldKeep (fun s a hs => ?_) _ _ ?_
    | split)

theorem logOk_endRun (r : State × Option ℕ) (pl : Place) (key : ItemKey) (h : LogOk r.1) :
    LogOk (State.endRun r pl key) := by
  unfold State.endRun
  try dsimp only
  repeat' (first
    | with_reducible assumption
    | with_reducible refine logOk_failMemory _ _ _ ?_
    | with_reducible refine logOk_leaveEngine _ _ _ ?_
    | with_reducible refine logOk_updItem _ _ _ ?_
    | split)

theorem logOk_flushRecords (s : State) (tag : ℕ) (model : ℕ) (sid : ℕ) (h : LogOk s) :
    LogOk (State.flushRecords s tag model sid) := by
  unfold State.flushRecords
  try dsimp only
  repeat' (first
    | with_reducible assumption
    | with_reducible refine logOk_tryWrite _ _ _ _ ?_
    | with_reducible refine logOk_updSession _ _ _ _ _ ?_
    | with_reducible refine logOk_foldl (fun s a hs => ?_) _ _ ?_
    | with_reducible refine logOk_foldl_fst (fun s a hs => ?_) _ _ ?_
    | split)

theorem logOk_pushRecords (s : State) (tag : ℕ) (model : ℕ) (sid : ℕ) (rs : List Bytes) (h : LogOk s) :
    LogOk (State.pushRecords s tag model sid rs) := by
  unfold State.pushRecords
  try dsimp only
  repeat' (first
    | with_reducible assumption
    | with_reducible refine logOk_updSession _ _ _ _ _ ?_
    | with_reducible refine logOk_flushRecords _ _ _ _ ?_
    | split)

theorem logOk_pushEnd (s : State) (tag : ℕ) (model : ℕ) (sid : ℕ) (reqTag : ℕ) (reason : ℕ) (status : ℕ) (h : LogOk s) :
    LogOk (State.pushEnd s tag model sid reqTag reason status) := by
  unfold State.pushEnd
  try dsimp only
  repeat' (first
    | with_reducible assumption
    | with_reducible refine logOk_draw _ ?_
    | with_reducible refine logOk_pushRecords _ _ _ _ _ ?_)

theorem logOk_failRequest (s : State) (tag : ℕ) (model : ℕ) (sid : ℕ) (reason : ℕ) (status : ℕ) (h : LogOk s) :
    LogOk (State.failRequest s tag model sid reason status) := by
  unfold State.failRequest
  try dsimp only
  repeat' (first
    | with_reducible assumption
    | with_reducible refine logOk_pushEnd _ _ _ _ _ _ _ ?_
    | with_reducible refine logOk_endRequest _ _ _ _ _ _ ?_
    | split)

theorem logOk_finishClosing (s : State) (tag : ℕ) (model : ℕ) (sid : ℕ) (h : LogOk s) :
    LogOk (State.finishClosing s tag model sid) := by
  unfold State.finishClosing
  try dsimp only
  repeat' (first
    | with_reducible assumption
    | with_reducible refine logOk_failRequest _ _ _ _ _ _ ?_
    | with_reducible refine logOk_endRequest _ _ _ _ _ _ ?_
    | with_reducible refine logOk_flushRecords _ _ _ _ ?_
    | with_reducible refine logOk_removeSession _ _ _ _ ?_
    | with_reducible refine logOk_respond _ _ _ _ ?_
    | with_reducible refine logOk_elim _ ?_ (fun a => ?_)
    | split)

theorem logOk_startClosing (s : State) (tag : ℕ) (model : ℕ) (sid : ℕ) (req : Option ℕ) (h : LogOk s) :
    LogOk (State.startClosing s tag model sid req) := by
  unfold State.startClosing
  try dsimp only
  repeat' (first
    | with_reducible assumption
    | with_reducible refine logOk_updSession _ _ _ _ _ ?_
    | with_reducible refine logOk_finishClosing _ _ _ _ ?_)

theorem logOk_restoreBlock (s : State) (tag : Nat) (model : Nat) (sid : Nat) (j : Nat) (b : Block) (found : Option Nat) (kv : List Bytes) (h : LogOk s) :
    LogOk (restoreBlock s tag model sid j b found kv) := by
  unfold restoreBlock
  try dsimp only
  repeat' (first
    | with_reducible assumption
    | with_reducible refine logOk_updSession _ _ _ _ _ ?_
    | with_reducible refine logOk_updModel _ _ _ _ ?_
    | with_reducible refine logOk_tryWrite _ _ _ _ ?_
    | with_reducible refine logOk_updPitch _ _ _ ?_
    | with_reducible refine logOk_foldl (fun s a hs => ?_) _ _ ?_
    | with_reducible refine logOk_foldl_fst (fun s a hs => ?_) _ _ ?_
    | split)

theorem logOk_restoreShadow (s : State) (tag : ℕ) (draft : ℕ) (model : ℕ) (sid : ℕ) (bs : List Block) (rec : Bytes) (h : LogOk s) :
    LogOk (restoreShadow s tag draft model sid bs rec) := by
  unfold restoreShadow
  try dsimp only
  repeat' (first
    | with_reducible assumption
    | with_reducible refine logOk_updModel _ _ _ _ ?_
    | with_reducible refine logOk_updSession _ _ _ _ _ ?_
    | with_reducible refine logOk_tryWrite _ _ _ _ ?_
    | with_reducible refine logOk_foldl (fun s a hs => ?_) _ _ ?_
    | with_reducible refine logOk_foldl_fst (fun s a hs => ?_) _ _ ?_
    | split)

theorem logOk_resumeSession (s : State) (p : Pitch) (m : Model) (x : Session) (q : Pause) (rec : Bytes) (h : LogOk s) :
    LogOk (State.resumeSession s p m x q rec) := by
  unfold State.resumeSession
  try dsimp only
  repeat' (first
    | with_reducible assumption
    | with_reducible refine logOk_updSession _ _ _ _ _ ?_
    | with_reducible refine logOk_updModel _ _ _ _ ?_
    | with_reducible refine logOk_restoreBlock _ _ _ _ _ _ _ _ ?_
    | with_reducible refine logOk_restoreShadow _ _ _ _ _ _ _ ?_
    | with_reducible refine logOk_foldl (fun s a hs => ?_) _ _ ?_)

theorem logOk_boothResumeOne (tag : ℕ) (model : ℕ) (acc : State × Bool) (sid : ℕ) (h : LogOk acc.1) :
    LogOk (boothResumeOne tag model acc sid).1 := by
  unfold boothResumeOne
  try dsimp only
  repeat' (first
    | with_reducible assumption
    | with_reducible refine logOk_dropPaused _ _ _ _ _ _ ?_
    | with_reducible refine logOk_resumeSession _ _ _ _ _ _ ?_
    | split)

theorem logOk_swapLogical (s : State) (p : Pitch) (pl : Place) (old : ℕ) (new : ℕ) (h : LogOk s) :
    LogOk (State.swapLogical s p pl old new) := by
  unfold State.swapLogical
  try dsimp only
  repeat' (first
    | with_reducible assumption
    | with_reducible refine logOk_setMem _ _ ?_
    | with_reducible refine logOk_setBad _ _ ?_
    | with_reducible refine logOk_updCluster _ _ _ ?_
    | with_reducible refine logOk_updPitch _ _ _ ?_)

theorem logOk_headView (s : State) (p : Pitch) (q : Queue) (h : LogOk s) :
    LogOk (headView s p q) := by
  unfold headView
  try dsimp only
  repeat' (first
    | with_reducible assumption
    | with_reducible refine logOk_tryWrite _ _ _ _ ?_
    | with_reducible refine logOk_foldl (fun s a hs => ?_) _ _ ?_)

theorem logOk_completeQueueItem (s : State) (p : Pitch) (k : ItemKey) (h : LogOk s) :
    LogOk (State.completeQueueItem s p k) := by
  unfold State.completeQueueItem
  try dsimp only
  repeat' (first
    | with_reducible assumption
    | with_reducible refine logOk_updItem _ _ _ ?_
    | with_reducible refine logOk_completeItem _ _ ?_)

theorem logOk_finishSave (s : State) (seq : ℕ) (p : Pitch) (b : Bytes) (h : LogOk s) :
    LogOk (State.finishSave s seq p b) := by
  unfold State.finishSave
  try dsimp only
  repeat' (first
    | with_reducible assumption
    | with_reducible refine logOk_updPitch _ _ _ ?_
    | with_reducible refine logOk_respond _ _ _ _ ?_
    | with_reducible refine logOk_dropSave _ _ _ _ ?_
    | with_reducible refine logOk_pitchWriteAll _ _ _ _ ?_
    | with_reducible refine ExLog.of_eq ?_ (by assumption)
    | split)

theorem logOk_loadCluster (s : State) (p : Pitch) (l : ℕ) (img : Bytes) (h : LogOk s) :
    LogOk (State.loadCluster s p l img) := by
  unfold State.loadCluster
  try dsimp only
  repeat' (first
    | with_reducible assumption
    | with_reducible refine logOk_setMem _ _ ?_
    | with_reducible refine logOk_setBad _ _ ?_
    | with_reducible refine logOk_updCluster _ _ _ ?_
    | with_reducible refine logOk_updPitch _ _ _ ?_
    | with_reducible refine logOk_exMap ?_ (fun t ht => ?_)
    | split)

theorem logOk_clearRemote (s : State) (p : Pitch) (dram : Bool) (h : LogOk s) :
    LogOk (State.clearRemote s p dram) := by
  unfold State.clearRemote
  try dsimp only
  repeat' (first
    | with_reducible assumption
    | with_reducible refine logOk_setMem _ _ ?_
    | with_reducible refine logOk_setBad _ _ ?_)

theorem logOk_loadPages (s : State) (p : Pitch) (b : Bytes) (h : LogOk s) :
    LogOk (State.loadPages s p b) := by
  unfold State.loadPages
  try dsimp only
  repeat' (first
    | with_reducible assumption
    | with_reducible refine logOk_clearDram _ _ _ _ ?_
    | with_reducible refine logOk_clearRemote _ _ _ ?_
    | with_reducible refine logOk_updPitch _ _ _ ?_
    | with_reducible refine logOk_tryWrite _ _ _ _ ?_
    | with_reducible refine logOk_foldl (fun s a hs => ?_) _ _ ?_)

theorem logOk_doRestore (s : State) (p : Pitch) (b : Bytes) (h : LogOk s) :
    LogOk (State.doRestore s p b) := by
  unfold State.doRestore
  try dsimp only
  repeat' (first
    | with_reducible assumption
    | with_reducible refine logOk_updPitch _ _ _ ?_
    | with_reducible refine logOk_loadPages _ _ _ ?_
    | with_reducible refine logOk_loadCluster _ _ _ _ ?_
    | with_reducible refine logOk_foldl (fun s a hs => ?_) _ _ ?_
    | with_reducible refine logOk_foldl_fst (fun s a hs => ?_) _ _ ?_
    | with_reducible refine logOk_elim _ ?_ (fun a => ?_)
    | with_reducible refine logOk_getD ?_ ?_
    | with_reducible refine logOk_exMap ?_ (fun t ht => ?_)
    | split)

theorem logOk_putStrip (s : State) (key : ItemKey) (o : Operand) (m : OutMode) (v : List ℤ) (xs : List (ℕ × Num)) (h : LogOk s) :
    LogOk (State.putStrip s key o m v xs).1 := by
  unfold State.putStrip
  try dsimp only
  repeat' (first
    | with_reducible assumption
    | with_reducible refine logOk_updItem _ _ _ ?_
    | with_reducible refine logOk_writeOut _ _ _ _ _ ?_
    | with_reducible refine logOk_kept ?_ ?_)

theorem logOk_vecStrip (key : ItemKey) (p : Pitch) (i : Item) (o : Operand) (s : State) (v : List ℤ) (h : LogOk s) :
    LogOk (vecStrip key p i o s v).1 := by
  unfold vecStrip
  try dsimp only
  repeat' (first
    | with_reducible assumption
    | with_reducible refine logOk_putStrip _ _ _ _ _ _ ?_
    | with_reducible refine logOk_exMap ?_ (fun t ht => ?_)
    | with_reducible refine ExLog.of_eq ?_ (by assumption)
    | split)

theorem logOk_randStrip (key : ItemKey) (i : Item) (o : Operand) (s : State) (v : List ℤ) (h : LogOk s) :
    LogOk (randStrip key i o s v).1 := by
  unfold randStrip
  try dsimp only
  repeat' (first
    | with_reducible assumption
    | with_reducible refine logOk_putStrip _ _ _ _ _ _ ?_)

theorem logOk_writeArray (s : State) (tag : ℕ) (header : ℕ) (k : ℕ) (rows : List (List W32)) (h : LogOk s) :
    LogOk (State.writeArray s tag header k rows) := by
  unfold State.writeArray
  try dsimp only
  repeat' (first
    | with_reducible assumption
    | with_reducible refine logOk_tryWrite _ _ _ _ ?_
    | with_reducible refine logOk_foldl (fun s a hs => ?_) _ _ ?_)

theorem logOk_zeroSpan (s : State) (tag : ℕ) (a : ℕ) (n : ℕ) (h : LogOk s) :
    LogOk (State.zeroSpan s tag a n) := by
  unfold State.zeroSpan
  try dsimp only
  repeat' (first
    | with_reducible assumption
    | with_reducible refine logOk_setMem _ _ ?_
    | with_reducible refine logOk_setBad _ _ ?_
    | with_reducible refine logOk_markWritten _ _ ?_
    | with_reducible refine logOk_updPitch _ _ _ ?_
    | with_reducible refine logOk_foldl (fun s a hs => ?_) _ _ ?_
    | split)

theorem logOk_initBlock (s : State) (tag : ℕ) (l : Layer) (r : Rule) (b : ℕ) (w : List (List W32)) (h : LogOk s) :
    LogOk (State.initBlock s tag l r b w) := by
  unfold State.initBlock
  try dsimp only
  repeat' (first
    | with_reducible assumption
    | with_reducible refine logOk_writeArray _ _ _ _ _ ?_
    | split)

theorem logOk_initLayer (s : State) (p : Pitch) (run : ℕ) (l : Layer) (r : Rule) (step : ℕ) (ws : List (List (List W32))) (h : LogOk s) :
    LogOk (State.initLayer s p run l r step ws) := by
  unfold State.initLayer
  try dsimp only
  repeat' (first
    | with_reducible assumption
    | with_reducible refine logOk_zeroSpan _ _ _ _ ?_
    | with_reducible refine logOk_initBlock _ _ _ _ _ _ ?_
    | with_reducible refine logOk_updRun _ _ _ _ ?_
    | with_reducible refine logOk_foldl (fun s a hs => ?_) _ _ ?_)

theorem logOk_writeSlots (s : State) (tag : ℕ) (r : Run) (c : Ckpt) (slot : ℕ) (step : ℕ) (st : ℕ) (h : LogOk s) :
    LogOk (State.writeSlots s tag r c slot step st) := by
  unfold State.writeSlots
  try dsimp only
  repeat' (first
    | with_reducible assumption
    | with_reducible refine logOk_tryWrite _ _ _ _ ?_
    | with_reducible refine logOk_foldl (fun s a hs => ?_) _ _ ?_
    | with_reducible refine logOk_foldl_fst (fun s a hs => ?_) _ _ ?_
    | split)

theorem logOk_endCkpt (s : State) (tag : Nat) (r : Run) (c : Ckpt) (slot : Nat) (t : Nat) (st : Nat) (h : LogOk s) :
    LogOk (State.endCkpt s tag r c slot t st) := by
  unfold State.endCkpt
  try dsimp only
  repeat' (first
    | with_reducible assumption
    | with_reducible refine logOk_writeSlots _ _ _ _ _ _ _ ?_
    | with_reducible refine logOk_updRun _ _ _ _ ?_)

theorem logOk_startCkpt (s : State) (tag : ℕ) (r : Run) (c : Ckpt) (t : ℕ) (h : LogOk s) :
    LogOk (State.startCkpt s tag r c t) := by
  unfold State.startCkpt
  try dsimp only
  repeat' (first
    | with_reducible assumption
    | with_reducible refine logOk_updRun _ _ _ _ ?_
    | with_reducible refine logOk_writeSlots _ _ _ _ _ _ _ ?_)

theorem logOk_ckptDue (s : State) (tag : Nat) (run : Nat) (t : Nat) (h : LogOk s) :
    LogOk (State.ckptDue s tag run t) := by
  unfold State.ckptDue
  try dsimp only
  repeat' (first
    | with_reducible assumption
    | with_reducible refine logOk_startCkpt _ _ _ _ _ ?_
    | with_reducible refine logOk_updRun _ _ _ _ ?_
    | with_reducible refine logOk_logNote _ _ _ _ _ _ _ ?_
    | with_reducible refine logOk_exMap ?_ (fun t ht => ?_)
    | split)

theorem logOk_loadLayer (s : State) (tag : ℕ) (run : ℕ) (step : ℕ) (x : ℕ × Layer × Bytes) (h : LogOk s) :
    LogOk (State.loadLayer s tag run step x) := by
  unfold State.loadLayer
  try dsimp only
  repeat' (first
    | with_reducible assumption
    | with_reducible refine logOk_tryWrite _ _ _ _ ?_
    | with_reducible refine logOk_updRun _ _ _ _ ?_
    | with_reducible refine logOk_foldl (fun s a hs => ?_) _ _ ?_
    | with_reducible refine logOk_foldl_fst (fun s a hs => ?_) _ _ ?_
    | split)

theorem logOk_loseCrusher (s : State) (p : Pitch) (r : Run) (h : LogOk s) :
    LogOk (State.loseCrusher s p r) := by
  unfold State.loseCrusher
  try dsimp only
  repeat' (first
    | with_reducible assumption
    | with_reducible refine logOk_undefineBytes _ _ _ _ ?_
    | with_reducible refine logOk_updRun _ _ _ _ ?_
    | with_reducible refine logOk_draw _ ?_
    | with_reducible refine logOk_foldl (fun s a hs => ?_) _ _ ?_
    | with_reducible refine logOk_getD ?_ ?_
    | split)

theorem logOk_dropCkpt (s : State) (tag : Nat) (run : Nat) (h : LogOk s) :
    LogOk (State.dropCkpt s tag run) := by
  unfold State.dropCkpt
  try dsimp only
  repeat' (first
    | with_reducible assumption
    | with_reducible refine logOk_endCkpt _ _ _ _ _ _ _ ?_
    | with_reducible refine logOk_exMap ?_ (fun t ht => ?_)
    | split)

theorem logOk_setKronHeader (s : State) (tag : ℕ) (header : ℕ) (refresh : ℕ) (inUse : ℕ) (h : LogOk s) :
    LogOk (State.setKronHeader s tag header refresh inUse) := by
  unfold State.setKronHeader
  try dsimp only
  repeat' (first
    | with_reducible assumption
    | with_reducible refine logOk_tryWrite _ _ _ _ ?_)

theorem logOk_kronSwap (s : State) (tag : ℕ) (r : Run) (u : Rule) (header : ℕ) (t : ℕ) (h : LogOk s) :
    LogOk (State.kronSwap s tag r u header t) := by
  unfold State.kronSwap
  try dsimp only
  repeat' (first
    | with_reducible assumption
    | with_reducible refine logOk_setKronHeader _ _ _ _ _ ?_
    | split)

theorem logOk_kronSnap (s : State) (tag : ℕ) (r : Run) (l : Layer) (u : Rule) (b : ℕ) (header : ℕ) (t : ℕ) (h : LogOk s) :
    LogOk (State.kronSnap s tag r l u b header t) := by
  unfold State.kronSnap
  try dsimp only
  repeat' (first
    | with_reducible assumption
    | with_reducible refine logOk_writeArray _ _ _ _ _ ?_
    | with_reducible refine logOk_setKronHeader _ _ _ _ _ ?_
    | split)

theorem logOk_layerDue (s : State) (tag : Nat) (run : Nat) (layer : Nat) (h : LogOk s) :
    LogOk (State.layerDue s tag run layer) := by
  unfold State.layerDue
  try dsimp only
  repeat' (first
    | with_reducible assumption
    | with_reducible refine logOk_ckptDue _ _ _ _ ?_
    | split)

theorem logOk_nextStep (s : State) (tag : Nat) (run : Nat) (l : Layer) (b : Nat) (h : LogOk s) :
    LogOk (State.nextStep s tag run l b) := by
  unfold State.nextStep
  try dsimp only
  repeat' (first
    | with_reducible assumption
    | with_reducible refine logOk_updRun _ _ _ _ ?_
    | with_reducible refine logOk_layerDue _ _ _ _ ?_)

theorem logOk_updateArrays (s : State) (p : Pitch) (r : Run) (l : Layer) (u : Rule) (b : ℕ) (t : ℕ) (m : W32) (g : List (List (Option W32))) (h : LogOk s) :
    LogOk (State.updateArrays s p r l u b t m g) := by
  unfold State.updateArrays
  try dsimp only
  repeat' (first
    | with_reducible assumption
    | with_reducible refine logOk_writeArray _ _ _ _ _ ?_
    | with_reducible refine logOk_exMap ?_ (fun t ht => ?_)
    | split)

theorem logOk_applyBlock (s : State) (tag : Nat) (run : Nat) (l : Layer) (u : Rule) (c : CBlock) (m : W32) (hold : Option Nat) (h : LogOk s) :
    LogOk (State.applyBlock s tag run l u c m hold) := by
  unfold State.applyBlock
  try dsimp only
  repeat' (first
    | with_reducible assumption
    | with_reducible refine logOk_kronSwap _ _ _ _ _ _ ?_
    | with_reducible refine logOk_updateArrays _ _ _ _ _ _ _ _ _ ?_
    | with_reducible refine logOk_updPitch _ _ _ ?_
    | with_reducible refine logOk_updRun _ _ _ _ ?_
    | with_reducible refine logOk_kronSnap _ _ _ _ _ _ _ _ ?_
    | with_reducible refine logOk_emit _ _ _ _ _ _ ?_
    | with_reducible refine logOk_draw _ ?_
    | with_reducible refine logOk_nextStep _ _ _ _ _ ?_
    | with_reducible refine logOk_elim _ ?_ (fun a => ?_)
    | split)

theorem logOk_updateBlock (s : State) (tag : Nat) (run : Nat) (p : Pitch) (r : Run) (l : Layer) (u : Rule) (c : CBlock) (m : W32) (h : LogOk s) :
    LogOk (State.updateBlock s tag run p r l u c m) := by
  unfold State.updateBlock
  try dsimp only
  repeat' (first
    | with_reducible assumption
    | with_reducible refine logOk_applyBlock _ _ _ _ _ _ _ _ ?_
    | with_reducible refine logOk_noteLate _ _ _ _ _ _ _ ?_
    | split)

theorem logOk_applyHeld (tag : Nat) (run : Nat) (acc : State × Bool) (c : CBlock) (h : LogOk acc.1) :
    LogOk (applyHeld tag run acc c).1 := by
  unfold applyHeld
  try dsimp only
  repeat' (first
    | with_reducible assumption
    | with_reducible refine logOk_onBlock _ _ _ _ _ _ ?_ (fun z0 z1 z2 z3 z4 => ?_)
    | with_reducible refine logOk_applyBlock _ _ _ _ _ _ _ _ ?_
    | with_reducible refine logOk_noteLate _ _ _ _ _ _ _ ?_
    | split)

theorem logOk_emitStrip (s : State) (tag : ℕ) (r : Run) (x : Plan) (layer : ℕ) (e : EmitStrip) (h : LogOk s) :
    LogOk (State.emitStrip s tag r x layer e) := by
  unfold State.emitStrip
  try dsimp only
  repeat' (first
    | with_reducible assumption
    | with_reducible refine logOk_writeStrip _ _ _ _ _ _ ?_
    | with_reducible refine logOk_getD ?_ ?_)

theorem logOk_copyPiece (s : State) (tag : ℕ) (src dst : TDesc) (h : LogOk s) :
    LogOk (State.copyPiece s tag src dst) := by
  unfold State.copyPiece
  try dsimp only
  repeat' (first
    | with_reducible assumption
    | with_reducible refine logOk_writeStrip _ _ _ _ _ _ ?_
    | with_reducible refine logOk_foldl (fun s a hs => ?_) _ _ ?_
    | with_reducible refine logOk_getD ?_ ?_
    | with_reducible refine logOk_exMap ?_ (fun t ht => ?_)
    | split)

theorem logOk_copyShadows (s : State) (tag : ℕ) (x : Plan) (r : Run) (layer : ℕ × ℕ → Bool) (holder : Holder → Bool) (h : LogOk s) :
    LogOk (State.copyShadows s tag x r layer holder) := by
  unfold State.copyShadows
  try dsimp only
  repeat' (first
    | with_reducible assumption
    | with_reducible refine logOk_copyPiece _ _ _ _ ?_
    | with_reducible refine logOk_draw _ ?_
    | with_reducible refine logOk_foldl (fun s a hs => ?_) _ _ ?_
    | with_reducible refine logOk_foldl_fst (fun s a hs => ?_) _ _ ?_
    | with_reducible refine logOk_getD ?_ ?_
    | split)

theorem logOk_copyOutside (s : State) (tag : Nat) (p : Pitch) (x : Plan) (r : Run) (h : LogOk s) :
    LogOk (State.copyOutside s tag p x r) := by
  unfold State.copyOutside
  try dsimp only
  repeat' (first
    | with_reducible assumption
    | with_reducible refine logOk_copyShadows _ _ _ _ _ _ ?_
    | with_reducible refine logOk_updPlan _ _ _ _ ?_)

theorem logOk_copyLate (s : State) (tag : Nat) (run : Nat) (h : LogOk s) :
    LogOk (State.copyLate s tag run) := by
  unfold State.copyLate
  try dsimp only
  repeat' (first
    | with_reducible assumption
    | with_reducible refine logOk_copyOutside _ _ _ _ _ ?_
    | split)

theorem logOk_sendLayer (s : State) (tag : ℕ) (p : Pitch) (r : Run) (l : Layer) (u : Rule) (ldie : ℕ) (c : Ckpt) (slot : ℕ) (t : ℕ) (h : LogOk s) :
    LogOk (State.sendLayer s tag p r l u ldie c slot t) := by
  unfold State.sendLayer
  try dsimp only
  repeat' (first
    | with_reducible assumption
    | with_reducible refine logOk_tryWrite _ _ _ _ ?_
    | with_reducible refine logOk_updRun _ _ _ _ ?_
    | with_reducible refine logOk_draw _ ?_)

theorem logOk_onWriting (s : State) (tag : ℕ) (run : ℕ) (f : Pitch → Run → Ckpt → ℕ → ℕ → State) (h : LogOk s) (hf : ∀ a' b' c' d' e', LogOk (f a' b' c' d' e')) :
    LogOk (State.onWriting s tag run f) := by
  unfold State.onWriting
  try dsimp only
  repeat' (first
    | with_reducible assumption
    | exact hf _ _ _ _ _
    | split)

theorem logOk_testErase (s : State) (die : Nat) (target : Nat) (port : Nat) (h : LogOk s) :
    LogOk (State.testErase s die target port) := by
  unfold State.testErase
  try dsimp only
  repeat' (first
    | with_reducible assumption
    | with_reducible refine logOk_clearSram _ _ _ ?_
    | with_reducible refine logOk_updDie _ _ _ ?_
    | with_reducible refine logOk_clearDram _ _ _ _ ?_
    | with_reducible refine logOk_updPort _ _ _ ?_
    | with_reducible refine logOk_foldl (fun s a hs => ?_) _ _ ?_
    | with_reducible refine logOk_foldl_fst (fun s a hs => ?_) _ _ ?_
    | with_reducible refine logOk_exMap ?_ (fun t ht => ?_)
    | split)

theorem logOk_loseDie (s : State) (die : ℕ) (h : LogOk s) :
    LogOk (State.loseDie s die) := by
  unfold State.loseDie
  try dsimp only
  repeat' (first
    | with_reducible assumption
    | with_reducible refine logOk_clearSram _ _ _ ?_
    | with_reducible refine logOk_unmarch _ _ ?_
    | with_reducible refine logOk_updDie _ _ _ ?_
    | with_reducible refine logOk_foldl (fun s a hs => ?_) _ _ ?_)

theorem logOk_abandonTest (s : State) (die : Nat) (h : LogOk s) :
    LogOk (s.abandonTest die) := by
  unfold State.abandonTest
  try dsimp only
  repeat' (first
    | with_reducible assumption
    | with_reducible refine logOk_endMarch _ _ _ ?_
    | with_reducible refine logOk_testErase _ _ _ _ ?_
    | with_reducible refine logOk_updDie _ _ _ ?_
    | with_reducible refine logOk_updRecord _ _ _ ?_
    | with_reducible refine logOk_testOver _ _ _ ?_
    | with_reducible refine logOk_logEvent _ _ _ _ _ _ ?_
    | with_reducible refine logOk_closeRecord _ _ ?_
    | split)

theorem logOk_dieFault (s : State) (die : ℕ) (rail : ℕ) (h : LogOk s) :
    LogOk (State.dieFault s die rail) := by
  unfold State.dieFault
  try dsimp only
  repeat' (first
    | with_reducible assumption
    | with_reducible refine logOk_abandonTest _ _ ?_
    | with_reducible refine logOk_loseDie _ _ ?_
    | with_reducible refine logOk_updDie _ _ _ ?_
    | with_reducible refine logOk_logEvent _ _ _ _ _ _ ?_
    | with_reducible refine logOk_failPitch _ _ ?_
    | with_reducible refine logOk_elim _ ?_ (fun a => ?_))

theorem logOk_exhaust (s : State) (die : ℕ) (kind : ℕ) (h : LogOk s) :
    LogOk (State.exhaust s die kind) := by
  unfold State.exhaust
  try dsimp only
  repeat' (first
    | with_reducible assumption
    | with_reducible refine logOk_updDie _ _ _ ?_
    | with_reducible refine logOk_logEvent _ _ _ _ _ _ ?_
    | with_reducible refine logOk_dieFault _ _ _ ?_
    | with_reducible refine logOk_setKpr _ _ ?_
    | split)

theorem logOk_finishTest (s : State) (die : Nat) (t : RunningTest) (reported : List Failure) (h : LogOk s) :
    LogOk (State.finishTest s die t reported) := by
  unfold State.finishTest
  try dsimp only
  repeat' (first
    | with_reducible assumption
    | with_reducible refine logOk_testErase _ _ _ _ ?_
    | with_reducible refine logOk_updDie _ _ _ ?_
    | with_reducible refine logOk_testOver _ _ _ ?_
    | with_reducible refine logOk_endMarch _ _ _ ?_
    | with_reducible refine logOk_updRecord _ _ _ ?_
    | with_reducible refine logOk_logEvent _ _ _ _ _ _ ?_
    | with_reducible refine logOk_pairTested _ _ _ _ ?_
    | with_reducible refine logOk_logRepairs _ _ _ ?_
    | with_reducible refine logOk_exhaust _ _ _ ?_
    | with_reducible refine logOk_closeRecord _ _ ?_
    | with_reducible refine logOk_dueTest _ _ ?_
    | with_reducible refine logOk_elim _ ?_ (fun a => ?_)
    | split)

theorem logOk_keeperOnly (s : State) (cause : ℕ) (h : LogOk s) :
    LogOk (s.keeperOnly cause) := by
  unfold State.keeperOnly
  try dsimp only
  repeat' (first
    | with_reducible assumption
    | with_reducible refine logOk_setRing _ _ ?_
    | with_reducible refine logOk_setTests _ _ ?_
    | with_reducible refine logOk_failPitch _ _ ?_
    | with_reducible refine logOk_abandonTest _ _ ?_
    | with_reducible refine logOk_loseDie _ _ ?_
    | with_reducible refine logOk_setBoxes _ _ ?_
    | with_reducible refine logOk_setFw _ _ ?_
    | with_reducible refine logOk_setKpr _ _ ?_
    | with_reducible refine logOk_logEvent _ _ _ _ _ _ ?_
    | with_reducible refine logOk_foldl (fun s a hs => ?_) _ _ ?_)

theorem logOk_clearModule (s : State) (h : LogOk s) :
    LogOk s.clearModule := h

theorem logOk_moduleReset (s : State) (cause : ℕ) (restart : Bool) (h : LogOk s) :
    LogOk (State.moduleReset s cause restart) := by
  unfold State.moduleReset
  try dsimp only
  repeat' (first
    | with_reducible assumption
    | with_reducible refine logOk_clearModule _ ?_
    | with_reducible refine logOk_setKpr _ _ ?_
    | with_reducible refine logOk_step3 _ ?_
    | split)

theorem logOk_unpower (s : State) (_h : LogOk s) :
    LogOk s.unpower := consecutive_empty

theorem logOk_releaseWork (s : State) (seq : ℕ) (p : Pitch) (h : LogOk s) :
    LogOk (State.releaseWork s seq p) := by
  unfold State.releaseWork
  try dsimp only
  repeat' (first
    | with_reducible assumption
    | with_reducible refine logOk_updPitch _ _ _ ?_
    | with_reducible refine logOk_abortConsumed _ _ _ _ _ ?_
    | with_reducible refine logOk_abortColl _ _ _ _ ?_
    | with_reducible refine logOk_foldl (fun s a hs => ?_) _ _ ?_)

theorem logOk_scrubDie (s : State) (die : ℕ) (h : LogOk s) :
    LogOk (State.scrubDie s die) := by
  unfold State.scrubDie
  try dsimp only
  repeat' (first
    | with_reducible assumption
    | with_reducible refine logOk_clearSram _ _ _ ?_
    | with_reducible refine logOk_unmarch _ _ ?_
    | with_reducible refine logOk_updDie _ _ _ ?_
    | with_reducible refine logOk_foldl (fun s a hs => ?_) _ _ ?_)

theorem logOk_releaseScrub (s : State) (p : Pitch) (h : LogOk s) :
    LogOk (State.releaseScrub s p) := by
  unfold State.releaseScrub
  try dsimp only
  repeat' (first
    | with_reducible assumption
    | with_reducible refine logOk_releaseLent _ _ ?_
    | with_reducible refine logOk_setMem _ _ ?_
    | with_reducible refine logOk_setBad _ _ ?_
    | with_reducible refine logOk_updPitch _ _ _ ?_
    | with_reducible refine logOk_scrubDie _ _ ?_
    | with_reducible refine logOk_logUnmarched _ _ _ _ ?_
    | with_reducible refine logOk_updDie _ _ _ ?_
    | with_reducible refine logOk_startTest _ _ _ _ _ _ _ ?_
    | with_reducible refine logOk_foldl (fun s a hs => ?_) _ _ ?_
    | with_reducible refine logOk_foldl_fst (fun s a hs => ?_) _ _ ?_
    | split)

theorem logOk_releaseStep (s : State) (seq : Nat) (tag : Nat) (h : LogOk s) :
    LogOk (State.releaseStep s seq tag) := by
  unfold State.releaseStep
  try dsimp only
  repeat' (first
    | with_reducible assumption
    | with_reducible refine logOk_updPitch _ _ _ ?_
    | with_reducible refine logOk_unbindTag _ _ ?_
    | with_reducible refine logOk_releaseScrub _ _ ?_
    | with_reducible refine logOk_coordinated _ _ _ _ _ ?_ (fun z0 z1 => ?_)
    | with_reducible refine logOk_setPitches _ _ ?_
    | with_reducible refine logOk_elim _ ?_ (fun a => ?_)
    | split)

theorem logOk_releaseLend (s : State) (seq : ℕ) (tag : ℕ) (l : Lend) (h : LogOk s) :
    LogOk (State.releaseLend s seq tag l) := by
  unfold State.releaseLend
  try dsimp only
  repeat' (first
    | with_reducible assumption
    | with_reducible refine logOk_scrubDie _ _ ?_
    | with_reducible refine logOk_setLends _ _ ?_
    | with_reducible refine logOk_draw _ ?_
    | with_reducible refine logOk_respond _ _ _ _ ?_
    | with_reducible refine logOk_foldl (fun s a hs => ?_) _ _ ?_)

theorem logOk_primaryFault (s : State) (h : LogOk s) :
    LogOk (State.primaryFault s) := by
  unfold State.primaryFault
  try dsimp only
  repeat' (first
    | with_reducible assumption
    | with_reducible refine logOk_keeperOnly _ _ ?_
    | with_reducible refine logOk_setRing _ _ ?_
    | with_reducible refine logOk_completeHandover _ _ _ ?_
    | with_reducible refine logOk_servicesMove _ ?_
    | with_reducible refine logOk_setFw _ _ ?_
    | with_reducible refine logOk_respond _ _ _ _ ?_
    | split)

theorem logOk_itemHeard (s : State) (k : ItemKey) (t : Txn) (status : Nat) (data : Bytes) (h : LogOk s) :
    LogOk (State.itemHeard s k t status data) := by
  unfold State.itemHeard
  try dsimp only
  repeat' (first
    | with_reducible assumption
    | with_reducible refine logOk_failItem _ _ _ ?_
    | with_reducible refine logOk_setMem _ _ ?_
    | with_reducible refine logOk_exMap ?_ (fun t ht => ?_)
    | split)

theorem logOk_outcome (s : State) (t : Txn) (status : Nat) (data : Bytes) (lost : Bool) (h : LogOk s) :
    LogOk (State.outcome s t status data lost) := by
  unfold State.outcome
  try dsimp only
  repeat' (first
    | with_reducible assumption
    | with_reducible refine logOk_itemHeard _ _ _ _ _ ?_
    | with_reducible refine logOk_lenderHeard _ _ _ ?_
    | with_reducible refine logOk_hostDone _ _ _ _ ?_
    | split)

theorem logOk_completeTxn (s : State) (die : Nat) (f : Frame) (h : LogOk s) :
    LogOk (State.completeTxn s die f) := by
  unfold State.completeTxn
  try dsimp only
  repeat' (first
    | with_reducible assumption
    | with_reducible refine logOk_endTxn _ _ _ ?_
    | with_reducible refine logOk_outcome _ _ _ _ _ ?_
    | split)

theorem logOk_response (s : State) (die : Nat) (f : Frame) (h : LogOk s) :
    LogOk (State.response s die f) := by
  unfold State.response
  try dsimp only
  repeat' (first
    | with_reducible assumption
    | with_reducible refine logOk_collDown _ _ ?_
    | with_reducible refine logOk_completeTxn _ _ _ ?_
    | split)

theorem logOk_touchDie (s : State) (die : Nat) (off : Nat) (n : Nat) (h : LogOk s) :
    LogOk (State.touchDie s die off n) := by
  unfold State.touchDie
  try dsimp only
  repeat' (first
    | with_reducible assumption
    | with_reducible refine logOk_updPitch _ _ _ ?_
    | with_reducible refine logOk_spoilAddrs _ _ _ _ ?_
    | split)

theorem logOk_writeDie (s : State) (die tag off : ℕ) (b : Bytes) (h : LogOk s) :
    ExLog (s.writeDie die tag off b) := by
  unfold State.writeDie
  try dsimp only
  repeat' (first
    | with_reducible assumption
    | with_reducible refine logOk_writeCells _ _ ?_
    | with_reducible refine logOk_noteContext _ _ _ _ ?_
    | with_reducible refine logOk_touchDie _ _ _ _ ?_
    | with_reducible refine logOk_writePage _ _ _ _ _ ?_
    | with_reducible refine logOk_ok ?_
    | with_reducible exact logOk_error _
    | with_reducible refine logOk_exMap ?_ (fun t ht => ?_)
    | with_reducible refine ExLog.of_eq ?_ (by assumption)
    | split)

theorem logOk_frameWrite (s : State) (die : ℕ) (f : Frame) (h : LogOk s) :
    ExLog (State.frameWrite s die f) := by
  unfold State.frameWrite
  try dsimp only
  repeat' (first
    | with_reducible assumption
    | with_reducible refine logOk_pitchWriteAll _ _ _ _ ?_
    | with_reducible refine logOk_spoilGuarded _ _ _ _ _ ?_
    | with_reducible refine logOk_writeDie _ _ _ _ _ ?_
    | with_reducible refine logOk_ok ?_
    | with_reducible exact logOk_error _
    | with_reducible refine logOk_exMap ?_ (fun t ht => ?_)
    | split)

theorem logOk_executeWrite (s : State) (die : Nat) (f : Frame) (h : LogOk s) :
    LogOk (State.executeWrite s die f).1 := by
  unfold State.executeWrite
  try dsimp only
  repeat' (first
    | with_reducible assumption
    | with_reducible refine logOk_frameWrite _ _ _ ?_
    | with_reducible refine logOk_logNote _ _ _ _ _ _ _ ?_
    | with_reducible refine logOk_noteOperator _ _ _ _ ?_
    | with_reducible refine ExLog.of_eq ?_ (by assumption)
    | split)

theorem logOk_executeFrame (s : State) (die : Nat) (f : Frame) (h : LogOk s) :
    LogOk (State.executeFrame s die f).1 := by
  unfold State.executeFrame
  try dsimp only
  repeat' (first
    | with_reducible assumption
    | with_reducible refine logOk_egress _ _ _ ?_
    | with_reducible refine logOk_executeWrite _ _ _ ?_
    | with_reducible refine logOk_frameAtomic _ _ ?_
    | with_reducible refine logOk_executeMessage _ _ ?_
    | with_reducible refine logOk_collUp _ _ _ ?_
    | split)

theorem logOk_serveOnce (s : State) (die : Nat) (f : Frame) (h : LogOk s) :
    LogOk (State.serveOnce s die f) := by
  unfold State.serveOnce
  try dsimp only
  repeat' (first
    | with_reducible assumption
    | with_reducible refine logOk_updDie _ _ _ ?_
    | with_reducible refine logOk_respondFrame _ _ _ ?_
    | with_reducible refine logOk_executeFrame _ _ _ ?_
    | split)

theorem logOk_deliverFrame (s : State) (die : Nat) (f : Frame) (inPort : Option Nat) (h : LogOk s) :
    LogOk (State.deliverFrame s die f inPort) := by
  unfold State.deliverFrame
  try dsimp only
  repeat' (first
    | with_reducible assumption
    | with_reducible refine logOk_serveMsg _ _ _ _ ?_
    | with_reducible refine logOk_rejectFrame _ _ _ _ ?_
    | with_reducible refine logOk_toRouter _ _ _ ?_
    | with_reducible refine logOk_serveRead _ _ _ ?_
    | with_reducible refine logOk_serveOnce _ _ _ ?_
    | split)

theorem logOk_arrive (s : State) (die : Nat) (index : Nat) (w : Waiting) (h : LogOk s) :
    LogOk (State.arrive s die index w) := by
  unfold State.arrive
  try dsimp only
  repeat' (first
    | with_reducible assumption
    | with_reducible refine logOk_takeFrame _ _ _ _ ?_
    | with_reducible refine logOk_response _ _ _ ?_
    | with_reducible refine logOk_deliverFrame _ _ _ _ ?_
    | with_reducible refine logOk_exMap ?_ (fun t ht => ?_)
    | split)

theorem logOk_bootNow (s : State) (h : LogOk s) :
    LogOk (State.bootNow s) := by
  unfold State.bootNow
  try dsimp only
  repeat' (first
    | with_reducible assumption
    | with_reducible refine logOk_keeperOnly _ _ ?_
    | with_reducible refine logOk_setFw _ _ ?_
    | with_reducible refine logOk_recover _ ?_
    | with_reducible refine logOk_startImage _ _ _ ?_
    | split)

theorem logOk_copyStrip (key : ItemKey) (p : Pitch) (w : WDesc) (src : TDesc) (o : Operand) (s : State) (v : List ℤ) (h : LogOk s) :
    LogOk (copyStrip key p w src o s v).1 := by
  unfold copyStrip
  try dsimp only
  repeat' (first
    | with_reducible assumption
    | with_reducible refine logOk_updItem _ _ _ ?_
    | with_reducible refine logOk_writeStrip _ _ _ _ _ _ ?_
    | with_reducible refine logOk_elim _ ?_ (fun a => ?_)
    | with_reducible refine logOk_kept ?_ ?_
    | with_reducible refine logOk_exMap ?_ (fun t ht => ?_)
    | with_reducible refine ExLog.of_eq ?_ (by assumption)
    | split)

theorem logOk_convertMove (key : ItemKey) (p : Pitch) (w : WDesc) (src : TDesc) (o : Operand) (m : OutMode) (s : State) (v : List ℤ) (h : LogOk s) :
    LogOk (convertMove key p w src o m s v).1 := by
  unfold convertMove
  try dsimp only
  repeat' (first
    | with_reducible assumption
    | with_reducible refine logOk_updItem _ _ _ ?_
    | with_reducible refine logOk_writeOut _ _ _ _ _ ?_
    | with_reducible refine logOk_kept ?_ ?_
    | with_reducible refine logOk_exMap ?_ (fun t ht => ?_)
    | with_reducible refine ExLog.of_eq ?_ (by assumption)
    | split)

theorem logOk_copyRecord (key : ItemKey) (p : Pitch) (src : TDesc) (o : Operand) (s : State) (v : List ℤ) (h : LogOk s) :
    LogOk (copyRecord key p src o s v).1 := by
  unfold copyRecord
  try dsimp only
  repeat' (first
    | with_reducible assumption
    | with_reducible refine logOk_updItem _ _ _ ?_
    | with_reducible refine logOk_writeRecord _ _ _ _ _ _ _ _ ?_
    | with_reducible refine logOk_kept ?_ ?_
    | with_reducible refine logOk_exMap ?_ (fun t ht => ?_)
    | with_reducible refine ExLog.of_eq ?_ (by assumption)
    | split)

theorem logOk_compressMove (s : State) (p : Pitch) (key : ItemKey) (src : TDesc) (o : Operand) (h : LogOk s) :
    LogOk (compressMove s p key src o).1 := by
  unfold compressMove
  try dsimp only
  repeat' (first
    | with_reducible assumption
    | with_reducible refine logOk_updItem _ _ _ ?_
    | with_reducible refine logOk_pitchWriteAll _ _ _ _ ?_
    | with_reducible refine logOk_kept ?_ ?_
    | with_reducible refine ExLog.of_eq ?_ (by assumption)
    | split)

theorem logOk_streamStrip (key : ItemKey) (o : Operand) (s : State) (x : List ℤ × ℕ × List ℕ) (h : LogOk s) :
    LogOk (streamStrip key o s x).1 := by
  unfold streamStrip
  try dsimp only
  repeat' (first
    | with_reducible assumption
    | with_reducible refine logOk_updItem _ _ _ ?_
    | with_reducible refine logOk_writeStrip _ _ _ _ _ _ ?_
    | with_reducible refine logOk_kept ?_ ?_)

theorem logOk_failCodec (s : State) (key : ItemKey) (o : Operand) (h : LogOk s) :
    LogOk (State.failCodec s key o) := by
  unfold State.failCodec
  try dsimp only
  repeat' (first
    | with_reducible assumption
    | with_reducible refine logOk_updItem _ _ _ ?_
    | with_reducible refine logOk_failItem _ _ _ ?_)

theorem logOk_moveClusters (s : State) (p : Pitch) (m : MovePlan) (ls : List ℕ) (h : LogOk s) :
    LogOk (State.moveClusters s p m ls) := by
  unfold State.moveClusters
  try dsimp only
  repeat' (first
    | with_reducible assumption
    | with_reducible refine logOk_updDie _ _ _ ?_
    | with_reducible refine logOk_setMem _ _ ?_
    | with_reducible refine logOk_setBad _ _ ?_
    | with_reducible refine logOk_updPitch _ _ _ ?_
    | with_reducible refine logOk_placeSlots _ _ _ _ ?_
    | with_reducible refine logOk_foldl (fun s a hs => ?_) _ _ ?_)

theorem logOk_applyMove (s : State) (p : Pitch) (m : MovePlan) (h : LogOk s) :
    LogOk (State.applyMove s p m) := by
  unfold State.applyMove
  try dsimp only
  repeat' (first
    | with_reducible assumption
    | with_reducible refine logOk_moveClusters _ _ _ _ ?_
    | with_reducible refine logOk_updPitch _ _ _ ?_
    | with_reducible refine logOk_settleDies _ _ _ ?_
    | split)

theorem logOk_beginMove (s : State) (tag : ℕ) (m : MovePlan) (h : LogOk s) :
    LogOk (State.beginMove s tag m) := by
  unfold State.beginMove
  try dsimp only
  repeat' (first
    | with_reducible assumption
    | with_reducible refine logOk_applyMove _ _ _ ?_
    | with_reducible refine logOk_settleDies _ _ _ ?_
    | with_reducible refine logOk_updPitch _ _ _ ?_
    | split)

theorem logOk_repairDie (id : ℕ) (x : State × ℕ × ℕ) (die : ℕ) (h : LogOk x.1) :
    LogOk (State.repairDie id x die).1 := by
  unfold State.repairDie
  try dsimp only
  repeat' (first
    | with_reducible assumption
    | with_reducible refine logOk_updDie _ _ _ ?_
    | with_reducible refine logOk_updRecord _ _ _ ?_
    | with_reducible refine logOk_logRepairs _ _ _ ?_
    | with_reducible refine logOk_exhaust _ _ _ ?_
    | with_reducible refine logOk_elim _ ?_ (fun a => ?_)
    | with_reducible refine logOk_exMap ?_ (fun t ht => ?_)
    | split)

theorem logOk_writeReq (s : State) (off : ℕ) (d : BitVec 32) (h : LogOk s) :
    LogOk (State.writeReq s off d) := by
  unfold State.writeReq
  try dsimp only
  repeat' (first
    | with_reducible assumption
    | with_reducible refine logOk_setMbx0 _ _ ?_
    | with_reducible refine logOk_exMap ?_ (fun t ht => ?_)
    | split)

theorem logOk_writeReg (s : State) (a : ℕ) (d : BitVec 32) (h : LogOk s) :
    LogOk (State.writeReg s a d) := by
  unfold State.writeReg
  try dsimp only
  repeat' (first
    | with_reducible assumption
    | with_reducible refine logOk_writeReset _ _ ?_
    | with_reducible refine logOk_setKpr _ _ ?_
    | with_reducible refine logOk_setPower _ _ ?_
    | with_reducible refine logOk_clearAlerts _ _ ?_
    | with_reducible refine logOk_writeReq _ _ _ ?_
    | with_reducible refine logOk_ringDoorbell _ _ ?_
    | with_reducible refine logOk_releaseRsp _ _ ?_
    | with_reducible refine logOk_clearCounters _ _ _ ?_
    | split)

theorem logOk_kprWrite (s : State) (ktag : ℕ) (addr : ℕ) (d : BitVec 32) (h : LogOk s) :
    LogOk (State.kprWrite s ktag addr d) := by
  unfold State.kprWrite
  try dsimp only
  repeat' (first
    | with_reducible assumption
    | with_reducible refine logOk_arrived _ ?_
    | with_reducible refine logOk_kprError _ _ _ _ ?_
    | with_reducible refine logOk_send _ _ ?_
    | with_reducible refine logOk_writeReg _ _ _ ?_
    | with_reducible refine logOk_setKpr _ _ ?_
    | split)

theorem logOk_sampleRow (key : ItemKey) (p : Pitch) (w : WDesc) (a : TDesc) (s : State) (x : List ℕ × ℕ) (h : LogOk s) :
    LogOk (sampleRow key p w a s x).1 := by
  unfold sampleRow
  try dsimp only
  repeat' (first
    | with_reducible assumption
    | with_reducible refine logOk_flagRow _ _ _ ?_
    | with_reducible refine logOk_updItem _ _ _ ?_
    | with_reducible refine logOk_pitchWriteAll _ _ _ _ ?_
    | with_reducible refine logOk_kept ?_ ?_
    | with_reducible refine logOk_exMap ?_ (fun t ht => ?_)
    | with_reducible refine ExLog.of_eq ?_ (by assumption)
    | split)

theorem logOk_lsmRow (key : ItemKey) (p : Pitch) (w : WDesc) (a : TDesc) (d : TDesc) (s : State) (x : List ℕ × ℕ) (h : LogOk s) :
    LogOk (lsmRow key p w a d s x).1 := by
  unfold lsmRow
  try dsimp only
  repeat' (first
    | with_reducible assumption
    | with_reducible refine logOk_updItem _ _ _ ?_
    | with_reducible refine logOk_writeStrip _ _ _ _ _ _ ?_
    | with_reducible refine logOk_flagRow _ _ _ ?_
    | with_reducible refine logOk_foldKeep_fst (fun s a hs => ?_) _ _ ?_
    | with_reducible refine logOk_foldKeep (fun s a hs => ?_) _ _ ?_
    | with_reducible refine logOk_elim _ ?_ (fun a => ?_)
    | with_reducible refine logOk_kept ?_ ?_
    | with_reducible refine logOk_getD ?_ ?_
    | with_reducible refine logOk_exMap ?_ (fun t ht => ?_)
    | with_reducible refine ExLog.of_eq ?_ (by assumption)
    | split)

theorem logOk_writeEntry (s : State) (tag : ℕ) (x : Plan) (r : Rollout) (h : LogOk s) :
    LogOk (State.writeEntry s tag x r) := by
  unfold State.writeEntry
  try dsimp only
  repeat' (first
    | with_reducible assumption
    | with_reducible refine logOk_tryWrite _ _ _ _ ?_)

theorem logOk_submit (s : State) (seq : ℕ) (p : Pitch) (m : Model) (x : Session) (b : Bytes) (toks : List ℕ) (h : LogOk s) :
    LogOk (State.submit s seq p m x b toks) := by
  unfold State.submit
  try dsimp only
  repeat' (first
    | with_reducible assumption
    | with_reducible refine logOk_refuse _ _ _ _ ?_
    | with_reducible refine logOk_respond _ _ _ _ ?_
    | with_reducible refine logOk_admitRequest _ _ _ _ _ _ _ _ ?_
    | with_reducible refine logOk_updPlan _ _ _ _ ?_
    | with_reducible refine logOk_writeEntry _ _ _ _ ?_
    | with_reducible refine logOk_exMap ?_ (fun t ht => ?_)
    | with_reducible refine ExLog.of_eq ?_ (by assumption)
    | split)

theorem logOk_boundary (s : State) (tag : ℕ) (model : ℕ) (h : LogOk s) :
    LogOk (State.boundary s tag model) := by
  unfold State.boundary
  try dsimp only
  repeat' (first
    | with_reducible assumption
    | with_reducible refine logOk_flushRecords _ _ _ _ ?_
    | with_reducible refine logOk_finishClosing _ _ _ _ ?_
    | with_reducible refine logOk_foldl (fun s a hs => ?_) _ _ ?_)

theorem logOk_startStep (s : State) (tag : Nat) (model : Nat) (now : Nat) (parts : List StepPart) (again : Bool) (drafting : Option Nat) (h : LogOk s) :
    LogOk (State.startStep s tag model now parts again drafting) := by
  unfold State.startStep
  try dsimp only
  repeat' (first
    | with_reducible assumption
    | with_reducible refine logOk_updModel _ _ _ _ ?_
    | with_reducible refine logOk_nextStep _ _ _ _ _ ?_
    | with_reducible refine logOk_draw _ ?_
    | with_reducible refine logOk_tryWrite _ _ _ _ ?_
    | with_reducible refine logOk_updPitch _ _ _ ?_
    | with_reducible refine logOk_elim _ ?_ (fun a => ?_)
    | split)

theorem logOk_commitSamples (s : State) (tag : ℕ) (m : Model) (x : Session) (r : ActiveReq) (part : StepPart) (epoch : ℕ) (res : StepResult) (h : LogOk s) :
    LogOk (State.commitSamples s tag m x r part epoch res) := by
  unfold State.commitSamples
  try dsimp only
  repeat' (first
    | with_reducible assumption
    | with_reducible refine logOk_updPitch _ _ _ ?_
    | with_reducible refine logOk_updModel _ _ _ _ ?_
    | with_reducible refine logOk_updSession _ _ _ _ _ ?_
    | with_reducible refine logOk_pushRecords _ _ _ _ _ ?_
    | with_reducible refine logOk_endRequest _ _ _ _ _ _ ?_
    | with_reducible refine logOk_exMap ?_ (fun t ht => ?_)
    | split)

theorem logOk_commitInvalid (s : State) (tag : Nat) (m : Model) (x : Session) (r : ActiveReq) (part : StepPart) (epoch : Nat) (res : StepResult) (h : LogOk s) :
    LogOk (State.commitInvalid s tag m x r part epoch res) := by
  unfold State.commitInvalid
  try dsimp only
  repeat' (first
    | with_reducible assumption
    | with_reducible refine logOk_commitSamples _ _ _ _ _ _ _ _ ?_
    | with_reducible refine logOk_failRequest _ _ _ _ _ _ ?_
    | with_reducible refine logOk_updModel _ _ _ _ ?_
    | split)

theorem logOk_commitPart (tag : Nat) (model : Nat) (epoch : Nat) (results : List StepResult) (s : State) (part : StepPart) (h : LogOk s) :
    LogOk (commitPart tag model epoch results s part) := by
  unfold commitPart
  try dsimp only
  repeat' (first
    | with_reducible assumption
    | with_reducible refine logOk_updPitch _ _ _ ?_
    | with_reducible refine logOk_updModel _ _ _ _ ?_
    | with_reducible refine logOk_endRequest _ _ _ _ _ _ ?_
    | with_reducible refine logOk_commitSamples _ _ _ _ _ _ _ _ ?_
    | with_reducible refine logOk_commitInvalid _ _ _ _ _ _ _ _ ?_
    | with_reducible refine logOk_updSession _ _ _ _ _ ?_
    | split)

theorem logOk_afterStep (s : State) (tag : ℕ) (model : ℕ) (sid : ℕ) (h : LogOk s) :
    LogOk (State.afterStep s tag model sid) := by
  unfold State.afterStep
  try dsimp only
  repeat' (first
    | with_reducible assumption
    | with_reducible refine logOk_recomputeKv _ _ _ _ ?_
    | with_reducible refine logOk_finishClosing _ _ _ _ ?_
    | with_reducible refine logOk_elim _ ?_ (fun a => ?_)
    | split)

theorem logOk_loseSession (s : State) (tag : ℕ) (model : ℕ) (sid : ℕ) (h : LogOk s) :
    LogOk (State.loseSession s tag model sid) := by
  unfold State.loseSession
  try dsimp only
  repeat' (first
    | with_reducible assumption
    | with_reducible refine logOk_failRequest _ _ _ _ _ _ ?_
    | with_reducible refine logOk_pushEnd _ _ _ _ _ _ _ ?_
    | with_reducible refine logOk_startClosing _ _ _ _ _ ?_
    | split)

theorem logOk_setRollout (s : State) (tag : ℕ) (x : Plan) (r : Rollout) (h : LogOk s) :
    LogOk (State.setRollout s tag x r) := by
  unfold State.setRollout
  try dsimp only
  repeat' (first
    | with_reducible assumption
    | with_reducible refine logOk_updPlan _ _ _ _ ?_
    | with_reducible refine logOk_writeEntry _ _ _ _ ?_)

theorem logOk_recordRewards (s : State) (tag : ℕ) (p : Pitch) (x : Plan) (first : ℕ) (h : LogOk s) :
    LogOk (State.recordRewards s tag p x first) := by
  unfold State.recordRewards
  try dsimp only
  repeat' (first
    | with_reducible assumption
    | with_reducible refine logOk_setRollout _ _ _ _ ?_
    | with_reducible refine logOk_updPlan _ _ _ _ ?_
    | with_reducible refine logOk_foldl (fun s a hs => ?_) _ _ ?_)

theorem logOk_expireOpen (s : State) (tag : Nat) (model : Nat) (sid : Nat) (h : LogOk s) :
    LogOk (State.expireOpen s tag model sid) := by
  unfold State.expireOpen
  try dsimp only
  repeat' (first
    | with_reducible assumption
    | with_reducible refine logOk_updModel _ _ _ _ ?_
    | with_reducible refine logOk_updSession _ _ _ _ _ ?_
    | with_reducible refine logOk_startClosing _ _ _ _ _ ?_
    | with_reducible refine logOk_respond _ _ _ _ ?_
    | with_reducible refine logOk_elim _ ?_ (fun a => ?_))

theorem logOk_swapSession (tag : ℕ) (model : ℕ) (e : ℕ) (recompute : Bool) (s : State) (sid : ℕ) (h : LogOk s) :
    LogOk (swapSession tag model e recompute s sid) := by
  unfold swapSession
  try dsimp only
  repeat' (first
    | with_reducible assumption
    | with_reducible refine logOk_failRequest _ _ _ _ _ _ ?_
    | with_reducible refine logOk_expireOpen _ _ _ _ ?_
    | with_reducible refine logOk_updSession _ _ _ _ _ ?_
    | with_reducible refine logOk_recomputeKv _ _ _ _ ?_
    | with_reducible refine logOk_elim _ ?_ (fun a => ?_)
    | split)

theorem logOk_execPitchCreate (seq : Nat) (s : State) (h : LogOk s) :
    OutLog (execPitchCreate seq s) := by
  unfold execPitchCreate
  try dsimp only
  repeat' (first
    | with_reducible assumption
    | with_reducible refine logOk_onOperator _ _ _ _ ?_ (fun z0 => ?_)
    | with_reducible refine logOk_respond _ _ _ _ ?_
    | with_reducible refine logOk_setLends _ _ ?_
    | with_reducible refine logOk_updDie _ _ _ ?_
    | with_reducible refine logOk_clearRemote _ _ _ ?_
    | with_reducible refine logOk_setPitches _ _ ?_
    | with_reducible refine logOk_draw _ ?_
    | with_reducible refine logOk_next ?_
    | with_reducible refine logOk_foldl (fun s a hs => ?_) _ _ ?_
    | split)

theorem logOk_execPitchRelease (seq : ℕ) (s : State) (h : LogOk s) :
    OutLog (execPitchRelease seq s) := by
  unfold execPitchRelease
  try dsimp only
  repeat' (first
    | with_reducible assumption
    | with_reducible refine logOk_onOperator _ _ _ _ ?_ (fun z0 => ?_)
    | with_reducible refine logOk_respond _ _ _ _ ?_
    | with_reducible refine logOk_releaseLend _ _ _ _ ?_
    | with_reducible refine logOk_onNamed _ _ _ _ ?_ (fun z0 => ?_)
    | with_reducible refine logOk_releaseStep _ _ _ ?_
    | with_reducible refine logOk_abortRequests _ _ ?_
    | with_reducible refine logOk_carry _ _ _ _ _ ?_
    | with_reducible refine logOk_cancelMove _ _ ?_
    | with_reducible refine logOk_updPitch _ _ _ ?_
    | with_reducible refine logOk_releaseWork _ _ _ ?_
    | with_reducible refine logOk_next ?_
    | with_reducible refine logOk_elim _ ?_ (fun a => ?_)
    | split)

theorem logOk_execPitchBindPort (seq : ℕ) (s : State) (hl : LogOk s) :
    OutLog (execPitchBindPort seq s) := by
  unfold execPitchBindPort
  try dsimp only
  repeat' (first
    | with_reducible assumption
    | with_reducible refine logOk_onOperator _ _ _ _ ?_ (fun z0 => ?_)
    | with_reducible refine logOk_respond _ _ _ _ ?_
    | with_reducible refine logOk_bindPort _ _ _ _ _ _ ?_
    | with_reducible refine logOk_bindBox _ _ _ _ _ ?_
    | with_reducible refine logOk_next ?_
    | split)

theorem logOk_execPitchSuspend (seq : Nat) (s : State) (hl : LogOk s) :
    OutLog (execPitchSuspend seq s) := by
  unfold execPitchSuspend
  try dsimp only
  repeat' (first
    | with_reducible assumption
    | with_reducible refine logOk_onOperator _ _ _ _ ?_ (fun z0 => ?_)
    | with_reducible refine logOk_respond _ _ _ _ ?_
    | with_reducible refine logOk_onNamed _ _ _ _ ?_ (fun z0 => ?_)
    | with_reducible refine logOk_suspendStep _ _ _ ?_
    | with_reducible refine logOk_updPitch _ _ _ ?_
    | with_reducible refine logOk_carry _ _ _ _ _ ?_
    | with_reducible refine logOk_next ?_
    | split)

theorem logOk_execPitchResume (seq : Nat) (s : State) (hl : LogOk s) :
    OutLog (execPitchResume seq s) := by
  unfold execPitchResume
  try dsimp only
  repeat' (first
    | with_reducible assumption
    | with_reducible refine logOk_onOperator _ _ _ _ ?_ (fun z0 => ?_)
    | with_reducible refine logOk_updPitch _ _ _ ?_
    | with_reducible refine logOk_respond _ _ _ _ ?_
    | with_reducible refine logOk_onNamed _ _ _ _ ?_ (fun z0 => ?_)
    | with_reducible refine logOk_resumed _ _ ?_
    | with_reducible refine logOk_coordinated _ _ _ _ _ ?_ (fun z0 z1 => ?_)
    | with_reducible refine logOk_suspendUndo _ _ _ ?_
    | with_reducible refine logOk_suspended _ _ ?_
    | with_reducible refine logOk_logNote _ _ _ _ _ _ _ ?_
    | with_reducible refine logOk_draw _ ?_
    | with_reducible refine logOk_carry _ _ _ _ _ ?_
    | with_reducible refine logOk_next ?_
    | with_reducible refine logOk_elim _ ?_ (fun a => ?_)
    | with_reducible refine logOk_getD ?_ ?_
    | split)

theorem logOk_execPitchQuery (seq : ℕ) (s : State) (hl : LogOk s) :
    OutLog (execPitchQuery seq s) := by
  unfold execPitchQuery
  try dsimp only
  repeat' (first
    | with_reducible assumption
    | with_reducible refine logOk_onOperator _ _ _ _ ?_ (fun z0 => ?_)
    | with_reducible refine logOk_respond _ _ _ _ ?_
    | with_reducible refine logOk_onNamed _ _ _ _ ?_ (fun z0 => ?_)
    | with_reducible refine logOk_next ?_
    | split)

theorem logOk_execPitchMeterRead (seq : ℕ) (s : State) (hl : LogOk s) :
    OutLog (execPitchMeterRead seq s) := by
  unfold execPitchMeterRead
  try dsimp only
  repeat' (first
    | with_reducible assumption
    | with_reducible refine logOk_onOperator _ _ _ _ ?_ (fun z0 => ?_)
    | with_reducible refine logOk_respond _ _ _ _ ?_
    | with_reducible refine logOk_onNamed _ _ _ _ ?_ (fun z0 => ?_)
    | with_reducible refine logOk_draw _ ?_
    | with_reducible refine logOk_next ?_
    | with_reducible refine logOk_elim _ ?_ (fun a => ?_)
    | split)

theorem logOk_execWorkQueueOpen (seq : ℕ) (s : State) (hl : LogOk s) :
    OutLog (execWorkQueueOpen seq s) := by
  unfold execWorkQueueOpen
  try dsimp only
  repeat' (first
    | with_reducible assumption
    | with_reducible refine logOk_onRequest _ _ _ _ ?_ (fun z0 z1 => ?_)
    | with_reducible refine logOk_respond _ _ _ _ ?_
    | with_reducible refine logOk_updPitch _ _ _ ?_
    | with_reducible refine logOk_next ?_
    | split)

theorem logOk_execWorkQueueClose (seq : ℕ) (s : State) (h : LogOk s) :
    OutLog (execWorkQueueClose seq s) := by
  unfold execWorkQueueClose
  try dsimp only
  repeat' (first
    | with_reducible assumption
    | with_reducible refine logOk_onRequest _ _ _ _ ?_ (fun z0 z1 => ?_)
    | with_reducible refine logOk_respond _ _ _ _ ?_
    | with_reducible refine logOk_finishClose _ _ _ _ _ ?_
    | with_reducible refine logOk_updQueue _ _ _ _ ?_
    | with_reducible refine logOk_abortConsumed _ _ _ _ _ ?_
    | with_reducible refine logOk_next ?_
    | split)

theorem logOk_execWorkAbort (seq : ℕ) (s : State) (h : LogOk s) :
    OutLog (execWorkAbort seq s) := by
  unfold execWorkAbort
  try dsimp only
  repeat' (first
    | with_reducible assumption
    | with_reducible refine logOk_onRequest _ _ _ _ ?_ (fun z0 z1 => ?_)
    | with_reducible refine logOk_respond _ _ _ _ ?_
    | with_reducible refine logOk_updQueue _ _ _ _ ?_
    | with_reducible refine logOk_abortConsumed _ _ _ _ _ ?_
    | with_reducible refine logOk_next ?_
    | split)

theorem logOk_execWorkContextSave (seq : ℕ) (s : State) (h : LogOk s) :
    OutLog (execWorkContextSave seq s) := by
  unfold execWorkContextSave
  try dsimp only
  repeat' (first
    | with_reducible assumption
    | with_reducible refine logOk_onRequest _ _ _ _ ?_ (fun z0 z1 => ?_)
    | with_reducible refine logOk_respond _ _ _ _ ?_
    | with_reducible refine logOk_updPitch _ _ _ ?_
    | with_reducible refine logOk_finishSave _ _ _ _ ?_
    | with_reducible refine logOk_next ?_
    | split)

theorem logOk_execWorkContextRestore (seq : ℕ) (s : State) (h : LogOk s) :
    OutLog (execWorkContextRestore seq s) := by
  unfold execWorkContextRestore
  try dsimp only
  repeat' (first
    | with_reducible assumption
    | with_reducible refine logOk_onRequest _ _ _ _ ?_ (fun z0 z1 => ?_)
    | with_reducible refine logOk_respond _ _ _ _ ?_
    | with_reducible refine logOk_doRestore _ _ _ ?_
    | with_reducible refine logOk_next ?_
    | with_reducible refine ExLog.of_eq ?_ (by assumption)
    | split)

theorem logOk_execSvcModelLoad (seq : ℕ) (s : State) (hl : LogOk s) :
    OutLog (execSvcModelLoad seq s) := by
  unfold execSvcModelLoad
  try dsimp only
  repeat' (first
    | with_reducible assumption
    | with_reducible refine logOk_onRequest _ _ _ _ ?_ (fun z0 z1 => ?_)
    | with_reducible refine logOk_respond _ _ _ _ ?_
    | with_reducible refine logOk_updPitch _ _ _ ?_
    | with_reducible refine logOk_next ?_
    | with_reducible refine ExLog.of_eq ?_ (by assumption)
    | split)

theorem logOk_execSvcSessionOpen (seq : ℕ) (s : State) (h : LogOk s) :
    OutLog (execSvcSessionOpen seq s) := by
  unfold execSvcSessionOpen
  try dsimp only
  repeat' (first
    | with_reducible assumption
    | with_reducible refine logOk_onRequest _ _ _ _ ?_ (fun z0 z1 => ?_)
    | with_reducible refine logOk_respond _ _ _ _ ?_
    | with_reducible refine logOk_updModel _ _ _ _ ?_
    | with_reducible refine logOk_tryWrite _ _ _ _ ?_
    | with_reducible refine logOk_next ?_
    | with_reducible refine logOk_foldl (fun s a hs => ?_) _ _ ?_
    | with_reducible refine logOk_exMap ?_ (fun t ht => ?_)
    | split)

theorem logOk_execSvcSubmit (seq : Nat) (s : State) (h : LogOk s) :
    OutLog (execSvcSubmit seq s) := by
  unfold execSvcSubmit
  try dsimp only
  repeat' (first
    | with_reducible assumption
    | with_reducible refine logOk_onRequest _ _ _ _ ?_ (fun z0 z1 => ?_)
    | with_reducible refine logOk_respond _ _ _ _ ?_
    | with_reducible refine logOk_expireSession _ _ _ _ ?_
    | with_reducible refine logOk_submit _ _ _ _ _ _ _ ?_
    | with_reducible refine logOk_next ?_
    | with_reducible refine logOk_exMap ?_ (fun t ht => ?_)
    | with_reducible refine ExLog.of_eq ?_ (by assumption)
    | split)

theorem logOk_execSvcSessionPause (seq : Nat) (s : State) (hl : LogOk s) :
    OutLog (execSvcSessionPause seq s) := by
  unfold execSvcSessionPause
  try dsimp only
  repeat' (first
    | with_reducible assumption
    | with_reducible refine logOk_onRequest _ _ _ _ ?_ (fun z0 z1 => ?_)
    | with_reducible refine logOk_respond _ _ _ _ ?_
    | with_reducible refine logOk_expireSession _ _ _ _ ?_
    | with_reducible refine logOk_startPause _ _ _ _ _ _ _ _ ?_
    | with_reducible refine logOk_next ?_
    | with_reducible refine logOk_elim _ ?_ (fun a => ?_)
    | split)

theorem logOk_execPauseRecordWritten (tag : ℕ) (model : ℕ) (session : ℕ) (s : State) (h : LogOk s) :
    OutLog (execPauseRecordWritten tag model session s) := by
  unfold execPauseRecordWritten
  try dsimp only
  repeat' (first
    | with_reducible assumption
    | with_reducible refine logOk_tryWrite _ _ _ _ ?_
    | with_reducible refine logOk_draw _ ?_
    | with_reducible refine logOk_updPitch _ _ _ ?_
    | with_reducible refine logOk_updModel _ _ _ _ ?_
    | with_reducible refine logOk_updSession _ _ _ _ _ ?_
    | with_reducible refine logOk_respond _ _ _ _ ?_
    | with_reducible refine logOk_next ?_
    | with_reducible refine logOk_elim _ ?_ (fun a => ?_)
    | with_reducible refine logOk_exMap ?_ (fun t ht => ?_)
    | with_reducible refine ExLog.of_eq ?_ (by assumption)
    | split)

theorem logOk_execSvcSessionResume (seq : Nat) (s : State) (h : LogOk s) :
    OutLog (execSvcSessionResume seq s) := by
  unfold execSvcSessionResume
  try dsimp only
  repeat' (first
    | with_reducible assumption
    | with_reducible refine logOk_onRequest _ _ _ _ ?_ (fun z0 z1 => ?_)
    | with_reducible refine logOk_respond _ _ _ _ ?_
    | with_reducible refine logOk_expireSession _ _ _ _ ?_
    | with_reducible refine logOk_dropPaused _ _ _ _ _ _ ?_
    | with_reducible refine logOk_resumeSession _ _ _ _ _ _ ?_
    | with_reducible refine logOk_next ?_
    | with_reducible refine logOk_getD ?_ ?_
    | split)

theorem logOk_execSvcSessionClose (seq : Nat) (s : State) (h : LogOk s) :
    OutLog (execSvcSessionClose seq s) := by
  unfold execSvcSessionClose
  try dsimp only
  repeat' (first
    | with_reducible assumption
    | with_reducible refine logOk_onRequest _ _ _ _ ?_ (fun z0 z1 => ?_)
    | with_reducible refine logOk_respond _ _ _ _ ?_
    | with_reducible refine logOk_finishClosing _ _ _ _ ?_
    | with_reducible refine logOk_expireSession _ _ _ _ ?_
    | with_reducible refine logOk_closePaused _ _ _ _ _ _ ?_
    | with_reducible refine logOk_startClosing _ _ _ _ _ ?_
    | with_reducible refine logOk_next ?_
    | split)

theorem logOk_execSvcBoothConfig (seq : ℕ) (s : State) (hl : LogOk s) :
    OutLog (execSvcBoothConfig seq s) := by
  unfold execSvcBoothConfig
  try dsimp only
  repeat' (first
    | with_reducible assumption
    | with_reducible refine logOk_onRequest _ _ _ _ ?_ (fun z0 z1 => ?_)
    | with_reducible refine logOk_respond _ _ _ _ ?_
    | with_reducible refine logOk_updModel _ _ _ _ ?_
    | with_reducible refine logOk_next ?_
    | split)

theorem logOk_execTrnRunConfig (seq : ℕ) (s : State) (hl : LogOk s) :
    OutLog (execTrnRunConfig seq s) := by
  unfold execTrnRunConfig
  try dsimp only
  repeat' (first
    | with_reducible assumption
    | with_reducible refine logOk_onRequest _ _ _ _ ?_ (fun z0 z1 => ?_)
    | with_reducible refine logOk_respond _ _ _ _ ?_
    | with_reducible refine logOk_updPitch _ _ _ ?_
    | with_reducible refine logOk_next ?_
    | with_reducible refine ExLog.of_eq ?_ (by assumption)
    | split)

theorem logOk_execTrnUpdateRuleSet (seq : ℕ) (s : State) (h : LogOk s) :
    OutLog (execTrnUpdateRuleSet seq s) := by
  unfold execTrnUpdateRuleSet
  try dsimp only
  repeat' (first
    | with_reducible assumption
    | with_reducible refine logOk_onRequest _ _ _ _ ?_ (fun z0 z1 => ?_)
    | with_reducible refine logOk_respond _ _ _ _ ?_
    | with_reducible refine logOk_updRun _ _ _ _ ?_
    | with_reducible refine logOk_initLayer _ _ _ _ _ _ _ ?_
    | with_reducible refine logOk_next ?_
    | with_reducible refine logOk_exMap ?_ (fun t ht => ?_)
    | with_reducible refine ExLog.of_eq ?_ (by assumption)
    | split)

theorem logOk_execTrnScheduleSet (seq : ℕ) (s : State) (hl : LogOk s) :
    OutLog (execTrnScheduleSet seq s) := by
  unfold execTrnScheduleSet
  try dsimp only
  repeat' (first
    | with_reducible assumption
    | with_reducible refine logOk_onRequest _ _ _ _ ?_ (fun z0 z1 => ?_)
    | with_reducible refine logOk_respond _ _ _ _ ?_
    | with_reducible refine logOk_startStep _ _ _ _ _ _ _ ?_
    | with_reducible refine logOk_updRun _ _ _ _ ?_
    | with_reducible refine logOk_next ?_
    | split)

theorem logOk_execTrnCheckpointConfigure (seq : ℕ) (s : State) (hl : LogOk s) :
    OutLog (execTrnCheckpointConfigure seq s) := by
  unfold execTrnCheckpointConfigure
  try dsimp only
  repeat' (first
    | with_reducible assumption
    | with_reducible refine logOk_onRequestOp _ _ _ _ _ _ _ ?_ (fun z0 z1 => ?_)
    | with_reducible refine logOk_respond _ _ _ _ ?_
    | with_reducible refine logOk_updRun _ _ _ _ ?_
    | with_reducible refine logOk_ckptAnswer _ _ _ _ ?_
    | with_reducible refine logOk_next ?_
    | with_reducible refine logOk_getD ?_ ?_
    | with_reducible refine ExLog.of_eq ?_ (by assumption)
    | split)

theorem logOk_execTrnCheckpointNow (seq : ℕ) (s : State) (hl : LogOk s) :
    OutLog (execTrnCheckpointNow seq s) := by
  unfold execTrnCheckpointNow
  try dsimp only
  repeat' (first
    | with_reducible assumption
    | with_reducible refine logOk_onRequestOp _ _ _ _ _ _ _ ?_ (fun z0 z1 => ?_)
    | with_reducible refine logOk_respond _ _ _ _ ?_
    | with_reducible refine logOk_updRun _ _ _ _ ?_
    | with_reducible refine logOk_ckptAnswer _ _ _ _ ?_
    | with_reducible refine logOk_next ?_
    | with_reducible refine logOk_exMap ?_ (fun t ht => ?_)
    | split)

theorem logOk_execTrnCheckpointRestore (seq : Nat) (s : State) (h : LogOk s) :
    OutLog (execTrnCheckpointRestore seq s) := by
  unfold execTrnCheckpointRestore
  try dsimp only
  repeat' (first
    | with_reducible assumption
    | with_reducible refine logOk_onRequestOp _ _ _ _ _ _ _ ?_ (fun z0 z1 => ?_)
    | with_reducible refine logOk_respond _ _ _ _ ?_
    | with_reducible refine logOk_loseCrusher _ _ _ ?_
    | with_reducible refine logOk_loadLayer _ _ _ _ _ ?_
    | with_reducible refine logOk_dropCkpt _ _ _ ?_
    | with_reducible refine logOk_updRun _ _ _ _ ?_
    | with_reducible refine logOk_ckptAnswer _ _ _ _ ?_
    | with_reducible refine logOk_next ?_
    | with_reducible refine logOk_foldl (fun s a hs => ?_) _ _ ?_
    | with_reducible refine logOk_getD ?_ ?_
    | with_reducible refine logOk_exMap ?_ (fun t ht => ?_)
    | with_reducible refine ExLog.of_eq ?_ (by assumption)
    | split)

theorem logOk_execTrnCheckpointQuery (seq : ℕ) (s : State) (hl : LogOk s) :
    OutLog (execTrnCheckpointQuery seq s) := by
  unfold execTrnCheckpointQuery
  try dsimp only
  repeat' (first
    | with_reducible assumption
    | with_reducible refine logOk_onRequestOp _ _ _ _ _ _ _ ?_ (fun z0 z1 => ?_)
    | with_reducible refine logOk_respond _ _ _ _ ?_
    | with_reducible refine logOk_ckptAnswer _ _ _ _ ?_
    | with_reducible refine logOk_next ?_
    | split)

theorem logOk_execTrnStepMultiplier (seq : ℕ) (s : State) (hl : LogOk s) :
    OutLog (execTrnStepMultiplier seq s) := by
  unfold execTrnStepMultiplier
  try dsimp only
  repeat' (first
    | with_reducible assumption
    | with_reducible refine logOk_onRequest _ _ _ _ ?_ (fun z0 z1 => ?_)
    | with_reducible refine logOk_respond _ _ _ _ ?_
    | with_reducible refine logOk_updRun _ _ _ _ ?_
    | with_reducible refine logOk_next ?_
    | split)

theorem logOk_execTurnPlan (seq : ℕ) (s : State) (hl : LogOk s) :
    OutLog (execTurnPlan seq s) := by
  unfold execTurnPlan
  try dsimp only
  repeat' (first
    | with_reducible assumption
    | with_reducible refine logOk_onRequest _ _ _ _ ?_ (fun z0 z1 => ?_)
    | with_reducible refine logOk_respond _ _ _ _ ?_
    | with_reducible refine logOk_updPitch _ _ _ ?_
    | with_reducible refine logOk_updModel _ _ _ _ ?_
    | with_reducible refine logOk_next ?_
    | with_reducible refine logOk_elim _ ?_ (fun a => ?_)
    | with_reducible refine ExLog.of_eq ?_ (by assumption)
    | split)

theorem logOk_execTurnStartStart (seq : ℕ) (s : State) (hl : LogOk s) :
    OutLog (execTurnStartStart seq s) := by
  unfold execTurnStartStart
  try dsimp only
  repeat' (first
    | with_reducible assumption
    | with_reducible refine logOk_onRequestOp _ _ _ _ _ _ _ ?_ (fun z0 z1 => ?_)
    | with_reducible refine logOk_respond _ _ _ _ ?_
    | with_reducible refine logOk_updPlan _ _ _ _ ?_
    | with_reducible refine logOk_planAnswer _ _ _ _ ?_
    | with_reducible refine logOk_next ?_
    | split)

theorem logOk_execTurnStartStop (seq : ℕ) (s : State) (hl : LogOk s) :
    OutLog (execTurnStartStop seq s) := by
  unfold execTurnStartStop
  try dsimp only
  repeat' (first
    | with_reducible assumption
    | with_reducible refine logOk_onRequestOp _ _ _ _ _ _ _ ?_ (fun z0 z1 => ?_)
    | with_reducible refine logOk_respond _ _ _ _ ?_
    | with_reducible refine logOk_updPlan _ _ _ _ ?_
    | with_reducible refine logOk_planAnswer _ _ _ _ ?_
    | with_reducible refine logOk_next ?_
    | split)

theorem logOk_execTurnStartContinue (seq : ℕ) (s : State) (hl : LogOk s) :
    OutLog (execTurnStartContinue seq s) := by
  unfold execTurnStartContinue
  try dsimp only
  repeat' (first
    | with_reducible assumption
    | with_reducible refine logOk_onRequestOp _ _ _ _ _ _ _ ?_ (fun z0 z1 => ?_)
    | with_reducible refine logOk_respond _ _ _ _ ?_
    | with_reducible refine logOk_updPlan _ _ _ _ ?_
    | with_reducible refine logOk_planAnswer _ _ _ _ ?_
    | with_reducible refine logOk_next ?_
    | split)

theorem logOk_execTurnStatus (seq : ℕ) (s : State) (hl : LogOk s) :
    OutLog (execTurnStatus seq s) := by
  unfold execTurnStatus
  try dsimp only
  repeat' (first
    | with_reducible assumption
    | with_reducible refine logOk_onRequest _ _ _ _ ?_ (fun z0 z1 => ?_)
    | with_reducible refine logOk_respond _ _ _ _ ?_
    | with_reducible refine logOk_planAnswer _ _ _ _ ?_
    | with_reducible refine logOk_next ?_
    | split)

theorem logOk_execTurnRewardPost (seq : ℕ) (s : State) (h : LogOk s) :
    OutLog (execTurnRewardPost seq s) := by
  unfold execTurnRewardPost
  try dsimp only
  repeat' (first
    | with_reducible assumption
    | with_reducible refine logOk_onRequest _ _ _ _ ?_ (fun z0 z1 => ?_)
    | with_reducible refine logOk_respond _ _ _ _ ?_
    | with_reducible refine logOk_setRollout _ _ _ _ ?_
    | with_reducible refine logOk_updPlan _ _ _ _ ?_
    | with_reducible refine logOk_next ?_
    | split)

theorem logOk_execFabPortSet (seq : ℕ) (s : State) (hl : LogOk s) :
    OutLog (execFabPortSet seq s) := by
  unfold execFabPortSet
  try dsimp only
  repeat' (first
    | with_reducible assumption
    | with_reducible refine logOk_onOperator _ _ _ _ ?_ (fun z0 => ?_)
    | with_reducible refine logOk_respond _ _ _ _ ?_
    | with_reducible refine logOk_setPort _ _ _ ?_
    | with_reducible refine logOk_next ?_
    | with_reducible refine logOk_foldl (fun s a hs => ?_) _ _ ?_
    | split)

theorem logOk_execFabRouteSet (seq : ℕ) (s : State) (hl : LogOk s) :
    OutLog (execFabRouteSet seq s) := by
  unfold execFabRouteSet
  try dsimp only
  repeat' (first
    | with_reducible assumption
    | with_reducible refine logOk_onOperator _ _ _ _ ?_ (fun z0 => ?_)
    | with_reducible refine logOk_respond _ _ _ _ ?_
    | with_reducible refine logOk_updDie _ _ _ ?_
    | with_reducible refine logOk_next ?_
    | with_reducible refine logOk_foldl (fun s a hs => ?_) _ _ ?_
    | with_reducible refine logOk_exMap ?_ (fun t ht => ?_)
    | split)

theorem logOk_execFabDiscoverQuery (seq : ℕ) (s : State) (hl : LogOk s) :
    OutLog (execFabDiscoverQuery seq s) := by
  unfold execFabDiscoverQuery
  try dsimp only
  repeat' (first
    | with_reducible assumption
    | with_reducible refine logOk_onOperatorOp _ _ _ _ _ _ _ ?_ (fun z0 => ?_)
    | with_reducible refine logOk_respond _ _ _ _ ?_
    | with_reducible refine logOk_next ?_
    | split)

theorem logOk_execFabDiscoverSetId (seq : ℕ) (s : State) (hl : LogOk s) :
    OutLog (execFabDiscoverSetId seq s) := by
  unfold execFabDiscoverSetId
  try dsimp only
  repeat' (first
    | with_reducible assumption
    | with_reducible refine logOk_onOperatorOp _ _ _ _ _ _ _ ?_ (fun z0 => ?_)
    | with_reducible refine logOk_respond _ _ _ _ ?_
    | with_reducible refine logOk_setFab _ _ ?_
    | with_reducible refine logOk_setPorts _ _ ?_
    | with_reducible refine logOk_sendHellos _ _ ?_
    | with_reducible refine logOk_next ?_
    | with_reducible refine logOk_exMap ?_ (fun t ht => ?_)
    | split)

theorem logOk_execFabDiscoverRefresh (seq : ℕ) (s : State) (hl : LogOk s) :
    OutLog (execFabDiscoverRefresh seq s) := by
  unfold execFabDiscoverRefresh
  try dsimp only
  repeat' (first
    | with_reducible assumption
    | with_reducible refine logOk_onOperatorOp _ _ _ _ _ _ _ ?_ (fun z0 => ?_)
    | with_reducible refine logOk_respond _ _ _ _ ?_
    | with_reducible refine logOk_sendHellos _ _ ?_
    | with_reducible refine logOk_next ?_
    | split)

theorem logOk_execFabBridgeSet (seq : ℕ) (s : State) (hl : LogOk s) :
    OutLog (execFabBridgeSet seq s) := by
  unfold execFabBridgeSet
  try dsimp only
  repeat' (first
    | with_reducible assumption
    | with_reducible refine logOk_onOperator _ _ _ _ ?_ (fun z0 => ?_)
    | with_reducible refine logOk_respond _ _ _ _ ?_
    | with_reducible refine logOk_changeSide _ _ ?_
    | with_reducible refine logOk_setFab _ _ ?_
    | with_reducible refine logOk_next ?_
    | with_reducible refine logOk_foldl (fun s a hs => ?_) _ _ ?_
    | with_reducible refine logOk_exMap ?_ (fun t ht => ?_)
    | split)

theorem logOk_execFwStageBegin (seq : Nat) (s : State) (h : LogOk s) :
    OutLog (execFwStageBegin seq s) := by
  unfold execFwStageBegin
  try dsimp only
  repeat' (first
    | with_reducible assumption
    | with_reducible refine logOk_onOperatorOp _ _ _ _ _ _ _ ?_ (fun z0 => ?_)
    | with_reducible refine logOk_respond _ _ _ _ ?_
    | with_reducible refine logOk_setFw _ _ ?_
    | with_reducible refine logOk_stageDone _ _ ?_
    | with_reducible refine logOk_next ?_
    | split)

theorem logOk_execFwStageData (seq : Nat) (s : State) (h : LogOk s) :
    OutLog (execFwStageData seq s) := by
  unfold execFwStageData
  try dsimp only
  repeat' (first
    | with_reducible assumption
    | with_reducible refine logOk_onOperatorOp _ _ _ _ _ _ _ ?_ (fun z0 => ?_)
    | with_reducible refine logOk_respond _ _ _ _ ?_
    | with_reducible refine logOk_setFw _ _ ?_
    | with_reducible refine logOk_stageDone _ _ ?_
    | with_reducible refine logOk_next ?_
    | with_reducible refine logOk_foldl (fun s a hs => ?_) _ _ ?_
    | with_reducible refine logOk_foldl_fst (fun s a hs => ?_) _ _ ?_
    | with_reducible refine logOk_exMap ?_ (fun t ht => ?_)
    | split)

theorem logOk_execFwStageVerify (seq : ℕ) (s : State) (hl : LogOk s) :
    OutLog (execFwStageVerify seq s) := by
  unfold execFwStageVerify
  try dsimp only
  repeat' (first
    | with_reducible assumption
    | with_reducible refine logOk_onOperatorOp _ _ _ _ _ _ _ ?_ (fun z0 => ?_)
    | with_reducible refine logOk_respond _ _ _ _ ?_
    | with_reducible refine logOk_setFw _ _ ?_
    | with_reducible refine logOk_stageDone _ _ ?_
    | with_reducible refine logOk_next ?_
    | split)

theorem logOk_execFwStageDiscard (seq : Nat) (s : State) (h : LogOk s) :
    OutLog (execFwStageDiscard seq s) := by
  unfold execFwStageDiscard
  try dsimp only
  repeat' (first
    | with_reducible assumption
    | with_reducible refine logOk_onOperatorOp _ _ _ _ _ _ _ ?_ (fun z0 => ?_)
    | with_reducible refine logOk_respond _ _ _ _ ?_
    | with_reducible refine logOk_setFw _ _ ?_
    | with_reducible refine logOk_stageDone _ _ ?_
    | with_reducible refine logOk_next ?_
    | split)

theorem logOk_execFwStageQuery (seq : ℕ) (s : State) (hl : LogOk s) :
    OutLog (execFwStageQuery seq s) := by
  unfold execFwStageQuery
  try dsimp only
  repeat' (first
    | with_reducible assumption
    | with_reducible refine logOk_onOperatorOp _ _ _ _ _ _ _ ?_ (fun z0 => ?_)
    | with_reducible refine logOk_respond _ _ _ _ ?_
    | with_reducible refine logOk_stageDone _ _ ?_
    | with_reducible refine logOk_next ?_
    | split)

theorem logOk_execFwActivate (seq : ℕ) (s : State) (hl : LogOk s) :
    OutLog (execFwActivate seq s) := by
  unfold execFwActivate
  try dsimp only
  repeat' (first
    | with_reducible assumption
    | with_reducible refine logOk_onOperator _ _ _ _ ?_ (fun z0 => ?_)
    | with_reducible refine logOk_handoverStep _ _ ?_
    | with_reducible refine logOk_respond _ _ _ _ ?_
    | with_reducible refine logOk_startRewrite _ _ _ ?_
    | with_reducible refine logOk_activateStaged _ _ _ _ ?_
    | with_reducible refine logOk_next ?_
    | split)

theorem logOk_execFlashRewriteDone (good : Bool) (s : State) (h : LogOk s) :
    OutLog (execFlashRewriteDone good s) := by
  unfold execFlashRewriteDone
  try dsimp only
  repeat' (first
    | with_reducible assumption
    | with_reducible refine logOk_setFw _ _ ?_
    | with_reducible refine logOk_control _ _ _ ?_
    | with_reducible refine logOk_bootNow _ ?_
    | with_reducible refine logOk_respond _ _ _ _ ?_
    | with_reducible refine logOk_logNote _ _ _ _ _ _ _ ?_
    | with_reducible refine logOk_next ?_
    | with_reducible refine logOk_elim _ ?_ (fun a => ?_)
    | split)

theorem logOk_execStandbyReadyTimeout (s : State) (hl : LogOk s) :
    OutLog (execStandbyReadyTimeout s) := by
  unfold execStandbyReadyTimeout
  try dsimp only
  repeat' (first
    | with_reducible assumption
    | with_reducible refine logOk_dropHandover _ _ _ ?_
    | with_reducible refine logOk_next ?_
    | split)

theorem logOk_execHandoverBoundaryTimeout (s : State) (hl : LogOk s) :
    OutLog (execHandoverBoundaryTimeout s) := by
  unfold execHandoverBoundaryTimeout
  try dsimp only
  repeat' (first
    | with_reducible assumption
    | with_reducible refine logOk_dropHandover _ _ _ ?_
    | with_reducible refine logOk_next ?_
    | split)

theorem logOk_execAttestQuote (seq : ℕ) (s : State) (hl : LogOk s) :
    OutLog (execAttestQuote seq s) := by
  unfold execAttestQuote
  try dsimp only
  repeat' (first
    | with_reducible assumption
    | with_reducible refine logOk_onOperator _ _ _ _ ?_ (fun z0 => ?_)
    | with_reducible refine logOk_respond _ _ _ _ ?_
    | with_reducible refine logOk_signQuote _ _ _ _ ?_
    | with_reducible refine logOk_onNamed _ _ _ _ ?_ (fun z0 => ?_)
    | with_reducible refine logOk_next ?_
    | split)

theorem logOk_execDevIdentity (seq : ℕ) (s : State) (hl : LogOk s) :
    OutLog (execDevIdentity seq s) := by
  unfold execDevIdentity
  try dsimp only
  repeat' (first
    | with_reducible assumption
    | with_reducible refine logOk_onOperator _ _ _ _ ?_ (fun z0 => ?_)
    | with_reducible refine logOk_respond _ _ _ _ ?_
    | with_reducible refine logOk_draw _ ?_
    | with_reducible refine logOk_next ?_
    | split)

theorem logOk_execBistRun (seq : ℕ) (s : State) (hl : LogOk s) :
    OutLog (execBistRun seq s) := by
  unfold execBistRun
  try dsimp only
  repeat' (first
    | with_reducible assumption
    | with_reducible refine logOk_onOperator _ _ _ _ ?_ (fun z0 => ?_)
    | with_reducible refine logOk_respond _ _ _ _ ?_
    | with_reducible refine logOk_startTest _ _ _ _ _ _ _ ?_
    | with_reducible refine logOk_next ?_
    | split)

theorem logOk_execRepairSoft (seq : ℕ) (s : State) (h : LogOk s) :
    OutLog (execRepairSoft seq s) := by
  unfold execRepairSoft
  try dsimp only
  repeat' (first
    | with_reducible assumption
    | with_reducible refine logOk_onOperator _ _ _ _ ?_ (fun z0 => ?_)
    | with_reducible refine logOk_respond _ _ _ _ ?_
    | with_reducible refine logOk_repairDie _ _ _ ?_
    | with_reducible refine logOk_next ?_
    | with_reducible refine logOk_foldl (fun s a hs => ?_) _ _ ?_
    | with_reducible refine logOk_foldl_fst (fun s a hs => ?_) _ _ ?_
    | split)

theorem logOk_execRepairFuse (seq : Nat) (s : State) (hl : LogOk s) :
    OutLog (execRepairFuse seq s) := by
  unfold execRepairFuse
  try dsimp only
  repeat' (first
    | with_reducible assumption
    | with_reducible refine logOk_onOperator _ _ _ _ ?_ (fun z0 => ?_)
    | with_reducible refine logOk_respond _ _ _ _ ?_
    | with_reducible refine logOk_fuseNext _ _ _ ?_
    | with_reducible refine logOk_next ?_
    | split)

theorem logOk_execBistResult (seq : ℕ) (s : State) (hl : LogOk s) :
    OutLog (execBistResult seq s) := by
  unfold execBistResult
  try dsimp only
  repeat' (first
    | with_reducible assumption
    | with_reducible refine logOk_onOperator _ _ _ _ ?_ (fun z0 => ?_)
    | with_reducible refine logOk_respond _ _ _ _ ?_
    | with_reducible refine logOk_next ?_
    | split)

theorem logOk_execPwrDieStateQuery (seq : ℕ) (s : State) (hl : LogOk s) :
    OutLog (execPwrDieStateQuery seq s) := by
  unfold execPwrDieStateQuery
  try dsimp only
  repeat' (first
    | with_reducible assumption
    | with_reducible refine logOk_onDies _ _ _ _ _ _ ?_ (fun z0 z1 => ?_)
    | with_reducible refine logOk_diesDone _ _ _ ?_
    | with_reducible refine logOk_next ?_)

theorem logOk_execPwrDieStateSetCap (seq : ℕ) (s : State) (hl : LogOk s) :
    OutLog (execPwrDieStateSetCap seq s) := by
  unfold execPwrDieStateSetCap
  try dsimp only
  repeat' (first
    | with_reducible assumption
    | with_reducible refine logOk_onDies _ _ _ _ _ _ ?_ (fun z0 z1 => ?_)
    | with_reducible refine logOk_updDie _ _ _ ?_
    | with_reducible refine logOk_diesDone _ _ _ ?_
    | with_reducible refine logOk_next ?_
    | with_reducible refine logOk_foldl (fun s a hs => ?_) _ _ ?_)

theorem logOk_execPwrDieStateSetIdle (seq : ℕ) (s : State) (hl : LogOk s) :
    OutLog (execPwrDieStateSetIdle seq s) := by
  unfold execPwrDieStateSetIdle
  try dsimp only
  repeat' (first
    | with_reducible assumption
    | with_reducible refine logOk_onDies _ _ _ _ _ _ ?_ (fun z0 z1 => ?_)
    | with_reducible refine logOk_updDie _ _ _ ?_
    | with_reducible refine logOk_diesDone _ _ _ ?_
    | with_reducible refine logOk_next ?_
    | with_reducible refine logOk_foldl (fun s a hs => ?_) _ _ ?_)

theorem logOk_execPwrDieStateDrain (seq : ℕ) (s : State) (h : LogOk s) :
    OutLog (execPwrDieStateDrain seq s) := by
  unfold execPwrDieStateDrain
  try dsimp only
  repeat' (first
    | with_reducible assumption
    | with_reducible refine logOk_onDies _ _ _ _ _ _ ?_ (fun z0 z1 => ?_)
    | with_reducible refine logOk_respond _ _ _ _ ?_
    | with_reducible refine logOk_startDrain _ _ ?_
    | with_reducible refine logOk_updPitch _ _ _ ?_
    | with_reducible refine logOk_beginMove _ _ _ ?_
    | with_reducible refine logOk_diesDone _ _ _ ?_
    | with_reducible refine logOk_next ?_
    | with_reducible refine logOk_foldl (fun s a hs => ?_) _ _ ?_
    | with_reducible refine logOk_foldl_fst (fun s a hs => ?_) _ _ ?_
    | split)

theorem logOk_execPwrDieStateReturn (seq : ℕ) (s : State) (h : LogOk s) :
    OutLog (execPwrDieStateReturn seq s) := by
  unfold execPwrDieStateReturn
  try dsimp only
  repeat' (first
    | with_reducible assumption
    | with_reducible refine logOk_onDies _ _ _ _ _ _ ?_ (fun z0 z1 => ?_)
    | with_reducible refine logOk_respond _ _ _ _ ?_
    | with_reducible refine logOk_updDie _ _ _ ?_
    | with_reducible refine logOk_beginMove _ _ _ ?_
    | with_reducible refine logOk_diesDone _ _ _ ?_
    | with_reducible refine logOk_next ?_
    | with_reducible refine logOk_foldl (fun s a hs => ?_) _ _ ?_
    | with_reducible refine logOk_foldl_fst (fun s a hs => ?_) _ _ ?_
    | with_reducible refine logOk_exMap ?_ (fun t ht => ?_)
    | split)

theorem logOk_execPwrDieStateOff (seq : ℕ) (s : State) (h : LogOk s) :
    OutLog (execPwrDieStateOff seq s) := by
  unfold execPwrDieStateOff
  try dsimp only
  repeat' (first
    | with_reducible assumption
    | with_reducible refine logOk_onDies _ _ _ _ _ _ ?_ (fun z0 z1 => ?_)
    | with_reducible refine logOk_respond _ _ _ _ ?_
    | with_reducible refine logOk_loseDie _ _ ?_
    | with_reducible refine logOk_updDie _ _ _ ?_
    | with_reducible refine logOk_diesDone _ _ _ ?_
    | with_reducible refine logOk_next ?_
    | with_reducible refine logOk_foldl (fun s a hs => ?_) _ _ ?_
    | split)

theorem logOk_execPwrDieStateKeeperOnly (seq : ℕ) (s : State) (h : LogOk s) :
    OutLog (execPwrDieStateKeeperOnly seq s) := by
  unfold execPwrDieStateKeeperOnly
  try dsimp only
  repeat' (first
    | with_reducible assumption
    | with_reducible refine logOk_onOperatorOp _ _ _ _ _ _ _ ?_ (fun z0 => ?_)
    | with_reducible refine logOk_respond _ _ _ _ ?_
    | with_reducible refine logOk_keeperOnly _ _ ?_
    | with_reducible refine logOk_next ?_
    | split)

theorem logOk_execPwrDieStateExit (seq : ℕ) (s : State) (hl : LogOk s) :
    OutLog (execPwrDieStateExit seq s) := by
  unfold execPwrDieStateExit
  try dsimp only
  repeat' (first
    | with_reducible assumption
    | with_reducible refine logOk_onOperatorOp _ _ _ _ _ _ _ ?_ (fun z0 => ?_)
    | with_reducible refine logOk_respond _ _ _ _ ?_
    | with_reducible refine logOk_keeperOnly _ _ ?_
    | with_reducible refine logOk_exitKeeperOnly _ ?_
    | with_reducible refine logOk_next ?_
    | split)

theorem logOk_execTelemetryRead (seq : ℕ) (s : State) (hl : LogOk s) :
    OutLog (execTelemetryRead seq s) := by
  unfold execTelemetryRead
  try dsimp only
  repeat' (first
    | with_reducible assumption
    | with_reducible refine logOk_onOperator _ _ _ _ ?_ (fun z0 => ?_)
    | with_reducible refine logOk_respond _ _ _ _ ?_
    | with_reducible refine logOk_next ?_
    | split)

theorem logOk_execEventLogRead (seq : ℕ) (s : State) (hl : LogOk s) :
    OutLog (execEventLogRead seq s) := by
  unfold execEventLogRead
  try dsimp only
  repeat' (first
    | with_reducible assumption
    | with_reducible refine logOk_onOperator _ _ _ _ ?_ (fun z0 => ?_)
    | with_reducible refine logOk_respond _ _ _ _ ?_
    | with_reducible refine logOk_next ?_
    | split)

theorem logOk_execLogicalClusterMove (tag : ℕ) (lcluster : ℕ) (s : State) (h : LogOk s) :
    OutLog (execLogicalClusterMove tag lcluster s) := by
  unfold execLogicalClusterMove
  try dsimp only
  repeat' (first
    | with_reducible assumption
    | with_reducible refine logOk_applyMove _ _ _ ?_
    | with_reducible refine logOk_moveDone _ _ ?_
    | with_reducible refine logOk_next ?_
    | split)

theorem logOk_execDoorbell (tag : ℕ) (queue : ℕ) (value : ℕ) (s : State) (hl : LogOk s) :
    OutLog (execDoorbell tag queue value s) := by
  unfold execDoorbell
  try dsimp only
  repeat' (first
    | with_reducible assumption
    | with_reducible refine logOk_updQueue _ _ _ _ ?_
    | with_reducible refine logOk_next ?_)

theorem logOk_execAckWr (tag : ℕ) (queue : ℕ) (value : ℕ) (s : State) (hl : LogOk s) :
    OutLog (execAckWr tag queue value s) := by
  unfold execAckWr
  try dsimp only
  repeat' (first
    | with_reducible assumption
    | with_reducible refine logOk_updQueue _ _ _ _ ?_
    | with_reducible refine logOk_next ?_)

theorem logOk_execControlPageWriteInvalid (tag : ℕ) (queue : ℕ) (offset : ℕ) (data : Bytes) (s : State) (hl : LogOk s) :
    OutLog (execControlPageWriteInvalid tag queue offset data s) := by
  unfold execControlPageWriteInvalid
  try dsimp only
  repeat' (first
    | with_reducible assumption
    | with_reducible refine logOk_writePage _ _ _ _ _ ?_
    | with_reducible refine logOk_next ?_
    | split)

theorem logOk_execDescriptorConsume (tag : ℕ) (queue : ℕ) (s : State) (h : LogOk s) :
    OutLog (execDescriptorConsume tag queue s) := by
  unfold execDescriptorConsume
  try dsimp only
  repeat' (first
    | with_reducible assumption
    | with_reducible refine logOk_updPitch _ _ _ ?_
    | with_reducible refine logOk_updQueue _ _ _ _ ?_
    | with_reducible refine logOk_logBadRead _ _ _ ?_
    | with_reducible refine logOk_completeItem _ _ ?_
    | with_reducible refine logOk_abortWhole _ _ _ ?_
    | with_reducible refine logOk_next ?_
    | with_reducible refine logOk_elim _ ?_ (fun a => ?_)
    | split)

theorem logOk_execItemReady (key : ItemKey) (s : State) (h : LogOk s) :
    OutLog (execItemReady key s) := by
  unfold execItemReady
  try dsimp only
  repeat' (first
    | with_reducible assumption
    | with_reducible refine logOk_onItem _ _ _ ?_ (fun z0 z1 => ?_)
    | with_reducible refine logOk_abortNow _ _ ?_
    | with_reducible refine logOk_updItem _ _ _ ?_
    | with_reducible refine logOk_next ?_
    | split)

theorem logOk_execItemStaged (key : ItemKey) (s : State) (hl : LogOk s) :
    OutLog (execItemStaged key s) := by
  unfold execItemStaged
  try dsimp only
  repeat' (first
    | with_reducible assumption
    | with_reducible refine logOk_onItem _ _ _ ?_ (fun z0 z1 => ?_)
    | with_reducible refine logOk_updItem _ _ _ ?_
    | with_reducible refine logOk_fetchAbroad _ _ _ ?_
    | with_reducible refine logOk_next ?_
    | split)

theorem logOk_execCarouselDispatch (place : Place) (engine : Engine) (s : State) (hl : LogOk s) :
    OutLog (execCarouselDispatch place engine s) := by
  unfold execCarouselDispatch
  try dsimp only
  repeat' (first
    | with_reducible assumption
    | with_reducible refine logOk_giveEngine _ _ _ _ ?_
    | with_reducible refine logOk_next ?_
    | split)

theorem logOk_execClusterWake (place : Place) (s : State) (hl : LogOk s) :
    OutLog (execClusterWake place s) := by
  unfold execClusterWake
  try dsimp only
  repeat' (first
    | with_reducible assumption
    | with_reducible refine logOk_updDie _ _ _ ?_
    | with_reducible refine logOk_updCluster _ _ _ ?_
    | with_reducible refine logOk_next ?_
    | split)

theorem logOk_execMma (key : ItemKey) (s : State) (h : LogOk s) :
    OutLog (execMma key s) := by
  unfold execMma
  try dsimp only
  repeat' (first
    | with_reducible assumption
    | with_reducible refine logOk_onItem _ _ _ ?_ (fun z0 z1 => ?_)
    | with_reducible refine logOk_failMemory _ _ _ ?_
    | with_reducible refine logOk_updCluster _ _ _ ?_
    | with_reducible refine logOk_updItem _ _ _ ?_
    | with_reducible refine logOk_draw _ ?_
    | with_reducible refine logOk_next ?_
    | with_reducible refine ExLog.of_eq ?_ (by assumption)
    | split)

theorem logOk_execArrayTileHandoff (key : ItemKey) (s : State) (h : LogOk s) :
    OutLog (execArrayTileHandoff key s) := by
  unfold execArrayTileHandoff
  try dsimp only
  repeat' (first
    | with_reducible assumption
    | with_reducible refine logOk_onItem _ _ _ ?_ (fun z0 z1 => ?_)
    | with_reducible refine logOk_failMemory _ _ _ ?_
    | with_reducible refine logOk_tileToSlot _ _ _ _ _ ?_
    | with_reducible refine logOk_updItem _ _ _ ?_
    | with_reducible refine logOk_tileDone _ _ _ _ _ ?_
    | with_reducible refine logOk_tileStrip _ _ _ _ _ _ _ ?_
    | with_reducible refine logOk_next ?_
    | with_reducible refine logOk_foldKeep_fst (fun s a hs => ?_) _ _ ?_
    | with_reducible refine logOk_foldKeep (fun s a hs => ?_) _ _ ?_
    | split)

theorem logOk_execEwOperation (key : ItemKey) (s : State) (h : LogOk s) :
    OutLog (execEwOperation key s) := by
  unfold execEwOperation
  try dsimp only
  repeat' (first
    | with_reducible assumption
    | with_reducible refine logOk_onItem _ _ _ ?_ (fun z0 z1 => ?_)
    | with_reducible refine logOk_ewUnit _ _ _ _ _ _ _ _ ?_
    | with_reducible refine logOk_failMemory _ _ _ ?_
    | with_reducible refine logOk_endRun _ _ _ ?_
    | with_reducible refine logOk_next ?_
    | split)

theorem logOk_execMvp (key : ItemKey) (s : State) (h : LogOk s) :
    OutLog (execMvp key s) := by
  unfold execMvp
  try dsimp only
  repeat' (first
    | with_reducible assumption
    | with_reducible refine logOk_onItem _ _ _ ?_ (fun z0 z1 => ?_)
    | with_reducible refine logOk_failMemory _ _ _ ?_
    | with_reducible refine logOk_updCluster _ _ _ ?_
    | with_reducible refine logOk_draw _ ?_
    | with_reducible refine logOk_next ?_
    | with_reducible refine ExLog.of_eq ?_ (by assumption)
    | split)

theorem logOk_execMvpStripHandoff (key : ItemKey) (s : State) (h : LogOk s) :
    OutLog (execMvpStripHandoff key s) := by
  unfold execMvpStripHandoff
  try dsimp only
  repeat' (first
    | with_reducible assumption
    | with_reducible refine logOk_onItem _ _ _ ?_ (fun z0 z1 => ?_)
    | with_reducible refine logOk_updCluster _ _ _ ?_
    | with_reducible refine logOk_tileStrip _ _ _ _ _ _ _ ?_
    | with_reducible refine logOk_failMemory _ _ _ ?_
    | with_reducible refine logOk_stripDone _ _ _ _ _ ?_
    | with_reducible refine logOk_next ?_
    | with_reducible refine logOk_foldKeep_fst (fun s a hs => ?_) _ _ ?_
    | with_reducible refine logOk_foldKeep (fun s a hs => ?_) _ _ ?_
    | with_reducible refine logOk_getD ?_ ?_
    | with_reducible refine logOk_exMap ?_ (fun t ht => ?_)
    | split)

theorem logOk_execVec (key : ItemKey) (s : State) (h : LogOk s) :
    OutLog (execVec key s) := by
  unfold execVec
  try dsimp only
  repeat' (first
    | with_reducible assumption
    | with_reducible refine logOk_onItem _ _ _ ?_ (fun z0 z1 => ?_)
    | with_reducible refine logOk_endRun _ _ _ ?_
    | with_reducible refine logOk_vecStrip _ _ _ _ _ _ ?_
    | with_reducible refine logOk_next ?_
    | with_reducible refine logOk_foldKeep_fst (fun s a hs => ?_) _ _ ?_
    | with_reducible refine logOk_foldKeep (fun s a hs => ?_) _ _ ?_
    | split)

theorem logOk_execSample (key : ItemKey) (s : State) (h : LogOk s) :
    OutLog (execSample key s) := by
  unfold execSample
  try dsimp only
  repeat' (first
    | with_reducible assumption
    | with_reducible refine logOk_onItem _ _ _ ?_ (fun z0 z1 => ?_)
    | with_reducible refine logOk_endRun _ _ _ ?_
    | with_reducible refine logOk_sampleRow _ _ _ _ _ _ ?_
    | with_reducible refine logOk_next ?_
    | with_reducible refine logOk_foldKeep_fst (fun s a hs => ?_) _ _ ?_
    | with_reducible refine logOk_foldKeep (fun s a hs => ?_) _ _ ?_
    | split)

theorem logOk_execLogsoftmax (key : ItemKey) (s : State) (h : LogOk s) :
    OutLog (execLogsoftmax key s) := by
  unfold execLogsoftmax
  try dsimp only
  repeat' (first
    | with_reducible assumption
    | with_reducible refine logOk_onItem _ _ _ ?_ (fun z0 z1 => ?_)
    | with_reducible refine logOk_endRun _ _ _ ?_
    | with_reducible refine logOk_lsmRow _ _ _ _ _ _ _ ?_
    | with_reducible refine logOk_next ?_
    | with_reducible refine logOk_foldKeep_fst (fun s a hs => ?_) _ _ ?_
    | with_reducible refine logOk_foldKeep (fun s a hs => ?_) _ _ ?_
    | split)

theorem logOk_execMove (key : ItemKey) (s : State) (h : LogOk s) :
    OutLog (execMove key s) := by
  unfold execMove
  try dsimp only
  repeat' (first
    | with_reducible assumption
    | with_reducible refine logOk_onItem _ _ _ ?_ (fun z0 z1 => ?_)
    | with_reducible refine logOk_endRun _ _ _ ?_
    | with_reducible refine logOk_compressMove _ _ _ _ _ ?_
    | with_reducible refine logOk_failMemory _ _ _ ?_
    | with_reducible refine logOk_failCodec _ _ _ ?_
    | with_reducible refine logOk_streamStrip _ _ _ _ ?_
    | with_reducible refine logOk_copyRecord _ _ _ _ _ _ ?_
    | with_reducible refine logOk_copyStrip _ _ _ _ _ _ _ ?_
    | with_reducible refine logOk_convertMove _ _ _ _ _ _ _ _ ?_
    | with_reducible refine logOk_next ?_
    | with_reducible refine logOk_foldKeep_fst (fun s a hs => ?_) _ _ ?_
    | with_reducible refine logOk_foldKeep (fun s a hs => ?_) _ _ ?_
    | with_reducible refine ExLog.of_eq ?_ (by assumption)
    | split)

theorem logOk_execCollective (key : ItemKey) (s : State) (h : LogOk s) :
    OutLog (execCollective key s) := by
  unfold execCollective
  try dsimp only
  repeat' (first
    | with_reducible assumption
    | with_reducible refine logOk_onItem _ _ _ ?_ (fun z0 z1 => ?_)
    | with_reducible refine logOk_leaveEngine _ _ _ ?_
    | with_reducible refine logOk_abortWhole _ _ _ ?_
    | with_reducible refine logOk_refuseContributor _ _ _ ?_
    | with_reducible refine logOk_failMemory _ _ _ ?_
    | with_reducible refine logOk_register _ _ _ _ _ ?_
    | with_reducible refine logOk_next ?_
    | with_reducible refine logOk_elim _ ?_ (fun a => ?_)
    | with_reducible refine ExLog.of_eq ?_ (by assumption)
    | split)

theorem logOk_execCollectivePass1AtRoot (tag : ℕ) (ident : ℕ) (s : State) (hl : LogOk s) :
    OutLog (execCollectivePass1AtRoot tag ident s) := by
  unfold execCollectivePass1AtRoot
  try dsimp only
  repeat' (first
    | with_reducible assumption
    | with_reducible refine logOk_updColl _ _ _ _ ?_
    | with_reducible refine logOk_tellDown _ _ _ _ ?_
    | with_reducible refine logOk_next ?_
    | with_reducible refine logOk_getD ?_ ?_
    | split)

theorem logOk_execCollectiveAnchorReceived (key : ItemKey) (s : State) (h : LogOk s) :
    OutLog (execCollectiveAnchorReceived key s) := by
  unfold execCollectiveAnchorReceived
  try dsimp only
  repeat' (first
    | with_reducible assumption
    | with_reducible refine logOk_onItem _ _ _ ?_ (fun z0 z1 => ?_)
    | with_reducible refine logOk_failMemory _ _ _ ?_
    | with_reducible refine logOk_updColl _ _ _ _ ?_
    | with_reducible refine logOk_secondUp _ _ _ _ _ _ ?_
    | with_reducible refine logOk_next ?_
    | with_reducible refine logOk_elim _ ?_ (fun a => ?_)
    | with_reducible refine ExLog.of_eq ?_ (by assumption)
    | split)

theorem logOk_execCollectiveResultWritten (tag ident : ℕ) (s : State) (h : LogOk s) :
    OutLog (execCollectiveResultWritten tag ident s) := by
  have hf : ∀ (c : Coll) (l : List (List ℤ × ℕ)) (a r : State × ℕ), LogOk a.1 →
      foldE (c.writeStrip tag) a l = .ok r → LogOk r.1 := by
    intro c l
    induction l with
    | nil => intro a r ha e; simp only [foldE] at e; exact Except.ok.inj e ▸ ha
    | cons x l ih =>
      intro a r ha e
      simp only [foldE] at e
      split at e
      · exact absurd e (by simp)
      · rename_i e1
        exact ih _ _ (logOk_collWriteStrip _ _ _ _ ha e1) e
  unfold execCollectiveResultWritten
  refine logOk_next ?_
  split
  · exact h
  · split
    · split
      · rename_i e
        exact logOk_endColl _ _ _ _ (logOk_spoilAddrs _ _ _ _ (hf _ _ _ _ h e))
      · exact logOk_endColl _ _ _ _ (logOk_spoilAddrs _ _ _ _ (logOk_undefineTensor _ _ _ _ _ h))
    · exact h

theorem logOk_execRand (key : ItemKey) (s : State) (h : LogOk s) :
    OutLog (execRand key s) := by
  unfold execRand
  try dsimp only
  repeat' (first
    | with_reducible assumption
    | with_reducible refine logOk_onItem _ _ _ ?_ (fun z0 z1 => ?_)
    | with_reducible refine logOk_endRun _ _ _ ?_
    | with_reducible refine logOk_randStrip _ _ _ _ _ ?_
    | with_reducible refine logOk_next ?_
    | with_reducible refine logOk_foldKeep_fst (fun s a hs => ?_) _ _ ?_
    | with_reducible refine logOk_foldKeep (fun s a hs => ?_) _ _ ?_
    | split)

theorem logOk_execSignal (key : ItemKey) (s : State) (h : LogOk s) :
    OutLog (execSignal key s) := by
  unfold execSignal
  try dsimp only
  repeat' (first
    | with_reducible assumption
    | with_reducible refine logOk_onItem _ _ _ ?_ (fun z0 z1 => ?_)
    | with_reducible refine logOk_abortNow _ _ ?_
    | with_reducible refine logOk_completeQueueItem _ _ _ ?_
    | with_reducible refine logOk_next ?_
    | split)

theorem logOk_execWait (key : ItemKey) (s : State) (h : LogOk s) :
    OutLog (execWait key s) := by
  unfold execWait
  try dsimp only
  repeat' (first
    | with_reducible assumption
    | with_reducible refine logOk_onItem _ _ _ ?_ (fun z0 z1 => ?_)
    | with_reducible refine logOk_abortNow _ _ ?_
    | with_reducible refine logOk_completeQueueItem _ _ _ ?_
    | with_reducible refine logOk_next ?_
    | split)

theorem logOk_execItemComplete (key : ItemKey) (s : State) (h : LogOk s) :
    OutLog (execItemComplete key s) := by
  unfold execItemComplete
  try dsimp only
  repeat' (first
    | with_reducible assumption
    | with_reducible refine logOk_onItem _ _ _ ?_ (fun z0 z1 => ?_)
    | with_reducible refine logOk_updItem _ _ _ ?_
    | with_reducible refine logOk_storeAbroad _ _ _ ?_
    | with_reducible refine logOk_completeItem _ _ ?_
    | with_reducible refine logOk_next ?_
    | split)

theorem logOk_execRunningItemAbortStop (key : ItemKey) (s : State) (h : LogOk s) :
    OutLog (execRunningItemAbortStop key s) := by
  unfold execRunningItemAbortStop
  try dsimp only
  repeat' (first
    | with_reducible assumption
    | with_reducible refine logOk_onItem _ _ _ ?_ (fun z0 z1 => ?_)
    | with_reducible refine logOk_failItem _ _ _ ?_
    | with_reducible refine logOk_abortWhole _ _ _ ?_
    | with_reducible refine logOk_next ?_
    | split)

theorem logOk_execStridedGapFault (key : ItemKey) (s : State) (h : LogOk s) :
    OutLog (execStridedGapFault key s) := by
  unfold execStridedGapFault
  try dsimp only
  repeat' (first
    | with_reducible assumption
    | with_reducible refine logOk_onItem _ _ _ ?_ (fun z0 z1 => ?_)
    | with_reducible refine logOk_failItem _ _ _ ?_
    | with_reducible refine logOk_next ?_
    | split)

theorem logOk_execScaleRecheckFail (key : ItemKey) (s : State) (h : LogOk s) :
    OutLog (execScaleRecheckFail key s) := by
  unfold execScaleRecheckFail
  try dsimp only
  repeat' (first
    | with_reducible assumption
    | with_reducible refine logOk_onItem _ _ _ ?_ (fun z0 z1 => ?_)
    | with_reducible refine logOk_failItem _ _ _ ?_
    | with_reducible refine logOk_next ?_
    | split)

theorem logOk_execUncorrectableRead (key : ItemKey) (at_ : BadRead) (s : State) (h : LogOk s) :
    OutLog (execUncorrectableRead key at_ s) := by
  unfold execUncorrectableRead
  try dsimp only
  repeat' (first
    | with_reducible assumption
    | with_reducible refine logOk_onItem _ _ _ ?_ (fun z0 z1 => ?_)
    | with_reducible refine logOk_setBad _ _ ?_
    | with_reducible refine logOk_logFact _ _ _ _ _ _ _ ?_
    | with_reducible refine logOk_failItem _ _ _ ?_
    | with_reducible refine logOk_updCluster _ _ _ ?_
    | with_reducible refine logOk_logNote _ _ _ _ _ _ _ ?_
    | with_reducible refine logOk_next ?_
    | split)

theorem logOk_execCorrectedErrorWriteback (die : Nat) (place : ErrorAt) (s : State) (hl : LogOk s) :
    OutLog (execCorrectedErrorWriteback die place s) := by
  unfold execCorrectedErrorWriteback
  try dsimp only
  repeat' (first
    | with_reducible assumption
    | with_reducible refine logOk_updDie _ _ _ ?_
    | with_reducible refine logOk_next ?_
    | split)

theorem logOk_execPatrolScrub (die : Nat) (place : StorePlace) (symbols : Nat) (s : State) (hl : LogOk s) :
    OutLog (execPatrolScrub die place symbols s) := by
  unfold execPatrolScrub
  try dsimp only
  repeat' (first
    | with_reducible assumption
    | with_reducible refine logOk_dramNeed _ _ ?_
    | with_reducible refine logOk_updDie _ _ _ ?_
    | with_reducible refine logOk_scrubFoundAt _ _ _ ?_
    | with_reducible refine logOk_next ?_
    | split)

theorem logOk_execRowRepairInService (die : ℕ) (kind : ℕ) (row : ℕ) (s : State) (hl : LogOk s) :
    OutLog (execRowRepairInService die kind row s) := by
  unfold execRowRepairInService
  try dsimp only
  repeat' (first
    | with_reducible assumption
    | with_reducible refine logOk_logNote _ _ _ _ _ _ _ ?_
    | with_reducible refine logOk_updDie _ _ _ ?_
    | with_reducible refine logOk_recordRow _ _ _ _ ?_
    | with_reducible refine logOk_next ?_
    | split)

theorem logOk_execLogicalClusterSwitch (place : Place) (lcluster : ℕ) (s : State) (h : LogOk s) :
    OutLog (execLogicalClusterSwitch place lcluster s) := by
  unfold execLogicalClusterSwitch
  try dsimp only
  repeat' (first
    | with_reducible assumption
    | with_reducible refine logOk_swapLogical _ _ _ _ _ ?_
    | with_reducible refine logOk_next ?_
    | with_reducible refine logOk_elim _ ?_ (fun a => ?_)
    | split)

theorem logOk_execClusterDoze (place : Place) (s : State) (hl : LogOk s) :
    OutLog (execClusterDoze place s) := by
  unfold execClusterDoze
  try dsimp only
  repeat' (first
    | with_reducible assumption
    | with_reducible refine logOk_updCluster _ _ _ ?_
    | with_reducible refine logOk_next ?_
    | split)

theorem logOk_execClusterRest (place : Place) (s : State) (hl : LogOk s) :
    OutLog (execClusterRest place s) := by
  unfold execClusterRest
  try dsimp only
  repeat' (first
    | with_reducible assumption
    | with_reducible refine logOk_updCluster _ _ _ ?_
    | with_reducible refine logOk_updDie _ _ _ ?_
    | with_reducible refine logOk_next ?_
    | split)

theorem logOk_execDramPllStop (die : ℕ) (s : State) (hl : LogOk s) :
    OutLog (execDramPllStop die s) := by
  unfold execDramPllStop
  try dsimp only
  repeat' (first
    | with_reducible assumption
    | with_reducible refine logOk_updDie _ _ _ ?_
    | with_reducible refine logOk_next ?_
    | with_reducible refine logOk_elim _ ?_ (fun a => ?_)
    | split)

theorem logOk_formDraft (tag target step : Nat) (d : Model) (f : Forming) (sid : Nat) (h : LogOk f.s) :
    LogOk (formDraft tag target step d f sid).s := by
  unfold formDraft
  split
  · dsimp only; split
    · exact h
    · exact logOk_updPitch _ _ _ h
  · exact h

theorem logOk_formFold {g : Forming → Nat → Forming} (hg : ∀ f sid, LogOk f.s → LogOk (g f sid).s) (l : List Nat) (f : Forming)
    (h : LogOk f.s) : LogOk (l.foldl g f).s := by
  induction l generalizing f with
  | nil => exact h
  | cons x l ih => exact ih _ (hg f x h)

theorem logOk_formSessions (s : State) (tag : Nat) (p : Pitch) (m : Model) (h : LogOk s) : LogOk (s.formSessions tag p m).s :=
  logOk_formFold (fun _ _ => logOk_formPrefill _ _ _ _ _) _ _ (logOk_formFold (fun _ _ => logOk_formDecode _ _ _ _ _) _ _ h)

theorem logOk_formDrafts {s : State} {tag : Nat} {p : Pitch} {d : Model} {x : Nat × Forming} (h : LogOk s)
    (e : s.formDrafts tag p d = some x) : LogOk x.2.s := by
  unfold State.formDrafts at e
  obtain ⟨t, -, ht⟩ := List.exists_of_findSome?_eq_some e
  dsimp only at ht
  split at ht
  · cases ht
  · cases ht; exact logOk_formFold (fun _ _ => logOk_formDraft _ _ _ _ _ _) _ _ h

theorem logOk_execTokenStepForm (tag model : ℕ) (s : State) (h : LogOk s) : OutLog (execTokenStepForm tag model s) := by
  have hb := logOk_boundary s tag model h
  unfold execTokenStepForm
  refine logOk_next ?_
  dsimp only
  split
  · split
    · exact hb
    · split
      · rename_i e
        exact logOk_startStep _ _ _ _ _ _ _ (logOk_formDrafts hb e)
      · split
        · exact logOk_formSessions _ _ _ _ hb
        · exact logOk_startStep _ _ _ _ _ _ _ (logOk_formSessions _ _ _ _ hb)
  · exact hb

theorem logOk_execTokenStepCommit (tag : Nat) (model : Nat) (step : Nat) (latencyNs : Nat) (results : List StepResult) (s : State) (h : LogOk s) :
    OutLog (execTokenStepCommit tag model step latencyNs results s) := by
  unfold execTokenStepCommit
  try dsimp only
  repeat' (first
    | with_reducible assumption
    | with_reducible refine logOk_updPitch _ _ _ ?_
    | with_reducible refine logOk_commitDraft _ _ _ _ _ _ _ ?_
    | with_reducible refine logOk_commitPart _ _ _ _ _ _ ?_
    | with_reducible refine logOk_updModel _ _ _ _ ?_
    | with_reducible refine logOk_afterStep _ _ _ _ ?_
    | with_reducible refine logOk_boothPause _ _ _ ?_
    | with_reducible refine logOk_next ?_
    | with_reducible refine logOk_foldl (fun s a hs => ?_) _ _ ?_
    | with_reducible refine logOk_exMap ?_ (fun t ht => ?_)
    | split)

theorem logOk_execBoothResumePass (tag : ℕ) (model : ℕ) (s : State) (h : LogOk s) :
    OutLog (execBoothResumePass tag model s) := by
  unfold execBoothResumePass
  try dsimp only
  repeat' (first
    | with_reducible assumption
    | with_reducible refine logOk_boothResumeOne _ _ _ _ ?_
    | with_reducible refine logOk_next ?_
    | with_reducible refine logOk_foldl (fun s a hs => ?_) _ _ ?_
    | with_reducible refine logOk_foldl_fst (fun s a hs => ?_) _ _ ?_
    | with_reducible refine logOk_exMap ?_ (fun t ht => ?_)
    | split)

theorem logOk_execBoothModeChange (tag : ℕ) (model : ℕ) (s : State) (hl : LogOk s) :
    OutLog (execBoothModeChange tag model s) := by
  unfold execBoothModeChange
  try dsimp only
  repeat' (first
    | with_reducible assumption
    | with_reducible refine logOk_updModel _ _ _ _ ?_
    | with_reducible refine logOk_next ?_
    | split)

theorem logOk_execTokenStepFail (tag : Nat) (model : Nat) (step : Nat) (s : State) (h : LogOk s) :
    OutLog (execTokenStepFail tag model step s) := by
  unfold execTokenStepFail
  try dsimp only
  repeat' (first
    | with_reducible assumption
    | with_reducible refine logOk_updPitch _ _ _ ?_
    | with_reducible refine logOk_updModel _ _ _ _ ?_
    | with_reducible refine logOk_updSession _ _ _ _ _ ?_
    | with_reducible refine logOk_failRequest _ _ _ _ _ _ ?_
    | with_reducible refine logOk_afterStep _ _ _ _ ?_
    | with_reducible refine logOk_nextStep _ _ _ _ _ ?_
    | with_reducible refine logOk_startStep _ _ _ _ _ _ _ ?_
    | with_reducible refine logOk_next ?_
    | with_reducible refine logOk_foldl (fun s a hs => ?_) _ _ ?_
    | with_reducible refine logOk_exMap ?_ (fun t ht => ?_)
    | split)

theorem logOk_execHashedBlockUncorrectable (tag : ℕ) (model : ℕ) (block : ℕ) (s : State) (h : LogOk s) :
    OutLog (execHashedBlockUncorrectable tag model block s) := by
  unfold execHashedBlockUncorrectable
  try dsimp only
  repeat' (first
    | with_reducible assumption
    | with_reducible refine logOk_updModel _ _ _ _ ?_
    | with_reducible refine logOk_loseSession _ _ _ _ ?_
    | with_reducible refine logOk_next ?_
    | with_reducible refine logOk_foldl (fun s a hs => ?_) _ _ ?_
    | with_reducible refine logOk_exMap ?_ (fun t ht => ?_)
    | split)

theorem logOk_execSessionExpire (tag : ℕ) (model : ℕ) (session : ℕ) (s : State) (hl : LogOk s) :
    OutLog (execSessionExpire tag model session s) := by
  unfold execSessionExpire
  try dsimp only
  repeat' (first
    | with_reducible assumption
    | with_reducible refine logOk_expireSession _ _ _ _ ?_
    | with_reducible refine logOk_next ?_
    | split)

theorem logOk_execRewardProgramRun (tag : ℕ) (run : ℕ) (s : State) (h : LogOk s) :
    OutLog (execRewardProgramRun tag run s) := by
  unfold execRewardProgramRun
  try dsimp only
  repeat' (first
    | with_reducible assumption
    | with_reducible refine logOk_updPitch _ _ _ ?_
    | with_reducible refine logOk_recordRewards _ _ _ _ _ ?_
    | with_reducible refine logOk_updPlan _ _ _ _ ?_
    | with_reducible refine logOk_updQueue _ _ _ _ ?_
    | with_reducible refine logOk_next ?_
    | with_reducible refine logOk_exMap ?_ (fun t ht => ?_)
    | split)

theorem logOk_execLearnProgramRun (tag : ℕ) (run : ℕ) (s : State) (hl : LogOk s) :
    OutLog (execLearnProgramRun tag run s) := by
  unfold execLearnProgramRun
  try dsimp only
  repeat' (first
    | with_reducible assumption
    | with_reducible refine logOk_updPitch _ _ _ ?_
    | with_reducible refine logOk_updQueue _ _ _ _ ?_
    | with_reducible refine logOk_updPlan _ _ _ _ ?_
    | with_reducible refine logOk_next ?_
    | with_reducible refine logOk_elim _ ?_ (fun a => ?_)
    | with_reducible refine logOk_exMap ?_ (fun t ht => ?_)
    | split)

theorem logOk_execRolloutEnd (tag : ℕ) (run : ℕ) (admitSeq : ℕ) (s : State) (h : LogOk s) :
    OutLog (execRolloutEnd tag run admitSeq s) := by
  unfold execRolloutEnd
  try dsimp only
  repeat' (first
    | with_reducible assumption
    | with_reducible refine logOk_tryWrite _ _ _ _ ?_
    | with_reducible refine logOk_setRollout _ _ _ _ ?_
    | with_reducible refine logOk_updPlan _ _ _ _ ?_
    | with_reducible refine logOk_next ?_
    | split)

theorem logOk_execPhaseStart (tag : ℕ) (run : ℕ) (s : State) (hl : LogOk s) :
    OutLog (execPhaseStart tag run s) := by
  unfold execPhaseStart
  try dsimp only
  repeat' (first
    | with_reducible assumption
    | with_reducible refine logOk_updPlan _ _ _ _ ?_
    | with_reducible refine logOk_bumpCounter _ _ _ ?_
    | with_reducible refine logOk_next ?_
    | with_reducible refine logOk_exMap ?_ (fun t ht => ?_)
    | split)

theorem logOk_execTurnoverOpen (tag : ℕ) (run : ℕ) (s : State) (hl : LogOk s) :
    OutLog (execTurnoverOpen tag run s) := by
  unfold execTurnoverOpen
  try dsimp only
  repeat' (first
    | with_reducible assumption
    | with_reducible refine logOk_onTurnover _ _ _ _ ?_ (fun z0 z1 z2 z3 => ?_)
    | with_reducible refine logOk_control _ _ _ ?_
    | with_reducible refine logOk_updPlan _ _ _ _ ?_
    | with_reducible refine logOk_next ?_
    | with_reducible refine logOk_elim _ ?_ (fun a => ?_)
    | split)

theorem logOk_execTurnoverArmed (tag : ℕ) (run : ℕ) (s : State) (hl : LogOk s) :
    OutLog (execTurnoverArmed tag run s) := by
  unfold execTurnoverArmed
  try dsimp only
  repeat' (first
    | with_reducible assumption
    | with_reducible refine logOk_onTurnover _ _ _ _ ?_ (fun z0 z1 z2 z3 => ?_)
    | with_reducible refine logOk_updPlan _ _ _ _ ?_
    | with_reducible refine logOk_next ?_
    | split)

theorem logOk_execDrainEnd (tag : ℕ) (run : ℕ) (s : State) (hl : LogOk s) :
    OutLog (execDrainEnd tag run s) := by
  unfold execDrainEnd
  try dsimp only
  repeat' (first
    | with_reducible assumption
    | with_reducible refine logOk_onTurnover _ _ _ _ ?_ (fun z0 z1 z2 z3 => ?_)
    | with_reducible refine logOk_updPlan _ _ _ _ ?_
    | with_reducible refine logOk_next ?_
    | split)

theorem logOk_execSwapStart (tag : Nat) (run : Nat) (s : State) (h : LogOk s) :
    OutLog (execSwapStart tag run s) := by
  unfold execSwapStart
  try dsimp only
  repeat' (first
    | with_reducible assumption
    | with_reducible refine logOk_onTurnover _ _ _ _ ?_ (fun z0 z1 z2 z3 => ?_)
    | with_reducible refine logOk_swapSession _ _ _ _ _ _ ?_
    | with_reducible refine logOk_updPitch _ _ _ ?_
    | with_reducible refine logOk_updModel _ _ _ _ ?_
    | with_reducible refine logOk_updPlan _ _ _ _ ?_
    | with_reducible refine logOk_copyLate _ _ _ ?_
    | with_reducible refine logOk_next ?_
    | with_reducible refine logOk_foldl (fun s a hs => ?_) _ _ ?_
    | with_reducible refine logOk_exMap ?_ (fun t ht => ?_)
    | split)

theorem logOk_execLayerWindowOpen (tag : ℕ) (run : ℕ) (layer : ℕ) (s : State) (h : LogOk s) :
    OutLog (execLayerWindowOpen tag run layer s) := by
  unfold execLayerWindowOpen
  try dsimp only
  repeat' (first
    | with_reducible assumption
    | with_reducible refine logOk_onTurnover _ _ _ _ ?_ (fun z0 z1 z2 z3 => ?_)
    | with_reducible refine logOk_updPlan _ _ _ _ ?_
    | with_reducible refine logOk_copyShadows _ _ _ _ _ _ ?_
    | with_reducible refine logOk_next ?_
    | with_reducible refine logOk_getD ?_ ?_
    | split)

theorem logOk_execLayerGateOpen (tag : Nat) (run : Nat) (layer : Nat) (s : State) (h : LogOk s) :
    OutLog (execLayerGateOpen tag run layer s) := by
  unfold execLayerGateOpen
  try dsimp only
  repeat' (first
    | with_reducible assumption
    | with_reducible refine logOk_onTurnover _ _ _ _ ?_ (fun z0 z1 z2 z3 => ?_)
    | with_reducible refine logOk_copyShadows _ _ _ _ _ _ ?_
    | with_reducible refine logOk_copyOutside _ _ _ _ _ ?_
    | with_reducible refine logOk_updPlan _ _ _ _ ?_
    | with_reducible refine logOk_updPitch _ _ _ ?_
    | with_reducible refine logOk_next ?_
    | split)

theorem logOk_execTurnoverDone (tag : ℕ) (run : ℕ) (s : State) (hl : LogOk s) :
    OutLog (execTurnoverDone tag run s) := by
  unfold execTurnoverDone
  try dsimp only
  repeat' (first
    | with_reducible assumption
    | with_reducible refine logOk_onTurnover _ _ _ _ ?_ (fun z0 z1 z2 z3 => ?_)
    | with_reducible refine logOk_updPlan _ _ _ _ ?_
    | with_reducible refine logOk_next ?_
    | split)

theorem logOk_execWindowOpenTimeout (tag : ℕ) (run : ℕ) (layer : ℕ) (s : State) (hl : LogOk s) :
    OutLog (execWindowOpenTimeout tag run layer s) := by
  unfold execWindowOpenTimeout
  try dsimp only
  repeat' (first
    | with_reducible assumption
    | with_reducible refine logOk_onTurnover _ _ _ _ ?_ (fun z0 z1 z2 z3 => ?_)
    | with_reducible refine logOk_updPlan _ _ _ _ ?_
    | with_reducible refine logOk_logNote _ _ _ _ _ _ _ ?_
    | with_reducible refine logOk_next ?_
    | split)

theorem logOk_execCrusherDelivery (tag : ℕ) (ident : ℕ) (s : State) (hl : LogOk s) :
    OutLog (execCrusherDelivery tag ident s) := by
  unfold execCrusherDelivery
  try dsimp only
  repeat' (first
    | with_reducible assumption
    | with_reducible refine logOk_control _ _ _ ?_
    | with_reducible refine logOk_endColl _ _ _ _ ?_
    | with_reducible refine logOk_acceptDelivery _ _ _ _ _ ?_
    | with_reducible refine logOk_next ?_
    | with_reducible refine logOk_exMap ?_ (fun t ht => ?_)
    | split)

theorem logOk_execBlockUpdate (tag : Nat) (run : Nat) (layer : Nat) (block : Nat) (s : State) (h : LogOk s) :
    OutLog (execBlockUpdate tag run layer block s) := by
  unfold execBlockUpdate
  try dsimp only
  repeat' (first
    | with_reducible assumption
    | with_reducible refine logOk_onBlock _ _ _ _ _ _ ?_ (fun z0 z1 z2 z3 z4 => ?_)
    | with_reducible refine logOk_updateBlock _ _ _ _ _ _ _ _ _ ?_
    | with_reducible refine logOk_next ?_
    | split)

theorem logOk_execBlockMissed (tag : Nat) (run : Nat) (layer : Nat) (block : Nat) (s : State) (h : LogOk s) :
    OutLog (execBlockMissed tag run layer block s) := by
  unfold execBlockMissed
  try dsimp only
  repeat' (first
    | with_reducible assumption
    | with_reducible refine logOk_onBlock _ _ _ _ _ _ ?_ (fun z0 z1 z2 z3 z4 => ?_)
    | with_reducible refine logOk_noteLate _ _ _ _ _ _ _ ?_
    | with_reducible refine logOk_kronSwap _ _ _ _ _ _ ?_
    | with_reducible refine logOk_kronSnap _ _ _ _ _ _ _ _ ?_
    | with_reducible refine logOk_emit _ _ _ _ _ _ ?_
    | with_reducible refine logOk_updRun _ _ _ _ ?_
    | with_reducible refine logOk_nextStep _ _ _ _ _ ?_
    | with_reducible refine logOk_next ?_
    | split)

theorem logOk_execHeldBlockStage (tag : ℕ) (run : ℕ) (layer : ℕ) (block : ℕ) (s : State) (h : LogOk s) :
    OutLog (execHeldBlockStage tag run layer block s) := by
  unfold execHeldBlockStage
  try dsimp only
  repeat' (first
    | with_reducible assumption
    | with_reducible refine logOk_onBlock _ _ _ _ _ _ ?_ (fun z0 z1 z2 z3 z4 => ?_)
    | with_reducible refine logOk_tryWrite _ _ _ _ ?_
    | with_reducible refine logOk_updRun _ _ _ _ ?_
    | with_reducible refine logOk_next ?_
    | with_reducible refine logOk_foldl (fun s a hs => ?_) _ _ ?_
    | with_reducible refine logOk_foldl_fst (fun s a hs => ?_) _ _ ?_
    | with_reducible refine logOk_getD ?_ ?_
    | with_reducible refine logOk_exMap ?_ (fun t ht => ?_)
    | split)

theorem logOk_execHeldBlocksApply (tag : ℕ) (run : ℕ) (ldie : ℕ) (s : State) (h : LogOk s) :
    OutLog (execHeldBlocksApply tag run ldie s) := by
  unfold execHeldBlocksApply
  try dsimp only
  repeat' (first
    | with_reducible assumption
    | with_reducible refine logOk_applyHeld _ _ _ _ ?_
    | with_reducible refine logOk_next ?_
    | with_reducible refine logOk_foldl (fun s a hs => ?_) _ _ ?_
    | with_reducible refine logOk_foldl_fst (fun s a hs => ?_) _ _ ?_
    | split)

theorem logOk_execLaggedMultWaitEnd (tag : Nat) (run : Nat) (layer : Nat) (block : Nat) (s : State) (h : LogOk s) :
    OutLog (execLaggedMultWaitEnd tag run layer block s) := by
  unfold execLaggedMultWaitEnd
  try dsimp only
  repeat' (first
    | with_reducible assumption
    | with_reducible refine logOk_onBlock _ _ _ _ _ _ ?_ (fun z0 z1 z2 z3 z4 => ?_)
    | with_reducible refine logOk_startStep _ _ _ _ _ _ _ ?_
    | with_reducible refine logOk_updateBlock _ _ _ _ _ _ _ _ _ ?_
    | with_reducible refine logOk_next ?_
    | split)

theorem logOk_execNormPartialSend (tag : ℕ) (run : ℕ) (ldie : ℕ) (s : State) (hl : LogOk s) :
    OutLog (execNormPartialSend tag run ldie s) := by
  unfold execNormPartialSend
  try dsimp only
  repeat' (first
    | with_reducible assumption
    | with_reducible refine logOk_updRun _ _ _ _ ?_
    | with_reducible refine logOk_next ?_
    | with_reducible refine logOk_exMap ?_ (fun t ht => ?_)
    | split)

theorem logOk_execRunStepCommit (tag : ℕ) (run : ℕ) (s : State) (h : LogOk s) :
    OutLog (execRunStepCommit tag run s) := by
  unfold execRunStepCommit
  try dsimp only
  repeat' (first
    | with_reducible assumption
    | with_reducible refine logOk_tryWrite _ _ _ _ ?_
    | with_reducible refine logOk_bumpCounter _ _ _ ?_
    | with_reducible refine logOk_ckptDue _ _ _ _ ?_
    | with_reducible refine logOk_updPitch _ _ _ ?_
    | with_reducible refine logOk_updRun _ _ _ _ ?_
    | with_reducible refine logOk_next ?_
    | with_reducible refine logOk_exMap ?_ (fun t ht => ?_)
    | split)

theorem logOk_execKronRefreshDone (tag : ℕ) (run : ℕ) (layer : ℕ) (block : ℕ) (s : State) (h : LogOk s) :
    OutLog (execKronRefreshDone tag run layer block s) := by
  unfold execKronRefreshDone
  try dsimp only
  repeat' (first
    | with_reducible assumption
    | with_reducible refine logOk_onBlock _ _ _ _ _ _ ?_ (fun z0 z1 z2 z3 z4 => ?_)
    | with_reducible refine logOk_writeArray _ _ _ _ _ ?_
    | with_reducible refine logOk_setKronHeader _ _ _ _ _ ?_
    | with_reducible refine logOk_draw _ ?_
    | with_reducible refine logOk_next ?_
    | split)

theorem logOk_execEmissionSend (tag : Nat) (run : Nat) (layer : Nat) (block : Nat) (s : State) (h : LogOk s) :
    OutLog (execEmissionSend tag run layer block s) := by
  unfold execEmissionSend
  try dsimp only
  repeat' (first
    | with_reducible assumption
    | with_reducible refine logOk_onBlock _ _ _ _ _ _ ?_ (fun z0 z1 z2 z3 z4 => ?_)
    | with_reducible refine logOk_emitStrip _ _ _ _ _ _ ?_
    | with_reducible refine logOk_updRun _ _ _ _ ?_
    | with_reducible refine logOk_copyLate _ _ _ ?_
    | with_reducible refine logOk_next ?_
    | with_reducible refine logOk_foldl (fun s a hs => ?_) _ _ ?_
    | with_reducible refine logOk_foldl_fst (fun s a hs => ?_) _ _ ?_
    | split)

theorem logOk_execCheckpointLayerSend (tag : Nat) (run : Nat) (ldie : Nat) (layer : Nat) (s : State) (h : LogOk s) :
    OutLog (execCheckpointLayerSend tag run ldie layer s) := by
  unfold execCheckpointLayerSend
  try dsimp only
  repeat' (first
    | with_reducible assumption
    | with_reducible refine logOk_layerDue _ _ _ _ ?_
    | with_reducible refine logOk_sendLayer _ _ _ _ _ _ _ _ _ _ ?_
    | with_reducible refine logOk_next ?_
    | with_reducible refine logOk_exMap ?_ (fun t ht => ?_)
    | split)

theorem logOk_execCheckpointSlotComplete (tag : Nat) (run : Nat) (s : State) (h : LogOk s) :
    OutLog (execCheckpointSlotComplete tag run s) := by
  unfold execCheckpointSlotComplete
  try dsimp only
  repeat' (first
    | with_reducible assumption
    | with_reducible refine logOk_onWriting _ _ _ _ ?_ (fun z0 z1 z2 z3 z4 => ?_)
    | with_reducible refine logOk_endCkpt _ _ _ _ _ _ _ ?_
    | with_reducible refine logOk_next ?_
    | split)

theorem logOk_execCheckpointTimeout (tag : Nat) (run : Nat) (s : State) (h : LogOk s) :
    OutLog (execCheckpointTimeout tag run s) := by
  unfold execCheckpointTimeout
  try dsimp only
  repeat' (first
    | with_reducible assumption
    | with_reducible refine logOk_onWriting _ _ _ _ ?_ (fun z0 z1 z2 z3 z4 => ?_)
    | with_reducible refine logOk_endCkpt _ _ _ _ _ _ _ ?_
    | with_reducible refine logOk_logNote _ _ _ _ _ _ _ ?_
    | with_reducible refine logOk_next ?_
    | split)

theorem logOk_execLinkFrameReceive (port : Nat) (frame : LinkFrame) (s : State) (hl : LogOk s) :
    OutLog (execLinkFrameReceive port frame s) := by
  unfold execLinkFrameReceive
  try dsimp only
  repeat' (first
    | with_reducible assumption
    | with_reducible refine logOk_updPort _ _ _ ?_
    | with_reducible refine logOk_receive _ _ _ ?_
    | with_reducible refine logOk_sendNak _ _ ?_
    | with_reducible refine logOk_next ?_
    | split)

theorem logOk_execNakReceive (port : ℕ) (n : ℕ) (s : State) (hl : LogOk s) :
    OutLog (execNakReceive port n s) := by
  unfold execNakReceive
  try dsimp only
  repeat' (first
    | with_reducible assumption
    | with_reducible refine logOk_resend _ _ _ ?_
    | with_reducible refine logOk_next ?_
    | split)

theorem logOk_execReplayLimit (port : ℕ) (s : State) (hl : LogOk s) :
    OutLog (execReplayLimit port s) := by
  unfold execReplayLimit
  try dsimp only
  repeat' (first
    | with_reducible assumption
    | with_reducible refine logOk_portDown _ _ ?_
    | with_reducible refine logOk_next ?_
    | split)

theorem logOk_execLinkCtrlReceive (port : ℕ) (ctrl : LinkCtrl) (s : State) (hl : LogOk s) :
    OutLog (execLinkCtrlReceive port ctrl s) := by
  unfold execLinkCtrlReceive
  try dsimp only
  repeat' (first
    | with_reducible assumption
    | with_reducible refine logOk_takeAck _ _ _ ?_
    | with_reducible refine logOk_updPort _ _ _ ?_
    | with_reducible refine logOk_flushHost _ _ ?_
    | with_reducible refine logOk_resend _ _ _ ?_
    | with_reducible refine logOk_failLane _ _ _ ?_
    | with_reducible refine logOk_next ?_
    | split)

theorem logOk_execCreditReturnTimer (port : ℕ) (s : State) (hl : LogOk s) :
    OutLog (execCreditReturnTimer port s) := by
  unfold execCreditReturnTimer
  try dsimp only
  repeat' (first
    | with_reducible assumption
    | with_reducible refine logOk_tellCredits _ _ ?_
    | with_reducible refine logOk_next ?_
    | split)

theorem logOk_execRouteFrame (die : ℕ) (index : ℕ) (s : State) (h : LogOk s) :
    OutLog (execRouteFrame die index s) := by
  unfold execRouteFrame
  try dsimp only
  repeat' (first
    | with_reducible assumption
    | with_reducible refine logOk_arrive _ _ _ _ ?_
    | with_reducible refine logOk_haul _ _ _ _ _ ?_
    | with_reducible refine logOk_sendOn _ _ _ _ _ _ ?_
    | with_reducible refine logOk_next ?_
    | split)

theorem logOk_execRoutingFaultDiscard (die : ℕ) (index : ℕ) (s : State) (hl : LogOk s) :
    OutLog (execRoutingFaultDiscard die index s) := by
  unfold execRoutingFaultDiscard
  try dsimp only
  repeat' (first
    | with_reducible assumption
    | with_reducible refine logOk_takeFrame _ _ _ _ ?_
    | with_reducible refine logOk_setFab _ _ ?_
    | with_reducible refine logOk_logNote _ _ _ _ _ _ _ ?_
    | with_reducible refine logOk_next ?_
    | split)

theorem logOk_execReplayTakeback (port : ℕ) (s : State) (hl : LogOk s) :
    OutLog (execReplayTakeback port s) := by
  unfold execReplayTakeback
  try dsimp only
  repeat' (first
    | with_reducible assumption
    | with_reducible refine logOk_takeBack _ _ ?_
    | with_reducible refine logOk_next ?_
    | split)

theorem logOk_execE2eFrameDeliver (die : ℕ) (frame : Frame) (s : State) (h : LogOk s) :
    OutLog (execE2eFrameDeliver die frame s) := by
  unfold execE2eFrameDeliver
  try dsimp only
  repeat' (first
    | with_reducible assumption
    | with_reducible refine logOk_deliverFrame _ _ _ _ ?_
    | with_reducible refine logOk_next ?_
    | split)

theorem logOk_execE2eResponseReceive (die : Nat) (frame : Frame) (s : State) (h : LogOk s) :
    OutLog (execE2eResponseReceive die frame s) := by
  unfold execE2eResponseReceive
  try dsimp only
  repeat' (first
    | with_reducible assumption
    | with_reducible refine logOk_response _ _ _ ?_
    | with_reducible refine logOk_next ?_
    | split)

theorem logOk_execE2eResendTimer (die : ℕ) (txn : ℕ) (s : State) (hl : LogOk s) :
    OutLog (execE2eResendTimer die txn s) := by
  unfold execE2eResendTimer
  try dsimp only
  repeat' (first
    | with_reducible assumption
    | with_reducible refine logOk_updDie _ _ _ ?_
    | with_reducible refine logOk_toRouter _ _ _ ?_
    | with_reducible refine logOk_next ?_
    | with_reducible refine logOk_exMap ?_ (fun t ht => ?_)
    | split)

theorem logOk_execE2eTransactionFail (die : Nat) (txn : Nat) (s : State) (h : LogOk s) :
    OutLog (execE2eTransactionFail die txn s) := by
  unfold execE2eTransactionFail
  try dsimp only
  repeat' (first
    | with_reducible assumption
    | with_reducible refine logOk_endTxn _ _ _ ?_
    | with_reducible refine logOk_outcome _ _ _ _ _ ?_
    | with_reducible refine logOk_next ?_
    | split)

theorem logOk_execHostIngress (port : ℕ) (vc : ℕ) (frame : Frame) (s : State) (hl : LogOk s) :
    OutLog (execHostIngress port vc frame s) := by
  unfold execHostIngress
  try dsimp only
  repeat' (first
    | with_reducible assumption
    | with_reducible refine logOk_ingress _ _ _ _ ?_
    | with_reducible refine logOk_next ?_
    | split)

theorem logOk_execControlPageWriteRelease (port : ℕ) (s : State) (hl : LogOk s) :
    OutLog (execControlPageWriteRelease port s) := by
  unfold execControlPageWriteRelease
  try dsimp only
  repeat' (first
    | with_reducible assumption
    | with_reducible refine logOk_drainHeld _ _ _ ?_
    | with_reducible refine logOk_launchHead _ _ _ ?_
    | with_reducible refine logOk_next ?_
    | split)

theorem logOk_execHostWindowEgress (die : Nat) (frame : Frame) (s : State) (h : LogOk s) :
    OutLog (execHostWindowEgress die frame s) := by
  unfold execHostWindowEgress
  try dsimp only
  repeat' (first
    | with_reducible assumption
    | with_reducible refine logOk_deliverFrame _ _ _ _ ?_
    | with_reducible refine logOk_next ?_
    | split)

theorem logOk_execHelloReceive (port : ℕ) (hello : Hello) (s : State) (hl : LogOk s) :
    OutLog (execHelloReceive port hello s) := by
  unfold execHelloReceive
  try dsimp only
  repeat' (first
    | with_reducible assumption
    | with_reducible refine logOk_takeAck _ _ _ ?_
    | with_reducible refine logOk_updPort _ _ _ ?_
    | with_reducible refine logOk_checkPeer _ _ ?_
    | with_reducible refine logOk_next ?_
    | split)

theorem logOk_execHelloTimer (s : State) (hl : LogOk s) :
    OutLog (execHelloTimer s) := by
  unfold execHelloTimer
  try dsimp only
  repeat' (first
    | with_reducible assumption
    | with_reducible refine logOk_sendHellos _ _ ?_
    | with_reducible refine logOk_next ?_)

theorem logOk_execPortSignalDetect (port : ℕ) (lanes : ℕ) (s : State) (hl : LogOk s) :
    OutLog (execPortSignalDetect port lanes s) := by
  unfold execPortSignalDetect
  try dsimp only
  repeat' (first
    | with_reducible assumption
    | with_reducible refine logOk_updPort _ _ _ ?_
    | with_reducible refine logOk_sendHello _ _ ?_
    | with_reducible refine logOk_next ?_
    | split)

theorem logOk_execPortTrainDone (port : ℕ) (hello : Hello) (s : State) (hl : LogOk s) :
    OutLog (execPortTrainDone port hello s) := by
  unfold execPortTrainDone
  try dsimp only
  repeat' (first
    | with_reducible assumption
    | with_reducible refine logOk_takeBack _ _ ?_
    | with_reducible refine logOk_updPort _ _ _ ?_
    | with_reducible refine logOk_checkPeer _ _ ?_
    | with_reducible refine logOk_next ?_
    | split)

theorem logOk_execPortTrainTimeout (port : ℕ) (s : State) (hl : LogOk s) :
    OutLog (execPortTrainTimeout port s) := by
  unfold execPortTrainTimeout
  try dsimp only
  repeat' (first
    | with_reducible assumption
    | with_reducible refine logOk_updPort _ _ _ ?_
    | with_reducible refine logOk_next ?_
    | split)

theorem logOk_execPortDown (port : ℕ) (s : State) (hl : LogOk s) :
    OutLog (execPortDown port s) := by
  unfold execPortDown
  try dsimp only
  repeat' (first
    | with_reducible assumption
    | with_reducible refine logOk_portDown _ _ ?_
    | with_reducible refine logOk_next ?_
    | split)

theorem logOk_execLaneFail (port : ℕ) (lane : ℕ) (s : State) (hl : LogOk s) :
    OutLog (execLaneFail port lane s) := by
  unfold execLaneFail
  try dsimp only
  repeat' (first
    | with_reducible assumption
    | with_reducible refine logOk_failLane _ _ _ ?_
    | with_reducible refine logOk_next ?_)

theorem logOk_execMsgSegmentReceive (frame : Frame) (s : State) (hl : LogOk s) :
    OutLog (execMsgSegmentReceive frame s) := by
  unfold execMsgSegmentReceive
  try dsimp only
  repeat' (first
    | with_reducible assumption
    | with_reducible refine logOk_mailboxFrame _ _ ?_
    | with_reducible refine logOk_next ?_
    | split)

theorem logOk_execMsgStatusRead (frame : Frame) (s : State) (hl : LogOk s) :
    OutLog (execMsgStatusRead frame s) := by
  unfold execMsgStatusRead
  try dsimp only
  repeat' (first
    | with_reducible assumption
    | with_reducible refine logOk_mailboxFrame _ _ ?_
    | with_reducible refine logOk_next ?_
    | split)

theorem logOk_execMsgAssemblyTimeout (mailbox : ℕ) (s : State) (hl : LogOk s) :
    OutLog (execMsgAssemblyTimeout mailbox s) := by
  unfold execMsgAssemblyTimeout
  try dsimp only
  repeat' (first
    | with_reducible assumption
    | with_reducible refine logOk_updBox _ _ _ ?_
    | with_reducible refine logOk_next ?_
    | with_reducible refine logOk_elim _ ?_ (fun a => ?_)
    | split)

theorem logOk_execRequestSubmit (mailbox : ℕ) (s : State) (hl : LogOk s) :
    OutLog (execRequestSubmit mailbox s) := by
  unfold execRequestSubmit
  try dsimp only
  repeat' (first
    | with_reducible assumption
    | with_reducible refine logOk_submitBox _ _ ?_
    | with_reducible refine logOk_next ?_
    | split)

theorem logOk_execFenceRelease (seq : ℕ) (s : State) (hl : LogOk s) :
    OutLog (execFenceRelease seq s) := by
  unfold execFenceRelease
  try dsimp only
  repeat' (first
    | with_reducible assumption
    | with_reducible refine logOk_setRing _ _ ?_
    | with_reducible refine logOk_next ?_
    | with_reducible refine logOk_exMap ?_ (fun t ht => ?_)
    | split)

theorem logOk_execReplayEntryExpire (mailbox : ℕ) (requestId : ℕ) (s : State) (hl : LogOk s) :
    OutLog (execReplayEntryExpire mailbox requestId s) := by
  unfold execReplayEntryExpire
  try dsimp only
  repeat' (first
    | with_reducible assumption
    | with_reducible refine logOk_updBox _ _ _ ?_
    | with_reducible refine logOk_next ?_)

theorem logOk_execCoordinationTimeout (seq : ℕ) (s : State) (hl : LogOk s) :
    OutLog (execCoordinationTimeout seq s) := by
  unfold execCoordinationTimeout
  try dsimp only
  repeat' (first
    | with_reducible assumption
    | with_reducible refine logOk_suspended _ _ ?_
    | with_reducible refine logOk_setPitches _ _ ?_
    | with_reducible refine logOk_updPitch _ _ _ ?_
    | with_reducible refine logOk_respond _ _ _ _ ?_
    | with_reducible refine logOk_next ?_
    | with_reducible refine logOk_elim _ ?_ (fun a => ?_)
    | split)

theorem logOk_execSuspendTimeout (tag : Nat) (s : State) (hl : LogOk s) :
    OutLog (execSuspendTimeout tag s) := by
  unfold execSuspendTimeout
  try dsimp only
  repeat' (first
    | with_reducible assumption
    | with_reducible refine logOk_suspended _ _ ?_
    | with_reducible refine logOk_suspendUndo _ _ _ ?_
    | with_reducible refine logOk_next ?_
    | split)

theorem logOk_execRingmasterTakeover (s : State) (h : LogOk s) :
    OutLog (execRingmasterTakeover s) := by
  unfold execRingmasterTakeover
  try dsimp only
  repeat' (first
    | with_reducible assumption
    | with_reducible refine logOk_primaryFault _ ?_
    | with_reducible refine logOk_next ?_
    | split)

theorem logOk_execHeartbeatTimeout (pair : ℕ) (s : State) (h : LogOk s) :
    OutLog (execHeartbeatTimeout pair s) := by
  unfold execHeartbeatTimeout
  try dsimp only
  repeat' (first
    | with_reducible assumption
    | with_reducible refine logOk_primaryFault _ ?_
    | with_reducible refine logOk_setRing _ _ ?_
    | with_reducible refine logOk_rehome _ ?_
    | with_reducible refine logOk_logNote _ _ _ _ _ _ _ ?_
    | with_reducible refine logOk_next ?_
    | with_reducible refine logOk_getD ?_ ?_
    | split)

theorem logOk_execServiceCoreFault (core : ℕ) (s : State) (hl : LogOk s) :
    OutLog (execServiceCoreFault core s) := by
  unfold execServiceCoreFault
  try dsimp only
  repeat' (first
    | with_reducible assumption
    | with_reducible refine logOk_setRing _ _ ?_
    | with_reducible refine logOk_rehome _ ?_
    | with_reducible refine logOk_next ?_
    | split)

theorem logOk_execTakeoverResume (s : State) (hl : LogOk s) :
    OutLog (execTakeoverResume s) := by
  unfold execTakeoverResume
  try dsimp only
  repeat' (first
    | with_reducible assumption
    | with_reducible refine logOk_dueTest _ _ ?_
    | with_reducible refine logOk_setRing _ _ ?_
    | with_reducible refine logOk_releaseHeld _ ?_
    | with_reducible refine logOk_logNote _ _ _ _ _ _ _ ?_
    | with_reducible refine logOk_next ?_
    | with_reducible refine logOk_elim _ ?_ (fun a => ?_)
    | split)

theorem logOk_execBoot (s : State) (h : LogOk s) :
    OutLog (execBoot s) := by
  unfold execBoot
  try dsimp only
  repeat' (first
    | with_reducible assumption
    | with_reducible refine logOk_bootNow _ ?_
    | with_reducible refine logOk_next ?_
    | split)

theorem logOk_execRecoveryAnnounce (s : State) (hl : LogOk s) :
    OutLog (execRecoveryAnnounce s) := by
  unfold execRecoveryAnnounce
  try dsimp only
  repeat' (first
    | with_reducible assumption
    | with_reducible refine logOk_draw _ ?_
    | with_reducible refine logOk_setKpr _ _ ?_
    | with_reducible refine logOk_send _ _ ?_
    | with_reducible refine logOk_next ?_
    | with_reducible refine logOk_elim _ ?_ (fun a => ?_)
    | split)

theorem logOk_execPowerOnSequence (v : ℕ) (s : State) (hl : LogOk s) :
    OutLog (execPowerOnSequence v s) := by
  unfold execPowerOnSequence supply
  split
  · trivial
  · refine logOk_next ?_
    have hv := logOk_setVin s v hl
    dsimp only
    repeat' (first
      | with_reducible assumption
      | with_reducible refine logOk_keeperStart _ ?_
      | with_reducible refine logOk_railsOn _ ?_
      | with_reducible refine logOk_step3 _ ?_
      | split)

theorem logOk_execRailRegulationTimeout (die : ℕ) (rail : ℕ) (s : State) (h : LogOk s) :
    OutLog (execRailRegulationTimeout die rail s) := by
  unfold execRailRegulationTimeout
  try dsimp only
  repeat' (first
    | with_reducible assumption
    | with_reducible refine logOk_dieFault _ _ _ ?_
    | with_reducible refine logOk_next ?_
    | split)

theorem logOk_execUndervoltageReset (vinMv : ℕ) (s : State) (h : LogOk s) :
    OutLog (execUndervoltageReset vinMv s) := by
  unfold execUndervoltageReset
  try dsimp only
  repeat' (first
    | with_reducible assumption
    | with_reducible refine logOk_setVin _ _ ?_
    | with_reducible refine logOk_unpower _ ?_
    | with_reducible refine logOk_moduleReset _ _ _ ?_
    | with_reducible refine logOk_next ?_
    | split)

theorem logOk_execOvervoltageReset (v : ℕ) (s : State) (h : LogOk s) :
    OutLog (execOvervoltageReset v s) := by
  unfold execOvervoltageReset supply
  split
  · trivial
  · refine logOk_next ?_
    have hv := logOk_setVin s v h
    dsimp only
    split
    · exact logOk_moduleReset _ _ _ hv
    · exact hv

theorem logOk_execOverVoltage (v : ℕ) (s : State) (hl : LogOk s) :
    OutLog (execOverVoltage v s) := by
  unfold execOverVoltage supply
  split
  · trivial
  · refine logOk_next ?_
    have hv := logOk_setVin s v hl
    dsimp only
    split
    · exact logOk_logEvent _ _ _ _ _ _ hv
    · exact hv

theorem logOk_execResetNAssert (us : ℕ) (s : State) (h : LogOk s) :
    OutLog (execResetNAssert us s) := by
  unfold execResetNAssert
  try dsimp only
  repeat' (first
    | with_reducible assumption
    | with_reducible refine logOk_moduleReset _ _ _ ?_
    | with_reducible refine logOk_next ?_
    | split)

theorem logOk_execModEnableDeassert (us : Nat) (s : State) (h : LogOk s) :
    OutLog (execModEnableDeassert us s) := by
  unfold execModEnableDeassert
  try dsimp only
  repeat' (first
    | with_reducible assumption
    | with_reducible refine logOk_setEeprom _ _ ?_
    | with_reducible refine logOk_unpower _ ?_
    | with_reducible refine logOk_setPower _ _ ?_
    | with_reducible refine logOk_next ?_
    | split)

theorem logOk_execDipBegin (vinMv : ℕ) (s : State) (hl : LogOk s) :
    OutLog (execDipBegin vinMv s) := by
  unfold execDipBegin
  try dsimp only
  repeat' (first
    | with_reducible assumption
    | with_reducible refine logOk_setVin _ _ ?_
    | with_reducible refine logOk_divide _ _ ?_
    | with_reducible refine logOk_setPower _ _ ?_
    | with_reducible refine logOk_logEvent _ _ _ _ _ _ ?_
    | with_reducible refine logOk_next ?_
    | split)

theorem logOk_execDipInputRise (vinMv : ℕ) (s : State) (hl : LogOk s) :
    OutLog (execDipInputRise vinMv s) := by
  unfold execDipInputRise
  try dsimp only
  repeat' (first
    | with_reducible assumption
    | with_reducible refine logOk_setVin _ _ ?_
    | with_reducible refine logOk_setPower _ _ ?_
    | with_reducible refine logOk_next ?_
    | split)

theorem logOk_execDipEnd (vinMv : ℕ) (s : State) (hl : LogOk s) :
    OutLog (execDipEnd vinMv s) := by
  unfold execDipEnd
  try dsimp only
  repeat' (first
    | with_reducible assumption
    | with_reducible refine logOk_setVin _ _ ?_
    | with_reducible refine logOk_divide _ _ ?_
    | with_reducible refine logOk_setPower _ _ ?_
    | with_reducible refine logOk_keeperOnly _ _ ?_
    | with_reducible refine logOk_logEvent _ _ _ _ _ _ ?_
    | with_reducible refine logOk_next ?_
    | with_reducible refine logOk_elim _ ?_ (fun a => ?_)
    | split)

theorem logOk_execPowerControlEval (power1ms : ℕ) (power10ms : ℕ) (currentMa : ℕ) (s : State) (hl : LogOk s) :
    OutLog (execPowerControlEval power1ms power10ms currentMa s) := by
  unfold execPowerControlEval
  try dsimp only
  repeat' (first
    | with_reducible assumption
    | with_reducible refine logOk_sample _ ?_
    | with_reducible refine logOk_setPower _ _ ?_
    | with_reducible refine logOk_stepsDown _ _ ?_
    | with_reducible refine logOk_logEvent _ _ _ _ _ _ ?_
    | with_reducible refine logOk_stepsUp _ ?_
    | with_reducible refine logOk_next ?_
    | split)

theorem logOk_execStepChangeDone (die : ℕ) (s : State) (hl : LogOk s) :
    OutLog (execStepChangeDone die s) := by
  unfold execStepChangeDone
  try dsimp only
  repeat' (first
    | with_reducible assumption
    | with_reducible refine logOk_updDie _ _ _ ?_
    | with_reducible refine logOk_next ?_
    | split)

theorem logOk_execThermalControlEval (die : ℕ) (tj : ℤ) (sensor : ℕ) (s : State) (h : LogOk s) :
    OutLog (execThermalControlEval die tj sensor s) := by
  unfold execThermalControlEval
  try dsimp only
  repeat' (first
    | with_reducible assumption
    | with_reducible refine logOk_updDie _ _ _ ?_
    | with_reducible refine logOk_keeperOnly _ _ ?_
    | with_reducible refine logOk_loseDie _ _ ?_
    | with_reducible refine logOk_logEvent _ _ _ _ _ _ ?_
    | with_reducible refine logOk_next ?_
    | split)

theorem logOk_execThermalTrip (die : ℕ) (tj : ℤ) (s : State) (h : LogOk s) :
    OutLog (execThermalTrip die tj s) := by
  unfold execThermalTrip
  try dsimp only
  repeat' (first
    | with_reducible assumption
    | with_reducible refine logOk_keeperOnly _ _ ?_
    | with_reducible refine logOk_setEeprom _ _ ?_
    | with_reducible refine logOk_unpower _ ?_
    | with_reducible refine logOk_setPower _ _ ?_
    | with_reducible refine logOk_next ?_
    | split)

theorem logOk_execPhaseLost (die : ℕ) (rail : ℕ) (phase : ℕ) (s : State) (h : LogOk s) :
    OutLog (execPhaseLost die rail phase s) := by
  unfold execPhaseLost
  try dsimp only
  repeat' (first
    | with_reducible assumption
    | with_reducible refine logOk_updDie _ _ _ ?_
    | with_reducible refine logOk_setPower _ _ ?_
    | with_reducible refine logOk_logEvent _ _ _ _ _ _ ?_
    | with_reducible refine logOk_keeperOnly _ _ ?_
    | with_reducible refine logOk_dieFault _ _ _ ?_
    | with_reducible refine logOk_next ?_
    | split)

theorem logOk_execKeeperOnlyEntry (cause : ℕ) (s : State) (h : LogOk s) :
    OutLog (execKeeperOnlyEntry cause s) := by
  unfold execKeeperOnlyEntry
  try dsimp only
  repeat' (first
    | with_reducible assumption
    | with_reducible refine logOk_keeperOnly _ _ ?_
    | with_reducible refine logOk_next ?_
    | split)

theorem logOk_execPwarnEval (watts : ℕ) (s : State) (hl : LogOk s) :
    OutLog (execPwarnEval watts s) := by
  unfold execPwarnEval
  try dsimp only
  repeat' (first
    | with_reducible assumption
    | with_reducible refine logOk_setPower _ _ ?_
    | with_reducible refine logOk_logEvent _ _ _ _ _ _ ?_
    | with_reducible refine logOk_next ?_
    | split)

theorem logOk_execMeterMinute (s : State) (hl : LogOk s) :
    OutLog (execMeterMinute s) := by
  unfold execMeterMinute
  try dsimp only
  repeat' (first
    | with_reducible assumption
    | with_reducible refine logOk_setPitches _ _ ?_
    | with_reducible refine logOk_next ?_
    | with_reducible refine logOk_exMap ?_ (fun t ht => ?_)
    | split)

theorem logOk_execUnmarchedFirstWrite (die : ℕ) (page : ℕ) (s : State) (hl : LogOk s) :
    OutLog (execUnmarchedFirstWrite die page s) := by
  unfold execUnmarchedFirstWrite
  try dsimp only
  repeat' (first
    | with_reducible assumption
    | with_reducible refine logOk_firstWrite _ _ _ ?_
    | with_reducible refine logOk_next ?_
    | split)

theorem logOk_execBackgroundMarchPage (die : Nat) (page : MarchedPage) (s : State) (hl : LogOk s) :
    OutLog (execBackgroundMarchPage die page s) := by
  unfold execBackgroundMarchPage
  try dsimp only
  repeat' (first
    | with_reducible assumption
    | with_reducible refine logOk_endMarch _ _ _ ?_
    | with_reducible refine logOk_beginMarch _ _ ?_
    | with_reducible refine logOk_marchPage _ _ _ _ ?_
    | with_reducible refine logOk_next ?_
    | split)

theorem logOk_execTestWindowLost (die : ℕ) (s : State) (h : LogOk s) :
    OutLog (execTestWindowLost die s) := by
  unfold execTestWindowLost
  try dsimp only
  repeat' (first
    | with_reducible assumption
    | with_reducible refine logOk_abandonTest _ _ ?_
    | with_reducible refine logOk_next ?_
    | split)

theorem logOk_execTestComplete (die : ℕ) (failures : List Failure) (s : State) (h : LogOk s) :
    OutLog (execTestComplete die failures s) := by
  unfold execTestComplete
  try dsimp only
  repeat' (first
    | with_reducible assumption
    | with_reducible refine logOk_finishTest _ _ _ _ ?_
    | with_reducible refine logOk_next ?_
    | split)

theorem logOk_execSparesTestAfterPowerOn (die : ℕ) (failures : List Failure) (s : State) (h : LogOk s) :
    OutLog (execSparesTestAfterPowerOn die failures s) := by
  unfold execSparesTestAfterPowerOn
  try dsimp only
  repeat' (first
    | with_reducible assumption
    | with_reducible refine logOk_startTest _ _ _ _ _ _ _ ?_
    | with_reducible refine logOk_finishTest _ _ _ _ ?_
    | with_reducible refine logOk_next ?_
    | with_reducible refine logOk_elim _ ?_ (fun a => ?_)
    | split)

theorem logOk_execKeeperFrameReject (frame : KprFrame) (s : State) (hl : LogOk s) :
    OutLog (execKeeperFrameReject frame s) := by
  unfold execKeeperFrameReject
  try dsimp only
  repeat' (first
    | with_reducible assumption
    | with_reducible refine logOk_arrived _ ?_
    | with_reducible refine logOk_kprError _ _ _ _ ?_
    | with_reducible refine logOk_next ?_
    | split)

theorem logOk_execReset (ktag : ℕ) (data : BitVec 32) (s : State) (h : LogOk s) :
    OutLog (execReset ktag data s) := by
  unfold execReset
  try dsimp only
  repeat' (first
    | with_reducible assumption
    | with_reducible refine logOk_kprWrite _ _ _ _ ?_
    | with_reducible refine logOk_next ?_)

theorem logOk_execRstLock (ktag : ℕ) (data : BitVec 32) (s : State) (h : LogOk s) :
    OutLog (execRstLock ktag data s) := by
  unfold execRstLock
  try dsimp only
  repeat' (first
    | with_reducible assumption
    | with_reducible refine logOk_kprWrite _ _ _ _ ?_
    | with_reducible refine logOk_next ?_)

theorem logOk_execMbx0Doorbell (ktag : ℕ) (data : BitVec 32) (s : State) (h : LogOk s) :
    OutLog (execMbx0Doorbell ktag data s) := by
  unfold execMbx0Doorbell
  try dsimp only
  repeat' (first
    | with_reducible assumption
    | with_reducible refine logOk_kprWrite _ _ _ _ ?_
    | with_reducible refine logOk_next ?_)

theorem logOk_execMbx0RspRelease (ktag : ℕ) (data : BitVec 32) (s : State) (h : LogOk s) :
    OutLog (execMbx0RspRelease ktag data s) := by
  unfold execMbx0RspRelease
  try dsimp only
  repeat' (first
    | with_reducible assumption
    | with_reducible refine logOk_kprWrite _ _ _ _ ?_
    | with_reducible refine logOk_next ?_)

theorem logOk_execAlertPend (ktag : ℕ) (data : BitVec 32) (s : State) (h : LogOk s) :
    OutLog (execAlertPend ktag data s) := by
  unfold execAlertPend
  try dsimp only
  repeat' (first
    | with_reducible assumption
    | with_reducible refine logOk_kprWrite _ _ _ _ ?_
    | with_reducible refine logOk_next ?_)

theorem logOk_execCntClr (ktag : ℕ) (port : ℕ) (data : BitVec 32) (s : State) (h : LogOk s) :
    OutLog (execCntClr ktag port data s) := by
  unfold execCntClr
  try dsimp only
  repeat' (first
    | with_reducible assumption
    | with_reducible refine logOk_kprWrite _ _ _ _ ?_
    | with_reducible refine logOk_next ?_)

theorem logOk_execRegisterLoRead (ktag : ℕ) (addr : ℕ) (s : State) (hl : LogOk s) :
    OutLog (execRegisterLoRead ktag addr s) := by
  unfold execRegisterLoRead
  try dsimp only
  repeat' (first
    | with_reducible assumption
    | with_reducible refine logOk_kprRead _ _ _ ?_
    | with_reducible refine logOk_next ?_)

theorem logOk_execRegisterWrite (ktag : ℕ) (addr : ℕ) (data : BitVec 32) (s : State) (h : LogOk s) :
    OutLog (execRegisterWrite ktag addr data s) := by
  unfold execRegisterWrite
  try dsimp only
  repeat' (first
    | with_reducible assumption
    | with_reducible refine logOk_kprWrite _ _ _ _ ?_
    | with_reducible refine logOk_next ?_)

theorem logOk_execKeeperDomainLoss (vinMv : ℕ) (s : State) (h : LogOk s) :
    OutLog (execKeeperDomainLoss vinMv s) := by
  unfold execKeeperDomainLoss
  try dsimp only
  repeat' (first
    | with_reducible assumption
    | with_reducible refine logOk_setVin _ _ ?_
    | with_reducible refine logOk_unpower _ ?_
    | with_reducible refine logOk_next ?_
    | split)

theorem logOk_execKeeperFailover (s : State) (hl : LogOk s) :
    OutLog (execKeeperFailover s) := by
  unfold execKeeperFailover
  try dsimp only
  repeat' (first
    | with_reducible assumption
    | with_reducible refine logOk_setKpr _ _ ?_
    | with_reducible refine logOk_next ?_
    | split)

theorem logOk_execX4RetrainDone (port : ℕ) (s : State) (hl : LogOk s) :
    OutLog (execX4RetrainDone port s) := by
  unfold execX4RetrainDone
  try dsimp only
  repeat' (first
    | with_reducible assumption
    | with_reducible refine logOk_updPort _ _ _ ?_
    | with_reducible refine logOk_next ?_
    | split)

theorem logOk_execSourceStateIdle (die : ℕ) (srcModule : ℕ) (srcDie : ℕ) (s : State) (hl : LogOk s) :
    OutLog (execSourceStateIdle die srcModule srcDie s) := by
  unfold execSourceStateIdle
  try dsimp only
  repeat' (first
    | with_reducible assumption
    | with_reducible refine logOk_updDie _ _ _ ?_
    | with_reducible refine logOk_next ?_)

theorem logOk_execUnmarchedSramMarch (die : ℕ) (s : State) (h : LogOk s) :
    OutLog (execUnmarchedSramMarch die s) := by
  unfold execUnmarchedSramMarch
  try dsimp only
  repeat' (first
    | with_reducible assumption
    | with_reducible refine logOk_startTest _ _ _ _ _ _ _ ?_
    | with_reducible refine logOk_next ?_
    | split)

theorem logOk_execTapInstruction (i : TapInstr) (s : State) (hl : LogOk s) :
    OutLog (execTapInstruction i s) := by
  unfold execTapInstruction
  refine logOk_next ?_
  split
  · exact hl
  · exact hl

theorem logOk_execDipInputFall (vinMv : ℕ) (s : State) (hl : LogOk s) :
    OutLog (execDipInputFall vinMv s) := by
  unfold execDipInputFall
  try dsimp only
  repeat' (first
    | with_reducible assumption
    | with_reducible refine logOk_setVin _ _ ?_
    | with_reducible refine logOk_setPower _ _ ?_
    | with_reducible refine logOk_next ?_
    | split)

end Sys2Proof.Machine
end

