-- ==== Sys2Proof/WellFormed.lean ====
section
/-! DEFINITION. Which commands are well formed: every operand in the range that its field, register or resource has in
the spec (R11, R139, R308, R336, R342, R370, R431, R442). Meanings do not rest on it: they are total. -/

namespace Sys2Proof

/-! ### Numbers by range -/

/-- Sequence numbers, values and identifiers of 64 bits (R139, R146, R375). -/
def seqOk (n : Nat) : Bool := decide (n < 2 ^ 64)

/-- What PITCH_SUSPEND, PITCH_RESUME and PITCH_RELEASE execute: an accepted request, or from 2^64 on a firmware message
(notes/assumptions/37.md). -/
def partOk (n : Nat) : Bool := decide (n < 2 ^ 65)
/-- Identifiers of 32 bits (R186, R194, R244, R352). -/
def idOk (n : Nat) : Bool := decide (n < 2 ^ 32)
/-- Fields of 16 bits. -/
def halfOk (n : Nat) : Bool := decide (n < 2 ^ 16)
/-- Fields of 8 bits. -/
def byteOk (n : Nat) : Bool := decide (n < 2 ^ 8)
/-- Pitch tags of 12 bits (R310, R342). -/
def tagOk (n : Nat) : Bool := decide (n < 4096)
/-- Logical dies and logical clusters of a pitch of at most 1,024 dies (R161, R308). -/
def ldieOk (n : Nat) : Bool := decide (n < 1024)
def lclusterOk (n : Nat) : Bool := decide (n < 16384)
/-- Dies (R11), ports and lanes (R336), channels (R316), mailboxes (R370). -/
def dieOk (n : Nat) : Bool := decide (n < 24)
def portOk (n : Nat) : Bool := decide (n < 72)
def laneOk (n : Nat) : Bool := decide (n < 9)
def channelOk (n : Nat) : Bool := decide (n < 8)
def mailboxOk (n : Nat) : Bool := decide (n < 64)
/-- Ringmaster pairs, and the service cores beside them (R15). -/
def pairOk (n : Nat) : Bool := decide (n < 2)
def coreOk (n : Nat) : Bool := decide (n < 16)
/-- Rails and their phases (R393, R442), causes of keeper-only mode (R411), junction sensors (R405). -/
def railOk (n : Nat) : Bool := decide (n < 8)
def phaseOk (n : Nat) : Bool := decide (n < 13)
def causeOk (n : Nat) : Bool := decide (n < 4)
def sensorOk (n : Nat) : Bool := decide (n < 8)
/-- DRAM pages of a die (R443). -/
def pageOk (n : Nat) : Bool := decide (n < 17920)
/-- Offsets in a die's space (R163) and in a control page (R141), pitch addresses (R165) and keeper addresses (R431). -/
def dieOffOk (n : Nat) : Bool := decide (n < 2 ^ 43)
def pageOffOk (n : Nat) : Bool := decide (n < 4096)
def pitchAddrOk (n : Nat) : Bool := decide (n < 2 ^ 48)
def badReadOk : BadRead → Bool
  | .addr a | .staged a => pitchAddrOk a
  | .slot n => decide (n < 32768)
def keeperAddrOk (n : Nat) : Bool := decide (n < 2 ^ 32)
/-- A row is one of a DRAM channel, channel × 2^32 + row, or of a SECDED bank, bank × 256 + row (R415, R426, R429). -/
def bankRowOk (kind row : Nat) : Bool :=
  if kind = 3 then decide (row < 2 ^ 39) else decide (kind < 8) && kind != 4 && decide (row < 2 ^ 32)
/-- A junction temperature of 16 bits (R442). -/
def tempOk (t : Int) : Bool := -32768 ≤ t && t ≤ 32767
/-- A write has at least one byte. -/
def dataOk (b : Bytes) : Bool := decide (1 ≤ b.length)
/-- Lanes that carry a signal: 0 to 9, the spare among them (R336). -/
def lanesOk (n : Nat) : Bool := decide (n ≤ 9)

/-! ### Composite operands -/

/-- A 16-bit queue number (R139), or the number of a queue that the M24 owns (R189, R298). -/
def queueOk (q : Nat) : Bool := decide (q < 2 ^ 16) || (decide (2 ^ 32 ≤ q) && decide (q < 3 * 2 ^ 32))

/-- Item keys: a 12-bit pitch tag, a queue number and a 64-bit sequence number (R139, R316). -/
def keyOk (k : ItemKey) : Bool := decide (k.tag < 4096) && queueOk k.queue && decide (k.seq < 2 ^ 64)

/-- A physical cluster: 24 dies of 16 clusters (R11). -/
def placeOk (p : Place) : Bool := decide (p.die < 24) && decide (p.cluster < 16)

/-- The widths of a frame's fields (R342). -/
def frameOk (f : Frame) : Bool :=
  decide (f.typ < 256) && decide (f.vc < 8) && decide (f.hchan < 8) && decide (f.len < 2 ^ 16) && decide (f.tag < 4096) &&
  decide (f.srcKind < 4) && decide (f.hops < 256) && decide (f.status < 256) && decide (f.dest < 2 ^ 64) &&
  decide (f.srcModule < 2 ^ 16) && decide (f.srcDie < 256) && decide (f.srcPort < 256) && decide (f.txn < 2 ^ 32) &&
  decide (f.lseq < 2 ^ 32) && decide (f.htag < 2 ^ 32) && decide (f.payload.length ≤ 256) && decide (f.payload.length % 8 = 0) &&
  decide (f.ack < 2 ^ 32)

/-- The widths of a HELLO payload (R355). -/
def helloOk (h : Hello) : Bool :=
  decide (h.serial.length = 16) && decide (h.module < 2 ^ 16) && decide (h.port < 2 ^ 8) && decide (h.ack < 2 ^ 32)

/-- The contents of a LINK_CTRL frame (R341, R345, R346). -/
def ctrlOk (c : LinkCtrl) : Bool :=
  decide (c.ack < 2 ^ 32) && match c.item with
  | .credits l => decide (l.length = 8)
  | .nak n => decide (n < 2 ^ 32)
  | .laneMap l => decide (l < 8)

/-- A keeper frame (R431). -/
def keeperFrameOk (f : KprFrame) : Bool := decide (f.typ < 256) && decide (f.ktag < 256) && decide (f.addr < 2 ^ 32)

/-- An offset in the die's space, or a row of a SECDED bank. -/
def storePlaceOk : StorePlace → Bool
  | .space offset => dieOffOk offset
  | .bank kind row => kind != 3 && bankRowOk kind row

/-- A failure entry: KIND 0 to 7, a cluster (16 is the spare), and its widths (R429). -/
def failureOk (f : Failure) : Bool :=
  decide (f.kind < 8) && decide (f.cluster < 17) && decide (f.addr < 2 ^ 32) &&
  decide (f.observed < 2 ^ 64)

/-- A token step's result for one session: d drafts give d + 1 target samples (R206). -/
def resultOk (r : StepResult) : Bool := r.invalid || decide (r.samples.length = r.drafts.length + 1)

/-- Every operand is in its range. -/
def Instr.wf : Instr → Bool
  | .pitchCreate seq => seqOk seq
  | .pitchRelease seq => partOk seq
  | .pitchBindPort seq => seqOk seq
  | .pitchSuspend seq => partOk seq
  | .pitchResume seq => partOk seq
  | .pitchQuery seq => seqOk seq
  | .pitchMeterRead seq => seqOk seq
  | .workQueueOpen seq => seqOk seq
  | .workQueueClose seq => seqOk seq
  | .workAbort seq => seqOk seq
  | .workContextSave seq => seqOk seq
  | .workContextRestore seq => seqOk seq
  | .svcModelLoad seq => seqOk seq
  | .svcSessionOpen seq => seqOk seq
  | .svcSubmit seq => seqOk seq
  | .svcSessionPause seq => seqOk seq
  | .pauseRecordWritten tag model session => tagOk tag && idOk model && idOk session
  | .svcSessionResume seq => seqOk seq
  | .svcSessionClose seq => seqOk seq
  | .svcBoothConfig seq => seqOk seq
  | .trnRunConfig seq => seqOk seq
  | .trnUpdateRuleSet seq => seqOk seq
  | .trnScheduleSet seq => seqOk seq
  | .trnCheckpointConfigure seq => seqOk seq
  | .trnCheckpointNow seq => seqOk seq
  | .trnCheckpointRestore seq => seqOk seq
  | .trnCheckpointQuery seq => seqOk seq
  | .trnStepMultiplier seq => seqOk seq
  | .turnPlan seq => seqOk seq
  | .turnStartStart seq => seqOk seq
  | .turnStartStop seq => seqOk seq
  | .turnStartContinue seq => seqOk seq
  | .turnStatus seq => seqOk seq
  | .turnRewardPost seq => seqOk seq
  | .fabPortSet seq => seqOk seq
  | .fabRouteSet seq => seqOk seq
  | .fabDiscoverQuery seq => seqOk seq
  | .fabDiscoverSetId seq => seqOk seq
  | .fabDiscoverRefresh seq => seqOk seq
  | .fabBridgeSet seq => seqOk seq
  | .fwStageBegin seq => seqOk seq
  | .fwStageData seq => seqOk seq
  | .fwStageVerify seq => seqOk seq
  | .fwStageDiscard seq => seqOk seq
  | .fwStageQuery seq => seqOk seq
  | .fwActivate seq => seqOk seq
  | .flashRewriteDone _ => true
  | .standbyReadyTimeout => true
  | .handoverBoundaryTimeout => true
  | .attestQuote seq => seqOk seq
  | .devIdentity seq => seqOk seq
  | .bistRun seq => seqOk seq
  | .repairSoft seq => seqOk seq
  | .repairFuse seq => seqOk seq
  | .bistResult seq => seqOk seq
  | .pwrDieStateQuery seq => seqOk seq
  | .pwrDieStateSetCap seq => seqOk seq
  | .pwrDieStateSetIdle seq => seqOk seq
  | .pwrDieStateDrain seq => seqOk seq
  | .pwrDieStateReturn seq => seqOk seq
  | .pwrDieStateOff seq => seqOk seq
  | .pwrDieStateKeeperOnly seq => seqOk seq
  | .pwrDieStateExit seq => seqOk seq
  | .telemetryRead seq => seqOk seq
  | .eventLogRead seq => seqOk seq
  | .logicalClusterMove tag lcluster => tagOk tag && lclusterOk lcluster
  | .doorbell tag queue value => tagOk tag && halfOk queue && seqOk value
  | .ackWr tag queue value => tagOk tag && halfOk queue && seqOk value
  | .controlPageWriteInvalid tag queue offset data => tagOk tag && halfOk queue && pageOffOk offset && dataOk data
  | .descriptorConsume tag queue => tagOk tag && queueOk queue
  | .itemReady key => keyOk key
  | .itemStaged key => keyOk key
  | .carouselDispatch place _ => placeOk place
  | .clusterWake place => placeOk place
  | .mma key => keyOk key
  | .arrayTileHandoff key => keyOk key
  | .ewOperation key => keyOk key
  | .mvp key => keyOk key
  | .mvpStripHandoff key => keyOk key
  | .vec key => keyOk key
  | .sample key => keyOk key
  | .logsoftmax key => keyOk key
  | .move key => keyOk key
  | .collective key => keyOk key
  | .collectivePass1AtRoot tag ident => tagOk tag && seqOk ident
  | .collectiveAnchorReceived key => keyOk key
  | .collectiveResultWritten tag ident => tagOk tag && seqOk ident
  | .rand key => keyOk key
  | .signal key => keyOk key
  | .wait key => keyOk key
  | .itemComplete key => keyOk key
  | .runningItemAbortStop key => keyOk key
  | .stridedGapFault key => keyOk key
  | .scaleRecheckFail key => keyOk key
  | .uncorrectableRead key at_ => keyOk key && badReadOk at_
  | .correctedErrorWriteback die place => dieOk die && storePlaceOk place.place
  | .patrolScrub die place _ => dieOk die && storePlaceOk place
  | .rowRepairInService die kind row => dieOk die && bankRowOk kind row
  | .logicalClusterSwitch place lcluster => placeOk place && lclusterOk lcluster
  | .clusterDoze place => placeOk place
  | .clusterRest place => placeOk place
  | .dramPllStop die => dieOk die
  | .tokenStepForm tag model => tagOk tag && idOk model
  | .tokenStepCommit tag model step _ results => tagOk tag && idOk model && seqOk step && results.all resultOk
  | .boothResumePass tag model => tagOk tag && idOk model
  | .boothModeChange tag model => tagOk tag && idOk model
  | .tokenStepFail tag model step => tagOk tag && idOk model && seqOk step
  | .hashedBlockUncorrectable tag model block => tagOk tag && idOk model && idOk block
  | .sessionExpire tag model session => tagOk tag && idOk model && idOk session
  | .rewardProgramRun tag run => tagOk tag && idOk run
  | .learnProgramRun tag run => tagOk tag && idOk run
  | .rolloutEnd tag run admitSeq => tagOk tag && idOk run && seqOk admitSeq
  | .phaseStart tag run => tagOk tag && idOk run
  | .turnoverOpen tag run => tagOk tag && idOk run
  | .turnoverArmed tag run => tagOk tag && idOk run
  | .drainEnd tag run => tagOk tag && idOk run
  | .swapStart tag run => tagOk tag && idOk run
  | .layerWindowOpen tag run layer => tagOk tag && idOk run && idOk layer
  | .layerGateOpen tag run layer => tagOk tag && idOk run && idOk layer
  | .turnoverDone tag run => tagOk tag && idOk run
  | .windowOpenTimeout tag run layer => tagOk tag && idOk run && idOk layer
  | .crusherDelivery tag ident => tagOk tag && seqOk ident
  | .blockUpdate tag run layer block => tagOk tag && idOk run && idOk layer && idOk block
  | .blockMissed tag run layer block => tagOk tag && idOk run && idOk layer && idOk block
  | .heldBlockStage tag run layer block => tagOk tag && idOk run && idOk layer && idOk block
  | .heldBlocksApply tag run ldie => tagOk tag && idOk run && ldieOk ldie
  | .laggedMultWaitEnd tag run layer block => tagOk tag && idOk run && idOk layer && idOk block
  | .normPartialSend tag run ldie => tagOk tag && idOk run && ldieOk ldie
  | .runStepCommit tag run => tagOk tag && idOk run
  | .kronRefreshDone tag run layer block => tagOk tag && idOk run && idOk layer && idOk block
  | .emissionSend tag run layer block => tagOk tag && idOk run && idOk layer && idOk block
  | .checkpointLayerSend tag run ldie layer => tagOk tag && idOk run && ldieOk ldie && idOk layer
  | .checkpointSlotComplete tag run => tagOk tag && idOk run
  | .checkpointTimeout tag run => tagOk tag && idOk run
  | .linkFrameReceive port frame => portOk port && frameOk frame.frame
  | .nakReceive port n => portOk port && idOk n
  | .replayLimit port => portOk port
  | .linkCtrlReceive port ctrl => portOk port && ctrlOk ctrl
  | .creditReturnTimer port => portOk port
  | .routeFrame die _ => dieOk die
  | .routingFaultDiscard die _ => dieOk die
  | .replayTakeback port => portOk port
  | .e2eFrameDeliver die frame => dieOk die && frameOk frame
  | .e2eResponseReceive die frame => dieOk die && frameOk frame
  | .e2eResendTimer die txn => dieOk die && idOk txn
  | .e2eTransactionFail die txn => dieOk die && idOk txn
  | .hostIngress port vc frame => portOk port && channelOk vc && frameOk frame
  | .controlPageWriteRelease port => portOk port
  | .hostWindowEgress die frame => dieOk die && frameOk frame
  | .helloReceive port hello => portOk port && helloOk hello
  | .helloTimer => true
  | .portSignalDetect port lanes => portOk port && lanesOk lanes
  | .portTrainDone port hello => portOk port && helloOk hello
  | .portTrainTimeout port => portOk port
  | .portDown port => portOk port
  | .laneFail port lane => portOk port && laneOk lane
  | .msgSegmentReceive frame => frameOk frame
  | .msgStatusRead frame => frameOk frame
  | .msgAssemblyTimeout mailbox => mailboxOk mailbox
  | .requestSubmit mailbox => mailboxOk mailbox
  | .fenceRelease seq => seqOk seq
  | .replayEntryExpire mailbox requestId => mailboxOk mailbox && seqOk requestId
  | .coordinationTimeout seq => seqOk seq
  | .suspendTimeout tag => tagOk tag
  | .ringmasterTakeover => true
  | .heartbeatTimeout pair => pairOk pair
  | .serviceCoreFault core => coreOk core
  | .takeoverResume => true
  | .boot => true
  | .recoveryAnnounce => true
  | .powerOnSequence _ => true
  | .railRegulationTimeout die rail => dieOk die && railOk rail
  | .undervoltageReset _ => true
  | .overvoltageReset _ => true
  | .overVoltage _ => true
  | .resetNAssert _ => true
  | .modEnableDeassert _ => true
  | .dipBegin _ => true
  | .dipInputRise _ => true
  | .dipEnd _ => true
  | .powerControlEval _ _ _ => true
  | .stepChangeDone die => dieOk die
  | .thermalControlEval die tj sensor => dieOk die && tempOk tj && sensorOk sensor
  | .thermalTrip die tj => dieOk die && tempOk tj
  | .phaseLost die rail phase => dieOk die && railOk rail && phaseOk phase
  | .keeperOnlyEntry cause => causeOk cause
  | .pwarnEval _ => true
  | .meterMinute => true
  | .unmarchedFirstWrite die page => dieOk die && pageOk page
  | .backgroundMarchPage die page => dieOk die && pageOk page.page && page.failures.all failureOk
  | .testWindowLost die => dieOk die
  | .testComplete die failures => dieOk die && failures.all failureOk
  | .sparesTestAfterPowerOn die failures => dieOk die && failures.all failureOk
  | .keeperFrameReject frame => keeperFrameOk frame
  | .reset ktag _ => byteOk ktag
  | .rstLock ktag _ => byteOk ktag
  | .mbx0Doorbell ktag _ => byteOk ktag
  | .mbx0RspRelease ktag _ => byteOk ktag
  | .alertPend ktag _ => byteOk ktag
  | .cntClr ktag port _ => byteOk ktag && portOk port
  | .registerLoRead ktag addr => byteOk ktag && keeperAddrOk addr
  | .registerWrite ktag addr _ => byteOk ktag && keeperAddrOk addr
  | .keeperDomainLoss _ => true
  | .keeperFailover => true
  | .x4RetrainDone port => portOk port
  | .sourceStateIdle die srcModule srcDie => dieOk die && halfOk srcModule && dieOk srcDie
  | .unmarchedSramMarch die => dieOk die
  | .tapInstruction _ => true
  | .dipInputFall _ => true

end Sys2Proof
end

