-- ==== Sys2Proof/Tests/Slice0.lean ====
section
/-! SUPPORT. The model's own tests: the checks of WellFormed refuse an ill-formed command each, and for every statement a
state and operands that meet its hypotheses. -/

namespace Sys2Proof.Tests

open Sys2Proof Sys2Proof.Machine

set_option Elab.async false

/-! ### States and operands for the tests -/

/-- `n` bytes, zero but for the fields given as offset, length and value. -/
def fld (n : Nat) (fs : List (Nat × Nat × Nat)) : Bytes :=
  fs.foldl (fun b f => b.take f.1 ++ le f.2.1 f.2.2 ++ b.drop (f.1 + f.2.1)) (List.replicate n 0)

/-- An accepted and released request of pitch 7. -/
def rq (command : Nat) (body : Bytes) : Request :=
  { seq := 0, mailbox := 1, command := command, fence := false, requestId := 5, srcPort := 0, hchan := 0, tag := 7, srcModule := 1
    htag := 0, body := body, released := true }

/-- A state with that request in the journal. -/
def asked (s : State) (command : Nat) (body : Bytes) : State := s.setRing { s.ring with journal := [rq command body] }

/-- A READY module with ID 1. -/
def base : State :=
  let s := State.reset.setFab { assigned := true, moduleId := 1 }
  s.setKpr { s.kpr with mod := .ready, now := 100000000 }

/-- The module's powered twin of a state. -/
def powered (s : State) : State := (s.setDies (s.dies.map fun d => { d with railsUp := true })).setPower { s.power with phase := .up }

/-- Pitch 7 on D00. -/
def pit : Pitch :=
  { tag := 7, strict := false, localDies := 1, stagingMib := 2, members := [(1, 1)], regions := [], shares := [1, 1, 1, 1]
    createBody := [], createSeq := 0, lmap := (List.range 16).map fun c => ⟨1, 0, c⟩ }

/-- The module with one pitch. -/
def on (p : Pitch) : State := powered (base.setPitches [p])

/-- The same with a request of the pitch. -/
def onReq (p : Pitch) (command : Nat) (body : Bytes) : State := asked (on p) command body

/-- A queue of the pitch with two descriptors before it, one of them consumed. -/
def que : Queue :=
  { id := 0, ringBase := 0, compBase := 4096, notifyAddr := 0, ringSize := 16, homeLdie := 0, weight := 1, ageLimit := 1000
    head := 1, tail := 2 }

/-- The key of the pitch's work item. -/
def key : ItemKey := ⟨7, 0, 1⟩

/-- A work descriptor of a type, a control word and further fields, for logical cluster 0. -/
def work (typ control : Nat) (fs : List (Nat × Nat × Nat)) : Bytes :=
  fld 128 ([(0, 8, 1), (8, 1, typ), (16, 2, 0xFFFF), (18, 2, 0xFFFF), (40, 8, control)] ++ fs)

/-- The item of a work descriptor, running. -/
def itm (typ control : Nat) (fs : List (Nat × Nat × Nat)) (ds : List (Option (Bytes × Option Bytes))) : Item :=
  { key := key, wd := work typ control fs, descs := ds, phase := .running, dispatched := true }

/-- The pitch with that item. -/
def running (i : Item) : Pitch := { pit with queues := [que], items := [i] }

/-- The item's key on every engine of its cluster. -/
def busy (s : State) : State :=
  s.updCluster ⟨0, 0⟩ fun c =>
    { c with
      st := .working, current := some 0, onArrays := some key, onMvp := some key, onVector := some key, onMover0 := some key
      onReadout := some key }

/-- A descriptor of one dimension with one strip: its base, format and number of valid lanes. -/
def vec1 (base fmt tail : Nat) : Bytes :=
  fld 64 [(0, 8, base + fmt * 2 ^ 48 + 2 ^ 52 + 2 ^ 55 + tail * 2 ^ 58), (16, 6, 1 + 2 ^ 30)]

/-- The same with `n` strips, one after another. -/
def vecs (n base fmt tail : Nat) : Bytes :=
  fld 64 [(0, 8, base + fmt * 2 ^ 48 + 2 ^ 52 + 2 ^ 55 + tail * 2 ^ 58), (16, 6, n * 2 ^ 30 + 1)]

/-- An operand of an item. -/
def opd (i : Nat) (raw : Bytes) : Operand := ⟨i, parseDesc raw, raw, none, decide (i = 3)⟩

/-- A tile of zeros in the working accumulators. -/
def tile0 : TileAccs := ⟨key, 0, List.replicate 1024 {}, false, false⟩

/-- The item as a contributor that has one lane, before and after its second read. -/
def member (rounded : Bool) : Contributor := ⟨key, 0, [[{}]], [], none, false, rounded⟩

/-- A collective with one contributor, whose result goes to one strip of FP32. -/
def coll : Coll :=
  { ident := 0, control := 0, dest := vec1 4096 7 1, draw := [], contributors := [member false], anchors := none
    sums := [], masks := [], ancSat := false, satStrips := [], delivered := false }

/-- The same with its anchors formed. -/
def anchored : Coll := { coll with anchors := some [0], sums := [List.replicate 32 0], masks := [List.replicate 32 false] }

/-- A present operand slot of a work descriptor. -/
def slot (i addr : Nat) : Nat × Nat × Nat := (96 + 8 * i, 8, addr + 2 ^ 48)

/-- Bytes stored in the pitch's DRAM, at an address of its first partition. -/
def stored (s : State) (a : Nat) (b : Bytes) : State :=
  (translate s pit a).elim s fun l => match l with
    | .cell _ k => s.setMem (memWrite s.mem (b.zipIdx.map fun x => (k + x.2, x.1)))
    | .ctrl _ _ => s

/-- Bytes with their own SHA-384 put at an offset where they hold zeros. -/
def digested (off : Nat) (b : Bytes) : Bytes := b.take off ++ sha384 b ++ b.drop (off + 48)

/-- A model instance with one session. -/
def ses : Session :=
  { id := 0, pinned := false, noPrefix := false, stream := 0, temp := 0, topP := 0x3F800000, topK := 0, maxLen := 64, outBase := 8192
    outSlots := 64, stop := [], openBytes := [] }

def mdl (x : Session) : Model :=
  { id := 1, reuse := false, staleReuse := false, spec := false, draftLen := 0, draftModel := 0, epoch := 0, seed := 0, nblocks := 4
    maxStepTokens := 64, prefillChunk := 64, vocab := 16, layers := 1, dies := [(0, 65536)], kvPosBytes := 64, maxLen := 64
    depth := 1, booth := { pauseBase := spoilBase, pauseBytes := 2 ^ 22 }, sessions := [x] }

/-- The pitch with that instance. -/
def serving (x : Session) : Pitch := { pit with models := [mdl x] }

/-- A session's request to generate. -/
def gen : ActiveReq :=
  { prio := 0, generate := true, reqTag := 0, remaining := 4, ttft := 0, tpot := 0, order := 0, reserved := 1, afterSwap := false
    rollout := none, bytes := [], shadowReserved := 0 }

/-- A token step of one part, with the items that it has submitted, and the pitch whose instance has it, with one failed item. -/
def tok (again : Bool) (seqs : List (Nat × Nat)) : TokStep :=
  { id := 0, epoch := 0, formedAt := 0, parts := [⟨0, 0, 0, false, 0, 0⟩], again := again, seqs := seqs }

def stepping (x : Session) (t : TokStep) : Pitch :=
  { pit with
    models := [{ mdl x with steps := [t] }]
    queues := [{ ownedQueue (gulperQueue 1) 0 with ended := [(0, stUncorrectable)] }] }

/-- A draft instance, and a target instance with one session that takes drafts of it. -/
def drafted : Pitch :=
  { pit with
    models := [{ mdl ses with sessions := [] },
      { mdl { ses with st := .decode, tokens := [1, 2], kvValid := 1, req := some gen } with
        id := 2, spec := true, draftLen := 4, draftModel := 1 }] }

/-- A pause on its way to a record of 64 bytes. -/
def pau : Pause :=
  { byBooth := false, prior := .idle, at_ := 0, deadline := 200000000, addr := 0, nbytes := 64, digest := sha384 (List.replicate 64 0)
    blocks := [], shadow := [], request := none, written := false }

/-- A descriptor of one row and one column. -/
def mat1 (base fmt : Nat) : Bytes :=
  fld 64 [(0, 8, base + fmt * 2 ^ 48 + 2 ^ 53 + 2 ^ 55 + 2 ^ 58), (16, 6, 1 + 2 ^ 30), (22, 6, 1 + 2 ^ 30)]

/-- A layer of one weight, without and with a rule, its Crusher block, and a run of it. -/
def lay : Layer := { rows := 1, cols := 1, ownerFirst := 0, ownerCount := 1, ngroups := 1, a32 := false, tag := 0 }

def rul : Rule :=
  { rule := 0, nesterov := false, saturate := false, round := 0, auto := true, pRoot := 0, eOut := 0, lr := 0, wd := 0, muB1 := 0
    b2 := 0, eps := 0, refresh := 0, swapDelay := 0, iters := 0, areas := [65536], stateBytes := 524352, holders := []
    emitSeed := 0, emitStream := 0 }

def laid : Layer := { lay with rule := some rul }

def blk : CBlock := { layer := 0, block := 0, step := 0 }

def run1 (l : Layer) (c : CBlock) : Run :=
  { id := 1, held := false, eval := 0, layers := [l], startStep := 0, normAddr := 4096, normSig := 0xFFFF, evalFirst := 0
    evalCount := 0, initMult := 0x3F800000, holdTable := [], holdBytes := 0, step := 0, blocks := [c] }

/-- A checkpoint area in the first spoil region. -/
def ckp : Ckpt := { spoil := true, every := 0, areas := [spoilBase], slotBytes := 176, timeoutMs := 1000 }

/-- The pitch with a run. -/
def training (r : Run) : Pitch := { pit with runs := [r] }

/-- A collective that delivers into the run's block, complete. -/
def delivered : Coll :=
  { coll with control := 8, dest := fld 64 [(0, 4, 1)], contributors := [member true], anchors := some [0] }

/-- A plan of the run and the instance with one LEARN phase. -/
def plan : Plan :=
  { run := 1, model := 1, shadow := true, kvRecompute := false, drainMs := 1000, phases := [⟨1, false, false, 1⟩], loopFrom := 0
    phaseSig := 0xFFFF, layerMap := [], bounds := [1], table := 65536, slots := 1, perStep := 1, dataBase := 131072, dataBytes := 4096
    rewardProg := false, shadows := [] }

/-- A rollout that has ended. -/
def rol : Rollout :=
  { admitSeq := 0, reqTag := 0, session := 0, firstPos := 0, nGen := 1, ended := true, rewarded := false, mixed := false
    pinned := false, endReason := 0, status := 0, epochLo := 0, epochHi := 0, reward := 0, dataAddr := 131072, dataBytes := 64
    closing := false }

/-- The plan in a turnover from step 0. -/
def pln : Plan := { plan with state := 1, source := some 0, layerMap := [(0, 0)] }

/-- The Crusher block with a strip of step 0 that waits for its holder. -/
def emb : CBlock :=
  { blk with
    step := 1, emission := [(0, [{ holder := 0, piece := ⟨0, 0, 1, 0, 1, mat1 4096 7⟩, v := [0, 0], codes := [], scale := 0 }])] }

/-- The run after step 0 with a checkpoint. -/
def sending (c : Ckpt) : Run := { run1 laid { blk with step := 1 } with ckpt := some c }

/-- The pitch with a run, the instance and a plan. -/
def turning (r : Run) (x : Plan) : Pitch := { training r with models := [mdl ses], plans := [x] }

/-- The module with port 0 in a given state. -/
def ported (p : Port) : State := base.updPort 0 fun _ => p

/-- A die 0 on which a test can start. -/
def warm : State :=
  (powered base).updDie 0 fun d => { d with vddCoreMv := 750, step := 9, powerStep := 9, sramUnmarched := true }

/-- A die 0 whose first `n` pages have been marched. -/
def marchedTo (n : Nat) : State := base.updDie 0 fun d => { d with marched := List.range n }

theorem range_found (n : Nat) : ((List.range n).find? fun g => !(List.range n).contains g) = none :=
  List.find?_eq_none.mpr fun g h => by simpa using h

theorem nextPage_none {d : Die} (h : d.marched = List.range Config.diePages) : d.nextPage = none := by
  unfold Die.nextPage
  rw [h]
  exact range_found _

theorem marchedTo_marched (n : Nat) : ((marchedTo n).die 0).marched = List.range n := rfl

theorem allMarched_next : ((marchedTo Config.diePages).die 0).nextPage = none := nextPage_none (marchedTo_marched _)

/-- A transaction of die 0 that has no outcome. -/
def waitingTxn (f : Frame) (owner : Option ItemKey) : State :=
  base.updDie 0 fun d => { d with txns := [⟨f, none, 0, 0, 1000, owner⟩] }

/-- A finished item whose result lies in memory of module 2, and its pitch. -/
def abroadItem : Item :=
  { itm 1 0 [slot 3 0] [none, none, none, some (vec1 4096 7 1, none)] with
    phase := .finished, result := { range0 := (4096, 4224) } }

def abroad : Pitch := { running abroadItem with members := [(1, 1), (2, 1)], lmap := [⟨2, 0, 0⟩] }

/-- A pitch in the last stage of a turnover, whose block has landed. -/
def swapped : Pitch :=
  { training (run1 lay { blk with step := 1 }) with
    models := [mdl ses], plans := [{ plan with stage := 4, source := some 0, layerMap := [(0, 0)] }] }

/-- A frame of the keeper port with its CRC. -/
def keeperFrame (typ addr : Nat) : KprFrame :=
  { typ := typ, ktag := 0, addr := addr, crc := crc32c (kprBody { typ := typ, ktag := 0, addr := addr }) }

/-- A neighbour's HELLO. -/
def hel : Hello := { serial := List.replicate 16 0, module := 2, assigned := true, port := 3, adapter := false, changes := 0 }

/-- A waiting frame to a module. -/
def toward (module : Nat) : Waiting := ⟨{ typ := 1, len := 1, dest := module * 2 ^ 48, srcModule := 1 }, false, 0, none, false⟩

/-- A submission of pitch 7. -/
def sub : Submission := { srcPort := 0, hchan := 0, tag := 7, srcModule := 1, htag := 0, bytes := [], viaHost := true }

/-- Big-endian bytes of a 384-bit number. -/
def be48 (x : Nat) : Bytes := (le 48 x).reverse

/-- A firmware image of one section, signed with the private key 1 and the ephemeral key 1 (computed by hand from the standard). -/
def img : Bytes :=
  fld 41 [(0, 4, 0x52474D01), (4, 4, 256), (8, 8, 384), (25, 1, 1), (40, 1, 4)] ++ be48 p384Gx ++ be48 p384Gy ++
  fld 151 [(119, 2, 1), (127, 8, 288)] ++ be48 p384Gx ++
  be48 0xa04635efebacbfa67b12fa997a085e1ad7f5e13e2b3264a3788be68d1536c4d4370d5608f9c921a58229040c069f92df

/-- Firmware storage whose flash and stage hold that image, with its key trusted. -/
def holdingImg : Firmware :=
  { flash := img, control := [controlCopy 0 384 [], controlCopy 0 384 []], keyHashes := [sha384 (slice img 40 97)]
    revoked := [false], svnMin := 0, stage := 1, stageSize := 384, stageData := (img.zipIdx.map fun x => (x.2, x.1)).filter fun c => c.2 != 0
    stageWritten := List.range 48 }

theorem img_verifies : verifyImage holdingImg img = some (imageFields img) := by decide +kernel

theorem img_staged : (base.setFw holdingImg).stageBytes = img := by decide +kernel

/-- A test record of die 0 with one failure that is open. -/
def tst : TestRecord :=
  { testId := 0, target := 0, origin := 1, status := 0, dieMask := 1, abandoned := 0, startAt := 0, endAt := 0
    entries := [(0, 0, ⟨0, 0, 0, 0, 0, 1, true⟩)], repairsApplied := 0, unrepaired := 1, faulted := 0, open_ := [], request := none }

/-- An optional pair of known first part, taken apart. -/
theorem opt_eq {β : Type} {o : Option (Nat × β)} {a : Nat} (d : β) (h : o.map (·.1) = some a) :
    o = some (a, (o.map (·.2)).getD d) := by
  cases o with
  | none => exact nomatch h
  | some x => exact congrArg some (Prod.ext (Option.some.inj h) rfl)

/-- A result that is no error, taken apart. -/
def isOk {α : Type} : Except Nat α → Bool
  | .ok _ => true
  | .error _ => false

def okGet {α : Type} : (e : Except Nat α) → isOk e = true → α
  | .ok x, _ => x
  | .error _, h => absurd h Bool.false_ne_true

theorem ok1 {α : Type} {e : Except Nat α} (h : isOk e = true) : e = .ok (okGet e h) := by
  cases e with
  | ok x => rfl
  | error n => exact absurd h Bool.false_ne_true

theorem ok2 {α β : Type} {e : Except Nat (α × β)} (h : isOk e = true) : e = .ok ((okGet e h).1, (okGet e h).2) := ok1 h

theorem ok3 {α β γ : Type} {e : Except Nat (α × β × γ)} (h : isOk e = true) :
    e = .ok ((okGet e h).1, (okGet e h).2.1, (okGet e h).2.2) := ok1 h

def okBe (e : Except Nat Bytes) (x : Bytes) : Bool :=
  match e with
  | .ok y => decide (y = x)
  | .error _ => false

theorem ok_be {e : Except Nat Bytes} {x : Bytes} (h : okBe e x = true) : e = .ok x := by
  cases e with
  | ok y => exact congrArg Except.ok (of_decide_eq_true h)
  | error n => exact absurd h Bool.false_ne_true

theorem pair_eq {α β : Type} {x : α × β} : x = (x.1, x.2) := rfl

theorem kept_eq {α : Type} {x : α × Option Nat} (h : x.2 = none) : x = (x.1, none) := Prod.ext rfl h

theorem kept_eq2 {α β : Type} {x : (α × β) × Option Nat} (h : x.2 = none) : x = ((x.1.1, x.1.2), none) := Prod.ext rfl h

/-! ### Ill-formed commands, one for each check -/

theorem test_wf_port : (Instr.replayLimit 72).wf = false := by decide
theorem test_wf_seq : (Instr.pitchCreate (2 ^ 64)).wf = false := by decide
theorem test_wf_id : (Instr.nakReceive 0 (2 ^ 32)).wf = false := by decide
theorem test_wf_half : (Instr.doorbell 7 (2 ^ 16) 0).wf = false := by decide
theorem test_wf_byte : (Instr.reset 256 0).wf = false := by decide
theorem test_wf_tag : (Instr.tokenStepForm 4096 1).wf = false := by decide
theorem test_wf_ldie : (Instr.heldBlocksApply 7 1 1024).wf = false := by decide
theorem test_wf_lcluster : (Instr.logicalClusterSwitch ⟨0, 0⟩ 16384).wf = false := by decide
theorem test_wf_die : (Instr.dramPllStop 24).wf = false := by decide
theorem test_wf_lane : (Instr.laneFail 0 9).wf = false := by decide
theorem test_wf_channel : (Instr.hostIngress 0 8 { typ := 1 }).wf = false := by decide
theorem test_wf_mailbox : (Instr.requestSubmit 64).wf = false := by decide
theorem test_wf_pair : (Instr.heartbeatTimeout 2).wf = false := by decide
theorem test_wf_core : (Instr.serviceCoreFault 16).wf = false := by decide
theorem test_wf_rail : (Instr.railRegulationTimeout 0 8).wf = false := by decide
theorem test_wf_phase : (Instr.phaseLost 0 1 13).wf = false := by decide
theorem test_wf_cause : (Instr.keeperOnlyEntry 4).wf = false := by decide
theorem test_wf_sensor : (Instr.thermalControlEval 0 0 8).wf = false := by decide
theorem test_wf_temp : (Instr.thermalTrip 0 32768).wf = false := by decide
theorem test_wf_page : (Instr.unmarchedFirstWrite 0 17920).wf = false := by decide
theorem test_wf_die_offset : (Instr.correctedErrorWriteback 0 ⟨.space (2 ^ 43), 1⟩).wf = false := by decide
theorem test_wf_page_offset : (Instr.controlPageWriteInvalid 7 0 4096 [0]).wf = false := by decide
theorem test_wf_data : (Instr.controlPageWriteInvalid 7 0 0 []).wf = false := by decide
theorem test_wf_pitch_address : (Instr.uncorrectableRead ⟨7, 0, 1⟩ (.addr (2 ^ 48))).wf = false := by decide
theorem test_wf_keeper_address : (Instr.registerLoRead 0 (2 ^ 32)).wf = false := by decide
theorem test_wf_row_kind : (Instr.rowRepairInService 0 8 0).wf = false := by decide
theorem test_wf_lanes : (Instr.portSignalDetect 0 10).wf = false := by decide
theorem test_wf_key : (Instr.itemReady ⟨4096, 0, 0⟩).wf = false := by decide
theorem test_wf_place : (Instr.clusterWake ⟨0, 16⟩).wf = false := by decide
theorem test_wf_frame : (Instr.msgStatusRead { typ := 4, payload := [0] }).wf = false := by decide
theorem test_wf_hello :
    (Instr.helloReceive 0 { serial := [], module := 2, assigned := true, port := 0, adapter := false, changes := 0 }).wf = false := by decide
theorem test_wf_ctrl : (Instr.linkCtrlReceive 0 ⟨.laneMap 8, 0⟩).wf = false := by decide
theorem test_wf_keeper_frame : (Instr.keeperFrameReject ⟨256, 0, 0, 0, 0⟩).wf = false := by decide
theorem test_wf_failure : (Instr.testComplete 0 [⟨8, 0, 0, 0, 0, 0, true⟩]).wf = false := by decide
theorem test_wf_result : (Instr.tokenStepCommit 7 1 0 0 [⟨0, [5], [⟨1, 0⟩], false⟩]).wf = false := by decide
theorem test_wf_good : (Instr.cntClr 255 71 1).wf = true := by decide

/-! ### The standards' own examples -/

/-- The check value of the CRC-32C polynomial, over the nine digits "123456789", as its catalogue prints it. -/
theorem test_crc32c : crc32c [0x31, 0x32, 0x33, 0x34, 0x35, 0x36, 0x37, 0x38, 0x39] = 0xE3069283 := by decide +kernel

/-- SHA-384 of the three bytes "abc", as the published standard prints it. -/
theorem test_sha384_abc :
    number (sha384 [0x61, 0x62, 0x63]).reverse =
      0xcb00753f45a35e8bb5a03d699ac65007272c32ab0eded1631a8b605a43ff5bed8086072ba1e7cc2358baeca134c825a7 := by decide +kernel

/-- The AES-256 example vector that FIPS 197 prints. -/
theorem test_aes256 :
    aesEncrypt (roundKeys ((List.range 32).map (BitVec.ofNat 8))) ((List.range 16).map fun i => BitVec.ofNat 8 (17 * i)) =
      be 16 0x8ea2b7ca516745bfeafc49904b496089 := by decide +kernel

/-- The first data of XTS-AES-256 vector 10 that IEEE 1619 prints, and its way back. -/
theorem test_xts :
    let key := be 32 0x2718281828459045235360287471352662497757247093699959574966967627 ++
      be 32 0x3141592653589793238462643383279502884197169399375105820974944592
    let plain := (List.range 32).map (BitVec.ofNat 8)
    let cipher := be 32 0x1c3b3a102f770386e4836c99e370cf9bea00803f5e482357a4ae12d414a3e63b
    xtsEncrypt key 0xff plain = cipher ∧ xtsDecrypt key 0xff cipher = plain := by decide +kernel

/-! ### The spec's worked examples -/

/-- The example after R43: one product of two scaled E4M3 operands, in accumulator units. -/
theorem test_product : product (decode .e4m3 0xCB (-3)) (decode .e4m3 0x3C 2) = -33 * 2 ^ 109 := by decide

/-- Row 6 of that example: the accumulator. -/
theorem test_accumulator :
    (Acc.add {} (-33 * 2 ^ 109)).val = 0xFFFFFFFFFFFFFFFFFFFFFFFFFFFFFFFFFFFBE000000000000000000000000000 := by decide +kernel

/-- Rows 8 to 10: its readout by RNE, RTZ and SR. -/
theorem test_readout :
    (readout .e4m3 .rne false 0 0 (Acc.add {} (-33 * 2 ^ 109))).1.code = 0xC8 ∧
    (readout .e4m3 .rtz false 0 0 (Acc.add {} (-33 * 2 ^ 109))).1.code = 0xC8 ∧
    (readout .e4m3 .sr false 0x00123456 0 (Acc.add {} (-33 * 2 ^ 109))).1.code = 0xC9 := by decide +kernel

/-- The example of the anchored reductions: both roundings and the readout of the sum. -/
theorem test_anchored :
    anchorRound true 2 ⟨3, 0, false⟩ = (0x180000, false) ∧ anchorRound true 2 ⟨11184811, -25, false⟩ = (0x2AAAB, false) ∧
    (convert .fp32 .rne false 0 0 (anchoredNum true 2 0x1AAAAB false)).code = 0x40555558 := by decide +kernel

/-- The example after R67: the BF16 bias read by token 77, channel 1,000. -/
theorem test_descriptor :
    let t := parseDesc (le 8 0x00A6001234000000 ++ le 8 0 ++ le 6 0x002000000001 ++ le 6 0x004000000000 ++ fld 36 [])
    t.stripAddr (t.stripOff [31, 77]) + 8 * 2 = 0x0012340007D0 ∧ t.logical none [31, 77] 8 = 316392 := by decide +kernel

/-- The example after R71: the destination whose strides do not nest, and with the stride raised. -/
theorem test_injective :
    (parseDesc (fld 64 [(0, 8, 0x00A3000000000000), (16, 6, 2 + 3 * 2 ^ 30), (22, 6, 3 + 2 * 2 ^ 30)])).injective = false ∧
    (parseDesc (fld 64 [(0, 8, 0x00A3000000000000), (16, 6, 2 + 3 * 2 ^ 30), (22, 6, 6 + 2 * 2 ^ 30)])).injective = true := by
  decide +kernel

/-- Step 4 and steps 7 and 8 of the example after R124. -/
theorem test_sampling :
    topPSum 0x3F666666 (15 * 2 ^ 37) = 1855425822720 ∧
    keepUpTo [2 ^ 40, 2 ^ 39, 2 ^ 38, 2 ^ 37] 1855425822720 0 [0, 1, 2, 3] = [0, 1, 2] ∧
    firstAbove [2 ^ 40, 2 ^ 39, 2 ^ 38] 1202590842880 0 [1, 0, 2] = 0 := by decide +kernel

/-- The index of the example after R133: row 1,300, column 700, in cluster 5's rows. -/
theorem test_frame_index :
    (parseDesc (fld 64 [(0, 8, 0x00A5000000000000), (16, 6, 1 + 128 * 2 ^ 30), (22, 6, 128 + 256 * 2 ^ 30)])).logical
      (some ⟨[4096, 4096], [0, 1280], true⟩) [21, 20] 28 = 0x5142BC := by decide +kernel

/-- Step 5 of the booth's example: t(4,096). -/
theorem test_step_time : ({ baseNs := 8000000, perPosPs := 1500000 } : Booth).stepNs 4096 = 14144000 := by decide +kernel

/-- The multiplier of the example after R265. -/
theorem test_multiplier : fdiv 0x3F800000 0x40600000 = 0x3E924925 := by decide +kernel

/-- The schedule of the example after R285, at steps 50, 600, 1,100 and 7,100. -/
theorem test_schedule :
    let c : Schedule := ⟨2, 2, 2, 0, 100, 1000, 0x3DCCCCCD, 0x3DCCCCCD⟩
    c.mult 50 = 0x3F0CCCCD ∧ c.mult 600 = 0x3F0CCCCD ∧ c.mult 1100 = 0x3F800000 ∧ c.mult 7100 = 0x3DCCCCCD := by decide +kernel

/-- Patches of R189 fill the fields of R146 and R57: the epoch in PARAM, and the count of positions in EXTENT[1], beside STRIDE[1]. -/
theorem test_patches :
    let src := stepSource [⟨0, 3, 11, false, 0, 0⟩] 5 0 0 0
    u64 (fillPatches src (workField (parseWork (fld 128 []))) 0 [48 + 3 * 2 ^ 16] (fld 128 [])) 48 = 5 ∧
    field (fillPatches src tensorField 128 [128 + 19 + 2 ^ 16] (fld 64 [(16, 6, 7 + 2 ^ 30)])) 16 6 = 7 + 9 * 2 ^ 30 := by
  decide +kernel

/-- A write of an accumulator slot replaces its uncorrectable word (R177). -/
theorem test_slot_write_replaces :
    (((base.cluster ⟨0, 0⟩).spoilSlot 5).slot 0).any (·.bad) = true ∧
    (((base.cluster ⟨0, 0⟩).spoilSlot 5).setSlot 0 [] |>.slot 0).any (·.bad) = false := by decide +kernel

/-- An abort before any contributor came still ends the block's step as Missed, and none that it has ended (R241, R279). -/
theorem test_abort_marks_step :
    ((run1 laid blk).markAborted (parseBlockRef delivered.dest)).aborts = [(0, 0, 0)] ∧
    ((run1 laid { blk with step := 1 }).markAborted (parseBlockRef delivered.dest)).aborts = [] := by decide +kernel

/-- A page of a HOST region lies in the host memory named, a page of a LENT region in its dies' partitions in order (R178, R311). -/
theorem test_spoil_store :
    translate (powered base) { pit with regions := [⟨false, 1, 9, 2 ^ 30, 2 ^ 31, 0⟩], spoilKey := some 0 } (spoilBase + 70) =
      some (.cell .spoil (hostKey 9 (2 ^ 31 + 70))) ∧
    translate (powered base) { pit with regions := [⟨true, 1, 9, 2 ^ 36, 0, 6⟩], spoilKey := some 0 } (spoilBase + (17920 + 1121) * 2 ^ 21 + 5) =
      some (.cell .spoil (remoteKey 9 2 (0x90000000 + 2 ^ 21 + 5))) ∧
    spoilTweak 7 (spoilBase + 70) = 2 ^ 41 + 1 + 7 * 2 ^ 42 := by decide +kernel

/-- The example after R444: PORT_STATE of port 44, up on 8 lanes with the spare lane in use and lane 0 failed. -/
theorem test_port_state :
    (base.updPort 44 fun _ => { st := .up, activeLanes := 8, spareInUse := true, laneFailed := 1 }).readReg 0xF0280 = 0x1C3 := by
  decide +kernel
/-! ### Witnesses: what meets the hypotheses of each statement, clause by clause -/

theorem witness_CompletesPitchSetup :
    (∃ (s : State) (seq : Nat) (r : Request), s.request? seq 0x0101 = some r ∧ createFail s r.body = none ∧ bit (u16 r.body 2) 0 = true) ∧
    (∃ (s : State) (seq : Nat) (r : Request) (p : Pitch) (t : State), s.request? seq 0x0101 = some r ∧ createFail s r.body = none ∧ bit
      (u16 r.body 2) 0 = false ∧ p = createdPitch s seq r.body ∧ (t = (maskBits (u32 r.body 4) 24).foldl (fun s d => s.updDie d (Die.join
      s.fab.moduleId p.lmap d)) s)) ∧
    (∃ (s : State) (seq : Nat) (r : Request), s.request? seq 0x0103 = some r ∧ bindOk r.body = true ∧ u8 r.body 0 = 0 ∧ u8 r.body 3 ≠ 0 ∧
      decide (u8 r.body 3 = 2) = s.hostFacing (u8 r.body 1) ∧ (∀ v ∈ maskBits (u8 r.body 2) 8, (s.port (u8 r.body 1)).roles.getD v .off =
      .off ∧ (s.port (u8 r.body 1)).offs.any (fun x => x.2.testBit v) = false)) ∧
    (∃ (s : State) (seq : Nat) (r : Request), s.request? seq 0x0103 = some r ∧ bindOk r.body = true ∧ u8 r.body 0 = 0 ∧ u8 r.body 3 = 0 ∧
      (∀ v ∈ maskBits (u8 r.body 2) 8, (s.port (u8 r.body 1)).stamped.getD v 0 = 0)) ∧
    (∃ (s : State) (seq : Nat) (r : Request), s.request? seq 0x0103 = some r ∧ bindOk r.body = true ∧ u8 r.body 0 = 1 ∧ u8 r.body 3 = 2 ∧
      (s.box (u8 r.body 1)).bound = none ∧ (s.box (u8 r.body 1)).unbinding = none) ∧
    (∃ (s : State) (seq : Nat) (r : Request) (t : State), s.request? seq 0x0103 = some r ∧ bindOk r.body = true ∧ u8 r.body 0 = 1 ∧ u8
      r.body 3 = 0 ∧ (s.box (u8 r.body 1)).unbinding = none ∧ (t = s.updBox (u8 r.body 1) (fun b =>
      { b with bound := none, unbinding := some seq, assembly := none })) ∧ t.boxPending (u8 r.body 1) = false) := by
  refine ⟨?_, ?_, ?_, ?_, ?_, ?_⟩
  · refine ⟨asked base 0x0101 (fld 64 [(0, 2, 9), (2, 2, 1), (4, 4, 2), (12, 4, 0x01010101)]), 0, rq 0x0101 (fld 64 [(0, 2, 9), (2, 2, 1),
      (4, 4, 2), (12, 4, 0x01010101)]), ?ah1, ?ah2, ?ah3⟩
    all_goals first | decide +kernel | rfl
  · refine ⟨asked base 0x0101 (fld 72 [(0, 2, 9), (4, 4, 2), (9, 1, 1), (12, 4, 0x01010101), (64, 2, 1), (68, 4, 2)]), 0, rq 0x0101 (fld
      72 [(0, 2, 9), (4, 4, 2), (9, 1, 1), (12, 4, 0x01010101), (64, 2, 1), (68, 4, 2)]), ?bw_p, ?bw_t, ?bh1, ?bh2, ?bh3, ?bh4, ?bh5⟩
    case bh4 => rfl
    case bh5 => rfl
    all_goals first | decide +kernel | rfl
  · refine ⟨asked base 0x0103 (fld 8 [(1, 1, 3), (2, 1, 1), (3, 1, 1)]), 0, rq 0x0103 (fld 8 [(1, 1, 3), (2, 1, 1), (3, 1, 1)]), ?ch1, ?ch2,
      ?ch3, ?ch4, ?ch5, ?ch6⟩
    all_goals first | decide +kernel | rfl
  · refine ⟨asked base 0x0103 (fld 8 [(1, 1, 3), (2, 1, 1)]), 0, rq 0x0103 (fld 8 [(1, 1, 3), (2, 1, 1)]), ?dh1, ?dh2, ?dh3, ?dh4, ?dh5⟩
    all_goals first | decide +kernel | rfl
  · refine ⟨asked base 0x0103 (fld 8 [(0, 1, 1), (1, 1, 3), (3, 1, 2), (4, 2, 7)]), 0, rq 0x0103 (fld 8 [(0, 1, 1), (1, 1, 3), (3, 1, 2),
      (4, 2, 7)]), ?eh1, ?eh2, ?eh3, ?eh4, ?eh5, ?eh6⟩
    all_goals first | decide +kernel | rfl
  · refine ⟨asked base 0x0103 (fld 8 [(0, 1, 1), (1, 1, 3)]), 0, rq 0x0103 (fld 8 [(0, 1, 1), (1, 1, 3)]), ?fw_t, ?fh1, ?fh2, ?fh3, ?fh4, ?fh5,
      ?fh6, ?fh7⟩
    case fh6 => rfl
    all_goals first | decide +kernel | rfl

theorem witness_CompletesPitchStates :
    (∃ (s : State) (seq : Nat) (r : Request) (p : Pitch) (q : Pitch), s.request? seq 0x0104 = some r ∧ zeroRange r.body 2 2 = true ∧
      restZero r.body 8 = true ∧ s.pitch? (u16 r.body 0) = some p ∧ p.st = .active ∧ p.busyWith = none ∧ (q =
      { p with st := .suspending, busyWith := some seq, busySince := s.now, answers := [], suspendTimeoutMs := if u32 r.body 4 = 0 then 1000 else u32 r.body 4 })) ∧
    (∃ (s : State) (seq : Nat) (r : Request) (p : Pitch), s.request? seq 0x0104 = some r ∧ zeroRange r.body 2 2 = true ∧ restZero r.body 8
      = true ∧ s.pitch? (u16 r.body 0) = some p ∧ p.busyWith = some seq ∧ p.st = .suspending ∧ s.earlierDone p seq = true) ∧
    (∃ (s : State) (seq : Nat) (r : Request) (p : Pitch), s.request? seq 0x0105 = some r ∧ restZero r.body 2 = true ∧ s.pitch? (u16 r.body
      0) = some p ∧ p.st = .suspended ∧ p.busyWith = none ∧ s.contextBad p = false ∧ s.contextChanged p = false) ∧
    (∃ (s : State) (seq : Nat) (r : Request) (p : Pitch), s.request? seq 0x0105 = some r ∧ restZero r.body 2 = true ∧ s.pitch? (u16 r.body
      0) = some p ∧ p.st = .resuming ∧ p.busyWith = some seq) ∧
    (∃ (s : State) (seq : Nat) (r : Request) (p : Pitch) (u : State) (t : State), s.request? seq 0x0102 = some r ∧ restZero r.body 2 =
      true ∧ (s.lends.find? (fun l => l.tag = u16 r.body 0) = none) ∧ s.pitch? (u16 r.body 0) = some p ∧ p.st ≠ .releasing ∧ u =
      ((s.abortRequests p).carry p seq 0x0102 0).cancelMove p ∧ (t = u.updPitch (u16 r.body 0) (fun p =>
      { p with st := .releasing, busyWith := some seq, busySince := u.now, answers := [] }))) ∧
    (∃ (s : State) (tag : Nat) (seq : Nat) (p : Pitch), s.pitch? tag = some p ∧ p.busyWith = some seq ∧ p.st = .suspending ∧ p.atRest =
      false ∧ due p.busySince (25000 * p.suspendTimeoutMs) s.now = true) ∧
    (∃ (s : State) (seq : Nat) (p : Pitch), (s.pitches.find? (fun p => p.busyWith = some seq) = some p) ∧ (p.st = .suspended ∨ p.st =
      .active) ∧ p.lenders = [] ∧ due p.busySince 25000000 s.now = true) := by
  refine ⟨?_, ?_, ?_, ?_, ?_, ?_, ?_⟩
  · refine ⟨onReq pit 0x0104 (fld 8 [(0, 2, 7)]), 0, rq 0x0104 (fld 8 [(0, 2, 7)]), pit, ?aw_q, ?ah1, ?ah2, ?ah3, ?ah4, ?ah5, ?ah6, ?ah7⟩
    case ah7 => rfl
    all_goals first | decide +kernel | rfl
  · refine ⟨onReq { pit with st := .suspending, busyWith := some 0 } 0x0104 (fld 8 [(0, 2, 7)]), 0, rq 0x0104 (fld 8 [(0, 2, 7)]),
      { pit with st := .suspending, busyWith := some 0 }, ?bh1, ?bh2, ?bh3, ?bh4, ?bh5, ?bh6, ?bh7⟩
    all_goals first | decide +kernel | rfl
  · refine ⟨onReq { pit with st := .suspended } 0x0105 (fld 2 [(0, 2, 7)]), 0, rq 0x0105 (fld 2 [(0, 2, 7)]),
      { pit with st := .suspended }, ?ch1, ?ch2, ?ch3, ?ch4, ?ch5, ?ch6, ?ch7⟩
    all_goals first | decide +kernel | rfl
  · refine ⟨onReq { pit with st := .resuming, busyWith := some 0 } 0x0105 (fld 2 [(0, 2, 7)]), 0, rq 0x0105 (fld 2 [(0, 2, 7)]),
      { pit with st := .resuming, busyWith := some 0 }, ?dh1, ?dh2, ?dh3, ?dh4, ?dh5⟩
    all_goals first | decide +kernel | rfl
  · refine ⟨onReq pit 0x0102 (fld 2 [(0, 2, 7)]), 0, rq 0x0102 (fld 2 [(0, 2, 7)]), pit, ?ew_u, ?ew_t, ?eh1, ?eh2, ?eh3, ?eh4, ?eh5, ?eh6, ?eh7⟩
    case eh6 => rfl
    case eh7 => rfl
    all_goals first | decide +kernel | rfl
  · refine ⟨on { pit with st := .suspending, busyWith := some 0, items := [{ key := ⟨7, 0, 0⟩, wd := [], phase := .running }] }, 7, 0,
      { pit with st := .suspending, busyWith := some 0, items := [{ key := ⟨7, 0, 0⟩, wd := [], phase := .running }] }, ?fh1, ?fh2, ?fh3,
      ?fh4, ?fh5⟩
    all_goals first | decide +kernel | rfl
  · refine ⟨on { pit with st := .suspended, busyWith := some 0 }, 0, { pit with st := .suspended, busyWith := some 0 }, ?gh1, ?gh2, ?gh3,
      ?gh4⟩
    all_goals first | decide +kernel | rfl

theorem witness_CompletesPitchQueries :
    (∃ (s : State) (seq : Nat) (r : Request), s.request? seq 0x0106 = some r ∧ restZero r.body 2 = true ∧ namedTag r (u16 r.body 0) = some
      noTag) ∧
    (∃ (s : State) (seq : Nat) (tag : Nat) (r : Request) (p : Pitch), s.request? seq 0x0106 = some r ∧ restZero r.body 2 = true ∧ namedTag
      r (u16 r.body 0) = some tag ∧ tag ≠ noTag ∧ s.pitch? tag = some p) ∧
    (∃ (s : State) (seq : Nat) (tag : Nat) (r : Request) (p : Pitch) (recs : List (Nat × List Nat)), s.request? seq 0x0107 = some r ∧
      zeroRange r.body 2 6 = true ∧ restZero r.body 20 = true ∧ 1 ≤ u32 r.body 16 ∧ u32 r.body 16 ≤ 48 ∧ namedTag r (u16 r.body 0) = some
      tag ∧ s.pitch? tag = some p ∧ (recs = (p.meterMinutes.filter fun x => u64 r.body 8 ≤ x.1).take (u32 r.body 16))) ∧
    (∃ (s : State) (seq : Nat) (r : Request), s.request? seq 0x0703 = some r ∧ restZero r.body 66 = true ∧ namedTag r (u16 r.body 64) =
      some noTag ∧ ((s.ring.journal.filter fun x => x.command = 0x0703 && x.seq < seq).length < 4)) ∧
    (∃ (s : State) (seq : Nat) (tag : Nat) (r : Request) (p : Pitch), s.request? seq 0x0703 = some r ∧ restZero r.body 66 = true ∧
      namedTag r (u16 r.body 64) = some tag ∧ tag ≠ noTag ∧ s.pitch? tag = some p ∧ p.st ≠ .failed ∧ ((s.ring.journal.filter fun x =>
      x.command = 0x0703 && x.seq < seq).length < 4)) ∧
    (∃ (s : State), s.now ≠ 0 ∧ s.now % minuteCounts = 0) := by
  refine ⟨?_, ?_, ?_, ?_, ?_, ?_⟩
  · refine ⟨(on pit).setRing { State.reset.ring with journal := [{ rq 0x0106 (fld 2 [(0, 2, 0xFFFF)]) with mailbox := 0 }] }, 0,
      { rq 0x0106 (fld 2 [(0, 2, 0xFFFF)]) with mailbox := 0 }, ?ah1, ?ah2, ?ah3⟩
    all_goals first | decide +kernel | rfl
  · refine ⟨onReq pit 0x0106 (fld 2 [(0, 2, 0xFFFF)]), 0, 7, rq 0x0106 (fld 2 [(0, 2, 0xFFFF)]), pit, ?bh1, ?bh2, ?bh3, ?bh4, ?bh5⟩
    all_goals first | decide +kernel | rfl
  · refine ⟨onReq { pit with meterMinutes := [(1, [0, 0, 0, 0, 0, 0, 0, 0])] } 0x0107 (fld 20 [(0, 2, 0xFFFF), (16, 4, 3)]), 0, 7, rq
      0x0107 (fld 20 [(0, 2, 0xFFFF), (16, 4, 3)]), { pit with meterMinutes := [(1, [0, 0, 0, 0, 0, 0, 0, 0])] }, ?cw_recs, ?ch1, ?ch2, ?ch3,
      ?ch4, ?ch5, ?ch6, ?ch7, ?ch8⟩
    case ch8 => rfl
    all_goals first | decide +kernel | rfl
  · refine ⟨(on pit).setRing { State.reset.ring with journal := [{ rq 0x0703 (fld 66 [(64, 2, 0xFFFF)]) with mailbox := 0 }] }, 0,
      { rq 0x0703 (fld 66 [(64, 2, 0xFFFF)]) with mailbox := 0 }, ?dh1, ?dh2, ?dh3, ?dh4⟩
    all_goals first | decide +kernel | rfl
  · refine ⟨onReq pit 0x0703 (fld 66 [(64, 2, 0xFFFF)]), 0, 7, rq 0x0703 (fld 66 [(64, 2, 0xFFFF)]), pit, ?eh1, ?eh2, ?eh3, ?eh4, ?eh5, ?eh6,
      ?eh7⟩
    all_goals first | decide +kernel | rfl
  · refine ⟨(on pit).setKpr { base.kpr with now := 1500000000 }, ?fh1, ?fh2⟩
    all_goals first | decide +kernel | rfl

theorem witness_CompletesQueues :
    (∃ (s : State) (seq : Nat) (id : Nat) (r : Request) (p : Pitch), RunsFor s seq 0x0201 r p ∧ queueFieldsOk p r.body = true ∧ ringMapped
      s p (u64 r.body 0) (128 * u16 r.body 24) = true ∧ ringMapped s p (u64 r.body 8) (64 * u16 r.body 24) = true ∧ (u64 r.body 16 = 0 ∨
      allKind s p (u64 r.body 16) 8 (· = .dram) = true) ∧ p.freeQueue = some id) ∧
    (∃ (s : State) (seq : Nat) (r : Request) (p : Pitch) (q : Queue) (t : State), RunsFor s seq 0x0202 r p ∧ u8 r.body 1 ≤ 1 ∧ restZero
      r.body 2 = true ∧ p.queue? (u8 r.body 0) = some q ∧ q.closing = none ∧ (t = s.updQueue p.tag q.id (fun q => q.startClose seq (u8
      r.body 1 = 1)))) ∧
    (∃ (s : State) (seq : Nat) (late : Nat) (r : Request) (p : Pitch) (q : Queue), RunsFor s seq 0x0203 r p ∧ zeroRange r.body 1 7 = true
      ∧ restZero r.body 24 = true ∧ u64 r.body 8 ≤ u64 r.body 16 ∧ p.queue? (u8 r.body 0) = some q ∧ q.ack ≤ u64 r.body 8 ∧ u64 r.body 16
      < q.tail ∧ (u64 r.body 16 < q.head ∨ p.openAborts q.homeLdie < 16) ∧ (late = (q.recorded.filter fun n => u64 r.body 8 ≤ n && n ≤ u64
      r.body 16).length)) ∧
    (∃ (s : State) (tag : Nat) (queue : Nat) (value : Nat), value < 2 ^ 64) ∧
    (∃ (s : State) (tag : Nat) (queue : Nat) (offset : Nat) (data : Bytes) (p : Pitch) (q : Queue), s.pitch? tag = some p ∧ p.queue? queue
      = some q ∧ (data.length ≠ 8 ∨ (offset ≠ 0 ∧ offset ≠ 8))) := by
  refine ⟨?_, ?_, ?_, ?_, ?_⟩
  · refine ⟨onReq pit 0x0201 (fld 36 [(8, 8, 4096), (24, 2, 16), (27, 1, 1)]), 0, 0, rq 0x0201 (fld 36 [(8, 8, 4096), (24, 2, 16), (27, 1,
      1)]), pit, ?ah1, ?ah2, ?ah3, ?ah4, ?ah5, ?ah6⟩
    case ah1 => exact ⟨rfl, rfl, by decide⟩
    all_goals first | decide +kernel | rfl
  · refine ⟨onReq { pit with queues := [que] } 0x0202 (fld 2 [(1, 1, 1)]), 0, rq 0x0202 (fld 2 [(1, 1, 1)]), { pit with queues := [que] },
      que, ?bw_t, ?bh1, ?bh2, ?bh3, ?bh4, ?bh5, ?bh6⟩
    case bh1 => exact ⟨rfl, rfl, by decide⟩
    case bh6 => rfl
    all_goals first | decide +kernel | rfl
  · refine ⟨onReq { pit with queues := [que] } 0x0203 (fld 24 [(16, 8, 1)]), 0, 0, rq 0x0203 (fld 24 [(16, 8, 1)]),
      { pit with queues := [que] }, que, ?ch1, ?ch2, ?ch3, ?ch4, ?ch5, ?ch6, ?ch7, ?ch8, ?ch9⟩
    case ch1 => exact ⟨rfl, rfl, by decide⟩
    all_goals first | decide +kernel | rfl
  · refine ⟨on { pit with queues := [que] }, 7, 0, 2 ^ 64 - 1, ?dh1⟩
    all_goals first | decide +kernel | rfl
  · refine ⟨on { pit with queues := [que] }, 7, 0, 4, [0, 0, 0, 0, 0, 0, 0, 0], { pit with queues := [que] }, que, ?eh1, ?eh2, ?eh3⟩
    all_goals first | decide +kernel | rfl

theorem witness_CompletesItemProgress :
    (∃ (s : State) (tag : Nat) (queue : Nat) (cursor : Nat) (p : Pitch) (q : Queue) (i : Item) (u : State) (t : State), s.pitch? tag =
      some p ∧ p.queue? queue = some q ∧ q.consumable p = true ∧ consumed s p q = (i, cursor) ∧ (u = s.updPitch tag (fun p =>
      (({ p with items := p.items ++ [i] }).updQueue queue fun q => q.consumeHead i cursor).refreshLimit q.homeLdie)) ∧ (t = (if
      i.result.status = stUncorrectable then u.logBadRead tag (s.firstBad p (consumeReads s p q i.w)) else u))) ∧
    (∃ (s : State) (k : ItemKey) (p : Pitch) (i : Item), OnItem s k p i ∧ i.phase = .waiting ∧ waitState p i.w = some true ∧ i.w.onQueue =
      false) ∧
    (∃ (s : State) (k : ItemKey) (p : Pitch) (i : Item), OnItem s k p i ∧ i.phase = .ready ∧ i.staged = none) ∧
    (∃ (s : State) (k : ItemKey) (p : Pitch) (i : Item), OnItem s k p i ∧ i.w.typ = tySignal ∧ i.phase = .waiting ∧ frozenQueue p k =
      false ∧ (∀ x ∈ p.items, x.key.queue = k.queue → k.seq ≤ x.key.seq) ∧ waitState p i.w = some true) ∧
    (∃ (s : State) (k : ItemKey) (p : Pitch) (i : Item), OnItem s k p i ∧ i.w.typ = tyWait ∧ i.phase = .waiting ∧ frozenQueue p k = false
      ∧ waitState p i.w = some true) ∧
    (∃ (s : State) (k : ItemKey) (p : Pitch) (i : Item), OnItem s k p i ∧ i.phase = .finished ∧ i.stored = false ∧ i.result.status = stOk
      ∧ p.abroad s i.written ≠ []) ∧
    (∃ (s : State) (k : ItemKey) (p : Pitch) (i : Item), OnItem s k p i ∧ i.phase = .finished ∧ ((i.stored = true ∧ s.inTransit k = false)
      ∨ (i.stored = false ∧ (i.result.status ≠ stOk ∨ p.abroad s i.written = [])))) := by
  refine ⟨?_, ?_, ?_, ?_, ?_, ?_, ?_⟩
  · refine ⟨on { pit with queues := [que] }, 7, 0, ?aw_cursor, { pit with queues := [que] }, que, ?aw_i, ?aw_u, ?aw_t, ?ah1, ?ah2, ?ah3, ?ah4,
      ?ah5, ?ah6⟩
    case ah4 => rfl
    case ah5 => rfl
    case ah6 => rfl
    all_goals first | decide +kernel | rfl
  · refine ⟨on (running { itm 1 0 [] [] with phase := .waiting }), key, running { itm 1 0 [] [] with phase := .waiting },
      { itm 1 0 [] [] with phase := .waiting }, ?bh1, ?bh2, ?bh3, ?bh4⟩
    case bh1 => exact ⟨rfl, rfl⟩
    all_goals first | decide +kernel | rfl
  · refine ⟨on (running { itm 1 0 [] [] with phase := .ready }), key, running { itm 1 0 [] [] with phase := .ready },
      { itm 1 0 [] [] with phase := .ready }, ?ch1, ?ch2, ?ch3⟩
    case ch1 => exact ⟨rfl, rfl⟩
    all_goals first | decide +kernel | rfl
  · refine ⟨on (running { itm 7 0 [] [] with phase := .waiting }), key, running { itm 7 0 [] [] with phase := .waiting },
      { itm 7 0 [] [] with phase := .waiting }, ?dh1, ?dh2, ?dh3, ?dh4, ?dh5, ?dh6⟩
    case dh1 => exact ⟨rfl, rfl⟩
    all_goals first | decide +kernel | rfl
  · refine ⟨on (running { itm 8 0 [] [] with phase := .waiting }), key, running { itm 8 0 [] [] with phase := .waiting },
      { itm 8 0 [] [] with phase := .waiting }, ?eh1, ?eh2, ?eh3, ?eh4, ?eh5⟩
    case eh1 => exact ⟨rfl, rfl⟩
    all_goals first | decide +kernel | rfl
  · refine ⟨on abroad, key, abroad, abroadItem, ?fh1, ?fh2, ?fh3, ?fh4, ?fh5⟩
    case fh1 => exact ⟨rfl, rfl⟩
    all_goals first | decide +kernel | rfl
  · refine ⟨on (running { itm 7 0 [] [] with phase := .finished }), key, running { itm 7 0 [] [] with phase := .finished },
      { itm 7 0 [] [] with phase := .finished }, ?gh1, ?gh2, ?gh3⟩
    case gh1 => exact ⟨rfl, rfl⟩
    all_goals first | decide +kernel | rfl

theorem witness_CompletesItemFailures :
    (∃ (s : State) (k : ItemKey) (p : Pitch) (i : Item), OnItem s k p i ∧ i.latched = true ∧ i.phase = .running) ∧
    (∃ (s : State) (k : ItemKey) (p : Pitch) (i : Item), OnItem s k p i ∧ i.phase = .running ∧ (i.operands.any (fun o => gapIn s p o.desc)
      = true)) ∧
    (∃ (s : State) (k : ItemKey) (p : Pitch) (i : Item), OnItem s k p i ∧ i.phase = .running ∧ (i.operands.any (fun o => !o.dst &&
      scalesFail s p o.desc = some stBadDescriptor) = true)) ∧
    (∃ (s : State) (k : ItemKey) (addr : Nat) (key : Nat) (p : Pitch) (i : Item) (w : Where), OnItem s k p i ∧ i.phase = .running ∧
      translate s p addr = some (.cell w key)) ∧
    (∃ (s : State) (k : ItemKey) (n : Nat) (p : Pitch) (i : Item) (pl : Place), OnItem s k p i ∧ i.phase = .running ∧ i.place? s p = some
      pl) ∧
    (∃ (s : State) (k : ItemKey) (addr : Nat) (p : Pitch) (i : Item), OnItem s k p i ∧ i.phase = .running ∧ (translate s p addr).isSome =
      true) := by
  refine ⟨?_, ?_, ?_, ?_, ?_, ?_⟩
  · refine ⟨on (running { itm 1 0 [] [] with latched := true }), key, running { itm 1 0 [] [] with latched := true },
      { itm 1 0 [] [] with latched := true }, ?ah1, ?ah2, ?ah3⟩
    case ah1 => exact ⟨rfl, rfl⟩
    all_goals first | decide +kernel | rfl
  · refine ⟨on (running (itm 3 0 [slot 0 0] [some (vec1 0x8C000000 7 1, none)])), key, running (itm 3 0 [slot 0 0] [some (vec1 0x8C000000
      7 1, none)]), itm 3 0 [slot 0 0] [some (vec1 0x8C000000 7 1, none)], ?bh1, ?bh2, ?bh3⟩
    case bh1 => exact ⟨rfl, rfl⟩
    all_goals first | decide +kernel | rfl
  · refine ⟨(on (running (itm 3 0 [slot 0 0] [some (fld 64 [(0, 8, 2 ^ 63 + 2 ^ 52 + 2 ^ 55 + 2 ^ 58), (8, 8, 4096), (16, 6, 1 + 2 ^ 30)],
      none)]))).setMem [(4096, 0x80)], key, running (itm 3 0 [slot 0 0] [some (fld 64 [(0, 8, 2 ^ 63 + 2 ^ 52 + 2 ^ 55 + 2 ^ 58), (8, 8,
      4096), (16, 6, 1 + 2 ^ 30)], none)]), itm 3 0 [slot 0 0] [some (fld 64 [(0, 8, 2 ^ 63 + 2 ^ 52 + 2 ^ 55 + 2 ^ 58), (8, 8, 4096),
      (16, 6, 1 + 2 ^ 30)], none)], ?ch1, ?ch2, ?ch3⟩
    case ch1 => exact ⟨rfl, rfl⟩
    all_goals first | decide +kernel | rfl
  · refine ⟨on (running (itm 1 0 [] [])), key, 64, ?dw_key, running (itm 1 0 [] []), itm 1 0 [] [], ?dw_w, ?dh1, ?dh2, ?dh3⟩
    case dh1 => exact ⟨rfl, rfl⟩
    case dh3 => rfl
    all_goals first | decide +kernel | rfl
  · refine ⟨busy (on (running (itm 1 0 [] []))), key, 32767, running (itm 1 0 [] []), itm 1 0 [] [], ⟨0, 0⟩, ?eh1, ?eh2, ?eh3⟩
    case eh1 => exact ⟨rfl, rfl⟩
    all_goals first | decide +kernel | rfl
  · refine ⟨on (running (itm 1 0 [] [])), key, 4096, running (itm 1 0 [] []), itm 1 0 [] [], ?fh1, ?fh2, ?fh3⟩
    case fh1 => exact ⟨rfl, rfl⟩
    all_goals first | decide +kernel | rfl

theorem witness_CompletesCarousel :
    (∃ (s : State) (pl : Place) (e : Engine) (p : Pitch) (l : Nat) (i : Item), s.runsOn pl = some (p, l) ∧ (s.cluster pl).st = .working ∧
      (s.die pl.die).runs = true ∧ s.atHandoff pl e = true ∧ p.st = .active ∧ pickFirst p s.now (candidates s p pl l e) = some i ∧ i.phase
      ≠ .running) ∧
    (∃ (s : State) (pl : Place) (p : Pitch), (s.dieTag? pl.die).bind s.pitch? = some p ∧ (s.die pl.die).runs = true ∧ ((s.cluster pl).st =
      .dozing ∨ (s.cluster pl).st = .resting) ∧ (placedOn s p pl).any p.readyFor = true) ∧
    (∃ (s : State) (pl : Place), (s.cluster pl).st = .working ∧ (s.cluster pl).idle = true ∧ (s.die pl.die).dozeCycles ≤ (s.cluster
      pl).idleCycles) ∧
    (∃ (s : State) (pl : Place), ((s.cluster pl).st = .working ∨ (s.cluster pl).st = .dozing) ∧ (s.cluster pl).idle = true ∧ 25 * (s.die
      pl.die).restUs ≤ (s.cluster pl).idleCounts) ∧
    (∃ (s : State) (die : Nat) (since : Nat), (s.die die).dpllOn = true ∧ s.dieTag? die = none ∧ s.dieLend? die = none ∧ (s.die
      die).dpllIdle = some since ∧ due since 250000 s.now = true) ∧
    (∃ (s : State) (pl : Place) (l : Nat) (old : Nat) (p : Pitch), s.runsOn pl = some (p, old) ∧ old ≠ l ∧ p.moving l = false ∧ p.moving
      old = false ∧ p.place? s l = some pl ∧ p.readyFor l = true ∧ (∀ i ∈ p.items, i.w.lcluster = old → i.dispatched = true → i.phase ≠
      .running ∧ i.phase ≠ .ready ∧ i.phase ≠ .anchoring) ∧ (((placedOn s p pl).filter p.readyFor).length ≤ 1 ∨ (s.cluster pl).lastSwitch
      = none ∨ (∃ t, (s.cluster pl).lastSwitch = some t ∧ t + 25000 ≤ s.now))) := by
  refine ⟨?_, ?_, ?_, ?_, ?_, ?_⟩
  · refine ⟨busy (on (running { itm 1 0 [] [] with phase := .ready, dispatched := false })) |>.updCluster ⟨0, 0⟩ fun c =>
      { c with onArrays := none }, ⟨0, 0⟩, .arrays, running { itm 1 0 [] [] with phase := .ready, dispatched := false }, 0,
      { itm 1 0 [] [] with phase := .ready, dispatched := false }, ?ah1, ?ah2, ?ah3, ?ah4, ?ah5, ?ah6, ?ah7⟩
    all_goals first | decide +kernel | rfl
  · refine ⟨on (running { itm 1 0 [] [] with phase := .ready, dispatched := false }), ⟨0, 0⟩, running
      { itm 1 0 [] [] with phase := .ready, dispatched := false }, ?bh1, ?bh2, ?bh3, ?bh4⟩
    all_goals first | decide +kernel | rfl
  · refine ⟨(on pit).updCluster ⟨0, 0⟩ fun c => { c with st := .working, idleCycles := 1024 }, ⟨0, 0⟩, ?ch1, ?ch2, ?ch3⟩
    all_goals first | decide +kernel | rfl
  · refine ⟨(on pit).updCluster ⟨0, 0⟩ fun c => { c with st := .dozing, idleCounts := 25000 }, ⟨0, 0⟩, ?dh1, ?dh2, ?dh3⟩
    all_goals first | decide +kernel | rfl
  · refine ⟨base.updDie 0 fun d => { d with dpllOn := true, dpllIdle := some 0 }, 0, 0, ?eh1, ?eh2, ?eh3, ?eh4, ?eh5⟩
    all_goals first | decide +kernel | rfl
  · refine ⟨(on
      { running { itm 1 0 [(12, 2, 1)] [] with phase := .ready, dispatched := false } with lmap := [⟨1, 0, 0⟩, ⟨1, 0, 0⟩] }).updCluster
      ⟨0, 0⟩ fun c => { c with st := .working, current := some 0 }, ⟨0, 0⟩, 1, 0,
      { running { itm 1 0 [(12, 2, 1)] [] with phase := .ready, dispatched := false } with lmap := [⟨1, 0, 0⟩, ⟨1, 0, 0⟩] }, ?fh1, ?fh2,
      ?fh3, ?fh4, ?fh5, ?fh6, ?fh7, ?fh8⟩
    case fh8 => exact .inl (by decide +kernel)
    all_goals first | decide +kernel | rfl

theorem witness_CompletesMatrixItems :
    (∃ (s : State) (k : ItemKey) (p : Pitch) (i : Item) (pl : Place) (accs : List Acc) (bad : Bool) (sat : Bool) (t : State), OnItem s k p
      i ∧ runsArrays s p i = some pl ∧ i.w.typ = tyMma ∧ i.w.c 0 3 = 0 ∧ (s.cluster pl).tile = none ∧ i.tiles < (mmaDims i.w
      i.operands).tiles ∧ tileAccs s p i.w i.operands pl (mmaDims i.w i.operands) i.tiles = .ok (accs, bad, sat) ∧ (t = s.updCluster pl
      (fun c => { c with tile := some ⟨k, i.tiles, accs, bad, sat⟩ }))) ∧
    (∃ (s : State) (t : State) (k : ItemKey) (p : Pitch) (i : Item) (pl : Place) (x : TileAccs) (sat : Bool), OnItem s k p i ∧ runsArrays
      s p i = some pl ∧ (s.cluster pl).tile = some x ∧ x.key = k ∧ i.w.usesOut = true ∧ (i.w.accOut = 2 → ((s.cluster pl).slot
      (i.w.slotOut + x.tile)).any (·.bad) = false) ∧ s.tileToSlot pl (i.w.accOut = 2) (i.w.slotOut + x.tile) x.accs = (t, sat)) ∧
    (∃ (s : State) (t : State) (k : ItemKey) (p : Pitch) (i : Item) (pl : Place) (x : TileAccs) (o : Operand) (r : Raised), OnItem s k p i
      ∧ runsArrays s p i = some pl ∧ (s.cluster pl).tile = some x ∧ x.key = k ∧ i.w.usesOut = false ∧ i.dest? = some o ∧ (foldKeep (fun
      acc sp => tileStrip k i.w o i.outMode sp.1 sp.2 acc) (s, ⟨x.invalid, x.accSat, false⟩) (tileStrips o.desc (mmaDims i.w i.operands)
      x.tile x.accs) = ((t, r), none))) ∧
    (∃ (s : State) (k : ItemKey) (p : Pitch) (i : Item) (pl : Place) (o : Operand) (accs : List Acc) (bad : Bool) (sat : Bool), OnItem s k
      p i ∧ runsMvp s p i = some pl ∧ i.dest? = some o ∧ (s.cluster pl).bank = none ∧ i.tiles < (o.desc.dim 1).view ∧ mvpAccs s p i.w
      i.operands o.desc i.tiles = .ok (accs, bad, sat)) ∧
    (∃ (s : State) (t : State) (k : ItemKey) (p : Pitch) (i : Item) (pl : Place) (o : Operand) (x : TileAccs) (r : Raised), OnItem s k p i
      ∧ runsMvp s p i = some pl ∧ i.dest? = some o ∧ (s.cluster pl).bank = some x ∧ x.key = k ∧ (foldKeep (fun acc j => tileStrip k i.w o
      i.outMode (mvpStrip o.desc x.tile j) ((List.range 32).map fun l => (l, x.accs.getD (32 * j + l) {})) acc) (s.updCluster pl fun c =>
      { c with bank := none, drain := some x }, ⟨x.invalid, x.accSat, false⟩) (List.range (lenOf i.w i.operands 0 0)) = ((t, r), none))) := by
  refine ⟨?_, ?_, ?_, ?_, ?_⟩
  · refine ⟨busy (on (running (itm 1 (2 ^ 18 + 2 ^ 20 + 2 ^ 32 + 2 ^ 33) [] []))), key, running (itm 1 (2 ^ 18 + 2 ^ 20 + 2 ^ 32 + 2 ^ 33)
      [] []), itm 1 (2 ^ 18 + 2 ^ 20 + 2 ^ 32 + 2 ^ 33) [] [], ⟨0, 0⟩, ?aw_accs, ?aw_bad, ?aw_sat, ?aw_t, ?ah1, ?ah2, ?ah3, ?ah4, ?ah5, ?ah6, ?ah7,
      ?ah8⟩
    case ah1 => exact ⟨rfl, rfl⟩
    case ah7 => (refine ok3 ?_; decide +kernel)
    case ah8 => rfl
    all_goals first | decide +kernel | rfl
  · refine ⟨(busy (on (running (itm 1 (2 ^ 18 + 2 ^ 20 + 2 ^ 32 + 2 ^ 33) [] [])))).updCluster ⟨0, 0⟩ fun c =>
      { c with tile := some tile0 }, ?bw_t, key, running (itm 1 (2 ^ 18 + 2 ^ 20 + 2 ^ 32 + 2 ^ 33) [] []), itm 1 (2 ^ 18 + 2 ^ 20 + 2 ^ 32
      + 2 ^ 33) [] [], ⟨0, 0⟩, tile0, ?bw_sat, ?bh1, ?bh2, ?bh3, ?bh4, ?bh5, ?bh6, ?bh7⟩
    case bh1 => exact ⟨rfl, rfl⟩
    case bh7 => exact pair_eq
    all_goals first | decide +kernel | rfl
  · refine ⟨(busy (on (running (itm 1 0 [slot 3 0] [none, none, none, some (vec1 4096 7 1, none)])))).updCluster ⟨0, 0⟩ fun c =>
      { c with tile := some tile0 }, ?cw_t, key, running (itm 1 0 [slot 3 0] [none, none, none, some (vec1 4096 7 1, none)]), itm 1 0 [slot
      3 0] [none, none, none, some (vec1 4096 7 1, none)], ⟨0, 0⟩, tile0, opd 3 (vec1 4096 7 1), ?cw_r, ?ch1, ?ch2, ?ch3, ?ch4, ?ch5, ?ch6, ?ch7⟩
    case ch1 => exact ⟨rfl, rfl⟩
    case ch7 => (refine kept_eq2 ?_; decide +kernel)
    all_goals first | decide +kernel | rfl
  · refine ⟨busy (on (running (itm 2 0 [slot 0 0, slot 1 0, slot 3 0] [some (vec1 0 7 1, none), some (vec1 128 7 1, none), none, some
      (vec1 4096 7 1, none)]))), key, running (itm 2 0 [slot 0 0, slot 1 0, slot 3 0] [some (vec1 0 7 1, none), some (vec1 128 7 1, none),
      none, some (vec1 4096 7 1, none)]), itm 2 0 [slot 0 0, slot 1 0, slot 3 0] [some (vec1 0 7 1, none), some (vec1 128 7 1, none),
      none, some (vec1 4096 7 1, none)], ⟨0, 0⟩, opd 3 (vec1 4096 7 1), ?dw_accs, ?dw_bad, ?dw_sat, ?dh1, ?dh2, ?dh3, ?dh4, ?dh5, ?dh6⟩
    case dh1 => exact ⟨rfl, rfl⟩
    case dh6 => (refine ok3 ?_; decide +kernel)
    all_goals first | decide +kernel | rfl
  · refine ⟨(busy (on (running (itm 2 0 [slot 0 0, slot 1 0, slot 3 0] [some (vec1 0 7 1, none), some (vec1 128 7 1, none), none, some
      (vec1 4096 7 1, none)])))).updCluster ⟨0, 0⟩ fun c => { c with bank := some tile0 }, ?ew_t, key, running (itm 2 0 [slot 0 0, slot 1
      0, slot 3 0] [some (vec1 0 7 1, none), some (vec1 128 7 1, none), none, some (vec1 4096 7 1, none)]), itm 2 0 [slot 0 0, slot 1 0,
      slot 3 0] [some (vec1 0 7 1, none), some (vec1 128 7 1, none), none, some (vec1 4096 7 1, none)], ⟨0, 0⟩, opd 3 (vec1 4096 7 1),
      tile0, ?ew_r, ?eh1, ?eh2, ?eh3, ?eh4, ?eh5, ?eh6⟩
    case eh1 => exact ⟨rfl, rfl⟩
    case eh6 => (refine kept_eq2 ?_; decide +kernel)
    all_goals first | decide +kernel | rfl

theorem witness_CompletesVectorItems :
    (∃ (s : State) (t : State) (k : ItemKey) (p : Pitch) (i : Item) (pl : Place) (o : Operand), OnItem s k p i ∧ runsArrays s p i = some
      pl ∧ i.dest? = some o ∧ i.w.typ = tyMma ∧ i.w.c 0 3 ≠ 0 ∧ 32 * (i.tiles + 1) < o.desc.viewStrips.length ∧ (ewUnit k p i.w
      (i.operands.filter fun o => !o.dst) o i.outMode s ((o.desc.viewStrips.drop (32 * i.tiles)).take 32) = (t, none))) ∧
    (∃ (s : State) (t : State) (k : ItemKey) (p : Pitch) (i : Item) (pl : Place) (o : Operand), OnItem s k p i ∧ runsArrays s p i = some
      pl ∧ i.dest? = some o ∧ i.w.typ = tyMma ∧ i.w.c 0 3 ≠ 0 ∧ 32 * i.tiles < o.desc.viewStrips.length ∧ o.desc.viewStrips.length ≤ 32 *
      (i.tiles + 1) ∧ (ewUnit k p i.w (i.operands.filter fun o => !o.dst) o i.outMode s ((o.desc.viewStrips.drop (32 * i.tiles)).take 32)
      = (t, none))) ∧
    (∃ (s : State) (t : State) (k : ItemKey) (p : Pitch) (i : Item) (pl : Place) (o : Operand), OnItem s k p i ∧ runsVector s p i = some
      pl ∧ i.dest? = some o ∧ i.w.typ = tyVec ∧ i.w.isSample = false ∧ i.w.isLsm = false ∧ foldKeep (vecStrip k p i o) s o.desc.boxStrips
      = (t, none)) ∧
    (∃ (s : State) (t : State) (k : ItemKey) (p : Pitch) (i : Item) (pl : Place) (o : Operand), OnItem s k p i ∧ runsVector s p i = some
      pl ∧ i.dest? = some o ∧ i.w.typ = tyRand ∧ foldKeep (randStrip k i o) s o.desc.boxStrips = (t, none)) ∧
    (∃ (s : State) (t : State) (k : ItemKey) (p : Pitch) (i : Item) (pl : Place) (a : Operand), OnItem s k p i ∧ runsVector s p i = some
      pl ∧ i.operand? 0 = some a ∧ i.w.isSample = true ∧ foldKeep (sampleRow k p i.w a.desc) s (rowPositions a.desc (i.w.c 16 3)).zipIdx =
      (t, none)) ∧
    (∃ (s : State) (t : State) (k : ItemKey) (p : Pitch) (i : Item) (pl : Place) (a : Operand) (o : Operand), OnItem s k p i ∧ runsVector
      s p i = some pl ∧ i.operand? 0 = some a ∧ i.dest? = some o ∧ i.w.isLsm = true ∧ foldKeep (lsmRow k p i.w a.desc o.desc) s
      (rowPositions a.desc (i.w.c 16 3)).zipIdx = (t, none)) := by
  refine ⟨?_, ?_, ?_, ?_, ?_, ?_⟩
  · refine ⟨busy (on (running (itm 1 1 [slot 0 0, slot 1 0, slot 3 0] [some (vecs 33 0 7 1, none), some (vecs 33 8192 7 1, none), none,
      some (vecs 33 16384 7 1, none)]))), ?aw_t, key, running (itm 1 1 [slot 0 0, slot 1 0, slot 3 0] [some (vecs 33 0 7 1, none), some
      (vecs 33 8192 7 1, none), none, some (vecs 33 16384 7 1, none)]), itm 1 1 [slot 0 0, slot 1 0, slot 3 0] [some (vecs 33 0 7 1,
      none), some (vecs 33 8192 7 1, none), none, some (vecs 33 16384 7 1, none)], ⟨0, 0⟩, opd 3 (vecs 33 16384 7 1), ?ah1, ?ah2, ?ah3, ?ah4,
      ?ah5, ?ah6, ?ah7⟩
    case ah1 => exact ⟨rfl, rfl⟩
    case ah7 => (refine kept_eq ?_; decide +kernel)
    all_goals first | decide +kernel | rfl
  · refine ⟨busy (on (running (itm 1 1 [slot 0 0, slot 1 0, slot 3 0] [some (vec1 0 7 1, none), some (vec1 128 7 1, none), none, some
      (vec1 4096 7 1, none)]))), ?bw_t, key, running (itm 1 1 [slot 0 0, slot 1 0, slot 3 0] [some (vec1 0 7 1, none), some (vec1 128 7 1,
      none), none, some (vec1 4096 7 1, none)]), itm 1 1 [slot 0 0, slot 1 0, slot 3 0] [some (vec1 0 7 1, none), some (vec1 128 7 1,
      none), none, some (vec1 4096 7 1, none)], ⟨0, 0⟩, opd 3 (vec1 4096 7 1), ?bh1, ?bh2, ?bh3, ?bh4, ?bh5, ?bh6, ?bh7, ?bh8⟩
    case bh1 => exact ⟨rfl, rfl⟩
    case bh8 => (refine kept_eq ?_; decide +kernel)
    all_goals first | decide +kernel | rfl
  · refine ⟨busy (on (running (itm 3 0 [slot 0 0, slot 1 0, slot 3 0] [some (vec1 0 7 1, none), some (vec1 128 7 1, none), none, some
      (vec1 4096 7 1, none)]))), ?cw_t, key, running (itm 3 0 [slot 0 0, slot 1 0, slot 3 0] [some (vec1 0 7 1, none), some (vec1 128 7 1,
      none), none, some (vec1 4096 7 1, none)]), itm 3 0 [slot 0 0, slot 1 0, slot 3 0] [some (vec1 0 7 1, none), some (vec1 128 7 1,
      none), none, some (vec1 4096 7 1, none)], ⟨0, 0⟩, opd 3 (vec1 4096 7 1), ?ch1, ?ch2, ?ch3, ?ch4, ?ch5, ?ch6, ?ch7⟩
    case ch1 => exact ⟨rfl, rfl⟩
    case ch7 => (refine kept_eq ?_; decide +kernel)
    all_goals first | decide +kernel | rfl
  · refine ⟨busy (on (running (itm 6 0 [slot 3 0] [none, none, none, some (vec1 4096 7 1, none)]))), ?dw_t, key, running (itm 6 0 [slot 3
      0] [none, none, none, some (vec1 4096 7 1, none)]), itm 6 0 [slot 3 0] [none, none, none, some (vec1 4096 7 1, none)], ⟨0, 0⟩, opd 3
      (vec1 4096 7 1), ?dh1, ?dh2, ?dh3, ?dh4, ?dh5⟩
    case dh1 => exact ⟨rfl, rfl⟩
    case dh5 => (refine kept_eq ?_; decide +kernel)
    all_goals first | decide +kernel | rfl
  · refine ⟨stored (busy (on (running (itm 3 (0x29 + 2 ^ 16) [slot 0 0, slot 3 4096, (48, 8, 8192)] [some (vec1 0 7 1, none)])))) 8196 [0,
      0, 0x80, 0x3F], ?ew_t, key, running (itm 3 (0x29 + 2 ^ 16) [slot 0 0, slot 3 4096, (48, 8, 8192)] [some (vec1 0 7 1, none)]), itm 3
      (0x29 + 2 ^ 16) [slot 0 0, slot 3 4096, (48, 8, 8192)] [some (vec1 0 7 1, none)], ⟨0, 0⟩, opd 0 (vec1 0 7 1), ?eh1, ?eh2, ?eh3, ?eh4,
      ?eh5⟩
    case eh1 => exact ⟨rfl, rfl⟩
    case eh5 => (refine kept_eq ?_; decide +kernel)
    all_goals first | decide +kernel | rfl
  · refine ⟨busy (on (running (itm 3 (0x28 + 2 ^ 16) [slot 0 0, slot 3 0, (48, 8, 8192)] [some (vec1 0 7 1, none), none, none, some (vec1
      4096 7 1, none)]))), ?fw_t, key, running (itm 3 (0x28 + 2 ^ 16) [slot 0 0, slot 3 0, (48, 8, 8192)] [some (vec1 0 7 1, none), none,
      none, some (vec1 4096 7 1, none)]), itm 3 (0x28 + 2 ^ 16) [slot 0 0, slot 3 0, (48, 8, 8192)] [some (vec1 0 7 1, none), none, none,
      some (vec1 4096 7 1, none)], ⟨0, 0⟩, opd 0 (vec1 0 7 1), opd 3 (vec1 4096 7 1), ?fh1, ?fh2, ?fh3, ?fh4, ?fh5, ?fh6⟩
    case fh1 => exact ⟨rfl, rfl⟩
    case fh6 => (refine kept_eq ?_; decide +kernel)
    all_goals first | decide +kernel | rfl

theorem witness_CompletesTransfers :
    (∃ (s : State) (t : State) (k : ItemKey) (p : Pitch) (i : Item) (pl : Place) (a : Operand) (o : Operand), OnItem s k p i ∧ runsMover s
      p i = some pl ∧ i.operand? 0 = some a ∧ i.dest? = some o ∧ i.w.typ = tyMove ∧ ((i.w.c 14 2 ≠ 1 ∧ i.w.c 14 2 ≠ 2 ∧ isRecord
      a.desc.fmt = false ∧ movePath i.w a.desc o.desc = .copy ∧ foldKeep (copyStrip k p i.w a.desc o) s o.desc.boxStrips = (t, none)) ∨
      (i.w.c 14 2 ≠ 1 ∧ i.w.c 14 2 ≠ 2 ∧ isRecord a.desc.fmt = false ∧ movePath i.w a.desc o.desc = .convert ∧ foldKeep (convertMove k p
      i.w a.desc o i.outMode) s o.desc.boxStrips = (t, none)) ∨ (i.w.c 14 2 ≠ 1 ∧ i.w.c 14 2 ≠ 2 ∧ isRecord a.desc.fmt = true ∧ foldKeep
      (copyRecord k p a.desc o) s o.desc.boxStrips = (t, none)) ∨ (i.w.c 14 2 = 1 ∧ compressMove s p k a.desc o = (t, none)) ∨ (∃ strips,
      i.w.c 14 2 = 2 ∧ decompressMove s p a.desc o.desc = .ok (some strips) ∧ foldKeep (streamStrip k o) s (o.desc.boxStrips.zip strips) =
      (t, none)))) ∧
    (∃ (s : State) (k : ItemKey) (p : Pitch) (i : Item) (pl : Place) (vals : List (List Exact × Bool)), OnItem s k p i ∧ runsReadout s p i
      = some pl ∧ i.w.typ = tyColl ∧ p.owed? i = none ∧ deliverOk p i = true ∧ ((p.colls.find? fun c => c.ident = i.w.param).elim true
      (fun c => c.accepts i) = true) ∧ mapE (contribStrip s p i pl i.collView) i.collView.boxStrips = .ok vals) ∧
    (∃ (s : State) (k : ItemKey) (p : Pitch) (i : Item) (pl : Place), OnItem s k p i ∧ runsReadout s p i = some pl ∧ i.w.typ = tyColl ∧
      (p.owed? i).isSome = true) ∧
    (∃ (s : State) (tag : Nat) (ident : Nat) (c : Coll), s.coll? tag ident = some c ∧ c.full = true ∧ c.anchors = none) ∧
    (∃ (s : State) (k : ItemKey) (p : Pitch) (i : Item) (c : Coll) (x : Contributor) (y : Contributor), OnItem s k p i ∧ s.coll? k.tag
      i.w.param = some c ∧ (c.contributors.find? (fun x => x.key = k) = some x) ∧ c.anchors.isSome = true ∧ x.rounded = false ∧ i.phase =
      .anchoring ∧ secondRead s p i x = .ok y ∧ c.root = none) ∧
    (∃ (s : State) (k : ItemKey) (p : Pitch) (i : Item) (c : Coll) (x : Contributor) (y : Contributor) (a : Nat), OnItem s k p i ∧ s.coll?
      k.tag i.w.param = some c ∧ (c.contributors.find? (fun x => x.key = k) = some x) ∧ c.anchors.isSome = true ∧ x.rounded = false ∧
      i.phase = .anchoring ∧ secondRead s p i x = .ok y ∧ c.root = some a) ∧
    (∃ (s : State) (t : State) (tag : Nat) (ident : Nat) (ovf : Nat) (c : Coll), s.coll? tag ident = some c ∧ c.full = true ∧
      c.contributors.all (·.rounded) = true ∧ bits c.control 2 2 ≠ 2 ∧ foldE (c.writeStrip tag) (s, 0) (parseDesc c.dest).boxStrips.zipIdx
      = .ok (t, ovf)) := by
  refine ⟨?_, ?_, ?_, ?_, ?_, ?_, ?_⟩
  · refine ⟨busy (on (running (itm 4 0 [slot 0 0, slot 3 0] [some (vec1 0 7 1, none), none, none, some (vec1 4096 7 1, none)]))), ?aw_t,
      key, running (itm 4 0 [slot 0 0, slot 3 0] [some (vec1 0 7 1, none), none, none, some (vec1 4096 7 1, none)]), itm 4 0 [slot 0 0,
      slot 3 0] [some (vec1 0 7 1, none), none, none, some (vec1 4096 7 1, none)], ⟨0, 0⟩, opd 0 (vec1 0 7 1), opd 3 (vec1 4096 7 1), ?ah1,
      ?ah2, ?ah3, ?ah4, ?ah5, ?ah6⟩
    case ah1 => exact ⟨rfl, rfl⟩
    case ah6 => (left; refine ⟨by decide +kernel, by decide +kernel, by decide +kernel, by decide +kernel, ?_⟩; refine kept_eq ?_; decide +kernel)
    all_goals first | decide +kernel | rfl
  · refine ⟨busy (on (running (itm 5 0 [slot 0 0, slot 3 0] [some (vec1 0 7 1, none), none, none, some (vec1 4096 7 1, none)]))), key,
      running (itm 5 0 [slot 0 0, slot 3 0] [some (vec1 0 7 1, none), none, none, some (vec1 4096 7 1, none)]), itm 5 0 [slot 0 0, slot 3
      0] [some (vec1 0 7 1, none), none, none, some (vec1 4096 7 1, none)], ⟨0, 0⟩, ?bw_vals, ?bh1, ?bh2, ?bh3, ?bh4, ?bh5, ?bh6, ?bh7⟩
    case bh1 => exact ⟨rfl, rfl⟩
    case bh7 => (refine ok1 ?_; decide +kernel)
    all_goals first | decide +kernel | rfl
  · refine ⟨busy (on { running (itm 5 0 [] []) with aborted := [⟨0, [0], (0, 0)⟩] }), key,
      { running (itm 5 0 [] []) with aborted := [⟨0, [0], (0, 0)⟩] }, itm 5 0 [] [], ⟨0, 0⟩, ?ch1, ?ch2, ?ch3, ?ch4⟩
    case ch1 => exact ⟨rfl, rfl⟩
    all_goals first | decide +kernel | rfl
  · refine ⟨on { pit with colls := [coll] }, 7, 0, coll, ?dh1, ?dh2, ?dh3⟩
    all_goals first | decide +kernel | rfl
  · refine ⟨on { running { itm 5 0 [] [] with phase := .anchoring } with colls := [anchored] }, key,
      { running { itm 5 0 [] [] with phase := .anchoring } with colls := [anchored] }, { itm 5 0 [] [] with phase := .anchoring },
      anchored, member false, member false, ?eh1, ?eh2, ?eh3, ?eh4, ?eh5, ?eh6, ?eh7, ?eh8⟩
    case eh1 => exact ⟨rfl, rfl⟩
    case eh7 => rfl
    all_goals first | decide +kernel | rfl
  · refine ⟨on { running { itm 5 0 [] [] with phase := .anchoring } with colls := [{ anchored with root := some 3 }] }, key,
      { running { itm 5 0 [] [] with phase := .anchoring } with colls := [{ anchored with root := some 3 }] },
      { itm 5 0 [] [] with phase := .anchoring }, { anchored with root := some 3 }, member false, member false, 3, ?fh1, ?fh2, ?fh3, ?fh4,
      ?fh5, ?fh6, ?fh7, ?fh8⟩
    case fh1 => exact ⟨rfl, rfl⟩
    case fh7 => rfl
    all_goals first | decide +kernel | rfl
  · refine ⟨on { pit with colls := [{ anchored with contributors := [member true] }] }, ?gw_t, 7, 0, ?gw_ovf,
      { anchored with contributors := [member true] }, ?gh1, ?gh2, ?gh3, ?gh4, ?gh5⟩
    case gh5 => (refine ok2 ?_; decide +kernel)
    all_goals first | decide +kernel | rfl

theorem witness_CompletesContextsAndModels :
    (∃ (s : State) (seq : Nat) (r : Request) (p : Pitch) (t : State), RunsFor s seq 0x0204 r p ∧ u8 r.body 16 ≤ 3 ∧ restZero r.body 17 =
      true ∧ (t = s.updPitch p.tag (fun p => p.freeze seq))) ∧
    (∃ (s : State) (seq : Nat) (r : Request) (p : Pitch) (b : Bytes), RunsFor s seq 0x0205 r p ∧ restZero r.body 16 = true ∧ (p.queues.any
      (fun q => !q.own) = false) ∧ (allKind s p (u64 r.body 0) (u64 r.body 8) (fun k => k = .dram || k = .spoil) = true) ∧ readBytes s p
      (u64 r.body 0) (u64 r.body 8) = .ok b ∧ restoreFail s p b = none) ∧
    (∃ (s : State) (seq : Nat) (r : Request) (p : Pitch) (m : Model), RunsFor s seq 0x0301 r p ∧ u16 r.body 4 = 1 ∧ restZero r.body 6 =
      true ∧ p.model? (u32 r.body 0) = some m ∧ m.sessions = [] ∧ (∀ t ∈ p.models, ¬ (t.spec = true ∧ t.draftModel = m.id))) ∧
    (∃ (s : State) (seq : Nat) (r : Request) (p : Pitch) (m : Model), RunsFor s seq 0x0301 r p ∧ bit (u16 r.body 4) 0 = false ∧ checkLoad
      s p r.body = .ok m) := by
  refine ⟨?_, ?_, ?_, ?_⟩
  · refine ⟨onReq { pit with queues := [que] } 0x0204 (fld 17 [(16, 1, 3)]), 0, rq 0x0204 (fld 17 [(16, 1, 3)]),
      { pit with queues := [que] }, ?aw_t, ?ah1, ?ah2, ?ah3, ?ah4⟩
    case ah1 => exact ⟨rfl, rfl, by decide⟩
    case ah4 => rfl
    all_goals first | decide +kernel | rfl
  · refine ⟨stored (onReq pit 0x0205 (fld 16 [(8, 8, 120)])) 0 (digested 16 (fld 120 [(0, 4, 0x43545801), (8, 8, 120), (104, 2, 7), (106,
      2, 1), (108, 4, 1)])), 0, rq 0x0205 (fld 16 [(8, 8, 120)]), pit, ?bw_b, ?bh1, ?bh2, ?bh3, ?bh4, ?bh5, ?bh6⟩
    case bh1 => exact ⟨rfl, rfl, by decide⟩
    case bh5 => (refine ok1 ?_; decide +kernel)
    all_goals first | decide +kernel | rfl
  · refine ⟨onReq { pit with models := [{ mdl ses with sessions := [] }] } 0x0301 (fld 6 [(0, 4, 1), (4, 2, 1)]), 0, rq 0x0301 (fld 6 [(0,
      4, 1), (4, 2, 1)]), { pit with models := [{ mdl ses with sessions := [] }] }, { mdl ses with sessions := [] }, ?ch1, ?ch2, ?ch3, ?ch4,
      ?ch5, ?ch6⟩
    case ch1 => exact ⟨rfl, rfl, by decide⟩
    all_goals first | decide +kernel | rfl
  · refine ⟨stored (onReq pit 0x0301 (fld 58 [(0, 4, 1), (24, 8, 144), (48, 4, 1), (52, 4, 64), (56, 2, 64)])) 0 (digested 48 (fld 144
      [(0, 4, 0x47504B01), (4, 4, 16), (8, 2, 1), (10, 2, 1), (12, 4, 64), (16, 4, 64), (20, 2, 1), (24, 8, 128), (136, 8, 65536)])), 0,
      rq 0x0301 (fld 58 [(0, 4, 1), (24, 8, 144), (48, 4, 1), (52, 4, 64), (56, 2, 64)]), pit, ?dw_m, ?dh1, ?dh2, ?dh3⟩
    case dh1 => exact ⟨rfl, rfl, by decide⟩
    case dh3 => (refine ok1 ?_; decide +kernel)
    all_goals first | decide +kernel | rfl

theorem witness_CompletesSessions :
    (∃ (s : State) (seq : Nat) (n : Nat) (r : Request) (p : Pitch) (m : Model) (x : Session), RunsFor s seq 0x0302 r p ∧ p.model? (u32
      r.body 0) = some m ∧ openFieldsOk m r.body = true ∧ dramSpan s p (u64 r.body 32) (64 + 32 * u32 r.body 40) = true ∧
      m.sessions.length < 65536 ∧ (n = freeId (p.models.flatMap fun m => m.sessions.map (·.id)) (p.models.flatMap fun m => m.sessions.map
      (·.id)).length ((p.models.map (·.nextSession)).foldl max 0)) ∧ (x =
      { id := n % 2 ^ 32, pinned := bit (u32 r.body 4) 0, noPrefix := bit (u32 r.body 4) 1, stream := u64 r.body 8, temp := BitVec.ofNat 32 (u32 r.body 16), topP := BitVec.ofNat 32 (u32 r.body 20), topK := u32 r.body 24, maxLen := u32 r.body 28, outBase := u64 r.body 32, outSlots := u32 r.body 40, openBytes := slice r.body 0 80, stop := ((List.range 8).map fun i => u32 r.body (48 + 4 * i)).filter (· != 0xFFFFFFFF) })) ∧
    (∃ (s : State) (seq : Nat) (r : Request) (p : Pitch) (m : Model) (x : Session) (b : Bytes), RunsFor s seq 0x0303 r p ∧ p.expired (u32
      r.body 0) = false ∧ p.session? (u32 r.body 0) = some (m, x) ∧ s.mayEvaluate p m.id r = true ∧ x.st = .idle ∧ x.pause = none ∧
      x.committed + u32 r.body 24 ≤ x.maxLen ∧ submitFieldsOk x r.body = true ∧ dramSpan s p (u64 r.body 16) (4 * u32 r.body 24) = true ∧
      readBytes s p (u64 r.body 16) (4 * u32 r.body 24) = .ok b ∧ (∀ k ∈ (List.range (u32 r.body 24)).map (fun i => u32 b (4 * i)), k <
      m.vocab)) ∧
    (∃ (s : State) (seq : Nat) (r : Request) (p : Pitch) (m : Model) (x : Session), RunsFor s seq 0x0306 r p ∧ restZero r.body 4 = true ∧
      (p.models.findSome? (fun m => (m.session? (u32 r.body 0)).bind fun x => if x.closing = some (some seq) then some m.id else none) =
      none) ∧ p.expired (u32 r.body 0) = false ∧ p.session? (u32 r.body 0) = some (m, x) ∧ x.pastDue r.acceptedAt = false ∧ x.st =
      .paused) ∧
    (∃ (s : State) (seq : Nat) (r : Request) (p : Pitch) (m : Model) (x : Session), RunsFor s seq 0x0306 r p ∧ restZero r.body 4 = true ∧
      (p.models.findSome? (fun m => (m.session? (u32 r.body 0)).bind fun x => if x.closing = some (some seq) then some m.id else none) =
      none) ∧ p.expired (u32 r.body 0) = false ∧ p.session? (u32 r.body 0) = some (m, x) ∧ x.pastDue r.acceptedAt = false ∧ x.st ≠ .paused
      ∧ x.pause = none) ∧
    (∃ (s : State) (seq : Nat) (a : Nat) (r : Request) (p : Pitch) (m : Model) (x : Session), RunsFor s seq 0x0304 r p ∧ restZero r.body 8
      = true ∧ p.expired (u32 r.body 0) = false ∧ p.session? (u32 r.body 0) = some (m, x) ∧ x.pause = none ∧ draining p m x = false ∧ 1000
      ≤ u32 r.body 4 ∧ u32 r.body 4 ≤ 604800000 ∧ m.pauseSpace (roundUp (pauseBytes p m x) pauseUnit) = some a) ∧
    (∃ (s : State) (t : State) (tag : Nat) (model : Nat) (session : Nat) (p : Pitch) (m : Model) (x : Session) (q : Pause) (q' : Pause) (a
      : Bytes) (c : Bytes), s.pitch? tag = some p ∧ s.model? tag model = some m ∧ s.session? tag model session = some x ∧ x.pause = some q
      ∧ q.written = false ∧ x.inStep = none ∧ q' = { q with prior := x.st, nbytes := pauseBytes p m x } ∧ pauseRecord s p m x q'
      x.openBytes x.table = .ok a ∧ shadowRecord s p m x q' = .ok c ∧ (t = ((s.tryWrite tag q.addr (a ++ c)).draw).updPitch tag (fun p' =>
      (p'.updModel model fun m' => ((m'.dropPending session).releaseBlocks x.table).updSession session fun x' =>
      { x' with st := .paused, table := [], shadowTable := [], pause := some { q' with digest := sha384 (a ++ c), blocks := x.table.filterMap m.block?, shadow := x.shadowTable.filterMap fun b => (p.model? m.draftModel).bind fun d => d.block? b, written := true }, shadowKv := min x'.shadowKv x'.committed, drafts := [], req := x'.req.map fun r => { r with reserved := 0, shadowReserved := 0 } }).releaseShadow
      m x.shadowTable)) ∧ q.request = none) ∧
    (∃ (s : State) (t : State) (tag : Nat) (model : Nat) (session : Nat) (p : Pitch) (m : Model) (x : Session) (q : Pause) (q' : Pause) (a
      : Bytes) (c : Bytes) (seq : Nat), s.pitch? tag = some p ∧ s.model? tag model = some m ∧ s.session? tag model session = some x ∧
      x.pause = some q ∧ q.written = false ∧ x.inStep = none ∧ q' = { q with prior := x.st, nbytes := pauseBytes p m x } ∧ pauseRecord s p
      m x q' x.openBytes x.table = .ok a ∧ shadowRecord s p m x q' = .ok c ∧ (t = ((s.tryWrite tag q.addr (a ++ c)).draw).updPitch tag
      (fun p' => (p'.updModel model fun m' => ((m'.dropPending session).releaseBlocks x.table).updSession session fun x' =>
      { x' with st := .paused, table := [], shadowTable := [], pause := some { q' with digest := sha384 (a ++ c), blocks := x.table.filterMap m.block?, shadow := x.shadowTable.filterMap fun b => (p.model? m.draftModel).bind fun d => d.block? b, written := true }, shadowKv := min x'.shadowKv x'.committed, drafts := [], req := x'.req.map fun r => { r with reserved := 0, shadowReserved := 0 } }).releaseShadow
      m x.shadowTable)) ∧ q.request = some seq) ∧
    (∃ (s : State) (seq : Nat) (r : Request) (p : Pitch) (m : Model) (x : Session) (q : Pause) (rec : Bytes), RunsFor s seq 0x0305 r p ∧
      restZero r.body 4 = true ∧ p.expired (u32 r.body 0) = false ∧ p.session? (u32 r.body 0) = some (m, x) ∧ x.pause = some q ∧ q.written
      = true ∧ q.byBooth = false ∧ s.mayEvaluate p m.id r = true ∧ r.acceptedAt < q.deadline ∧ resumeCheck s p m x q r.acceptedAt = .inr
      rec) ∧
    (∃ (s : State) (tag : Nat) (model : Nat) (session : Nat) (p : Pitch) (x : Session) (q : Pause), s.pitch? tag = some p ∧ p.st = .active
      ∧ s.session? tag model session = some x ∧ x.pause = some q ∧ q.written = true ∧ q.deadline ≤ s.now ∧ s.wanted p x = false) := by
  refine ⟨?_, ?_, ?_, ?_, ?_, ?_, ?_, ?_, ?_⟩
  · refine ⟨onReq (serving ses) 0x0302 (fld 80 [(0, 4, 1), (20, 4, 0x3F800000), (28, 4, 64), (32, 8, 8192), (40, 4, 64)]), 0, ?aw_n, rq
      0x0302 (fld 80 [(0, 4, 1), (20, 4, 0x3F800000), (28, 4, 64), (32, 8, 8192), (40, 4, 64)]), serving ses, mdl ses, ?aw_x, ?ah1, ?ah2,
      ?ah3, ?ah4, ?ah5, ?ah6, ?ah7⟩
    case ah1 => exact ⟨rfl, rfl, by decide⟩
    case ah6 => rfl
    case ah7 => rfl
    all_goals first | decide +kernel | rfl
  · refine ⟨onReq (serving ses) 0x0303 (fld 40 [(24, 4, 1)]), 0, rq 0x0303 (fld 40 [(24, 4, 1)]), serving ses, mdl ses, ses,
      List.replicate 4 0, ?bh1, ?bh2, ?bh3, ?bh4, ?bh5, ?bh6, ?bh7, ?bh8, ?bh9, ?bh10, ?bh11⟩
    case bh1 => exact ⟨rfl, rfl, by decide⟩
    case bh10 => (refine ok_be ?_; decide +kernel)
    all_goals first | decide +kernel | rfl
  · refine ⟨onReq (serving { ses with st := .paused }) 0x0306 (fld 4 []), 0, rq 0x0306 (fld 4 []), serving { ses with st := .paused }, mdl
      { ses with st := .paused }, { ses with st := .paused }, ?ch1, ?ch2, ?ch3, ?ch4, ?ch5, ?ch6, ?ch7⟩
    case ch1 => exact ⟨rfl, rfl, by decide⟩
    all_goals first | decide +kernel | rfl
  · refine ⟨onReq (serving ses) 0x0306 (fld 4 []), 0, rq 0x0306 (fld 4 []), serving ses, mdl ses, ses, ?dh1, ?dh2, ?dh3, ?dh4, ?dh5, ?dh6, ?dh7,
      ?dh8⟩
    case dh1 => exact ⟨rfl, rfl, by decide⟩
    all_goals first | decide +kernel | rfl
  · refine ⟨onReq (serving ses) 0x0304 (fld 8 [(4, 4, 1000)]), 0, spoilBase, rq 0x0304 (fld 8 [(4, 4, 1000)]), serving ses, mdl ses, ses,
      ?eh1, ?eh2, ?eh3, ?eh4, ?eh5, ?eh6, ?eh7, ?eh8, ?eh9⟩
    case eh1 => exact ⟨rfl, rfl, by decide⟩
    all_goals first | decide +kernel | rfl
  · refine ⟨on (serving { ses with pause := some pau }), ?fw_t, 7, 1, 0, serving { ses with pause := some pau }, mdl
      { ses with pause := some pau }, { ses with pause := some pau }, pau, ?fw_q', ?fw_a, ?fw_c, ?fh1, ?fh2, ?fh3, ?fh4, ?fh5, ?fh6, ?fh7, ?fh8, ?fh9,
      ?fh10, ?fh11⟩
    case fh7 => rfl
    case fh8 => (refine ok1 ?_; decide +kernel)
    case fh9 => (refine ok1 ?_; decide +kernel)
    case fh10 => rfl
    all_goals first | decide +kernel | rfl
  · refine ⟨on (serving { ses with pause := some { pau with request := some 0 } }), ?gw_t, 7, 1, 0, serving
      { ses with pause := some { pau with request := some 0 } }, mdl { ses with pause := some { pau with request := some 0 } },
      { ses with pause := some { pau with request := some 0 } }, { pau with request := some 0 }, ?gw_q', ?gw_a, ?gw_c, 0, ?gh1, ?gh2, ?gh3, ?gh4,
      ?gh5, ?gh6, ?gh7, ?gh8, ?gh9, ?gh10, ?gh11⟩
    case gh7 => rfl
    case gh8 => (refine ok1 ?_; decide +kernel)
    case gh9 => (refine ok1 ?_; decide +kernel)
    case gh10 => rfl
    all_goals first | decide +kernel | rfl
  · refine ⟨onReq (serving { ses with st := .paused, pause := some { pau with written := true } }) 0x0305 (fld 4 []), 0, rq 0x0305 (fld 4
      []), serving { ses with st := .paused, pause := some { pau with written := true } }, mdl
      { ses with st := .paused, pause := some { pau with written := true } },
      { ses with st := .paused, pause := some { pau with written := true } }, { pau with written := true }, List.replicate 64 0, ?hh1, ?hh2,
      ?hh3, ?hh4, ?hh5, ?hh6, ?hh7, ?hh8, ?hh9, ?hh10⟩
    case hh1 => exact ⟨rfl, rfl, by decide⟩
    all_goals first | decide +kernel | rfl
  · refine ⟨on (serving { ses with st := .paused, pause := some { pau with written := true, deadline := 0 } }), 7, 1, 0, serving
      { ses with st := .paused, pause := some { pau with written := true, deadline := 0 } },
      { ses with st := .paused, pause := some { pau with written := true, deadline := 0 } }, { pau with written := true, deadline := 0 },
      ?ih1, ?ih2, ?ih3, ?ih4, ?ih5, ?ih6, ?ih7⟩
    all_goals first | decide +kernel | rfl

theorem witness_CompletesBooth :
    (∃ (s : State) (seq : Nat) (r : Request) (p : Pitch) (m : Model), RunsFor s seq 0x0307 r p ∧ p.model? (u32 r.body 0) = some m ∧ bit
      (u32 r.body 4) 0 = true ∧ boothFieldsOk m.booth r.body = true) ∧
    (∃ (s : State) (seq : Nat) (r : Request) (p : Pitch) (m : Model) (m' : Model), RunsFor s seq 0x0307 r p ∧ p.model? (u32 r.body 0) =
      some m ∧ bit (u32 r.body 4) 0 = false ∧ boothFieldsOk m.booth r.body = true ∧ m' = { m with booth := m.booth.configured r.body } ∧
      pauseAreaOk p m'.booth.pauseRegion m'.booth.pauseBase m'.booth.pauseBytes = true ∧ m.pauseUsed = []) ∧
    (∃ (s : State) (tag : Nat) (model : Nat) (p : Pitch) (m : Model), s.pitch? tag = some p ∧ s.model? tag model = some m) ∧
    (∃ (s : State) (tag : Nat) (model : Nat) (p : Pitch) (m : Model), s.pitch? tag = some p ∧ s.model? tag model = some m ∧ p.st = .active
      ∧ m.booth.mode ≠ 2) := by
  refine ⟨?_, ?_, ?_, ?_⟩
  · refine ⟨onReq (serving ses) 0x0307 (fld 64 [(0, 4, 1), (4, 4, 1)]), 0, rq 0x0307 (fld 64 [(0, 4, 1), (4, 4, 1)]), serving ses, mdl
      ses, ?ah1, ?ah2, ?ah3, ?ah4⟩
    case ah1 => exact ⟨rfl, rfl, by decide⟩
    all_goals first | decide +kernel | rfl
  · refine ⟨onReq { pit with models := [{ mdl ses with booth := {} }] } 0x0307 (fld 64 [(0, 4, 1)]), 0, rq 0x0307 (fld 64 [(0, 4, 1)]),
      { pit with models := [{ mdl ses with booth := {} }] }, { mdl ses with booth := {} }, ?bw_m', ?bh1, ?bh2, ?bh3, ?bh4, ?bh5, ?bh6, ?bh7⟩
    case bh1 => exact ⟨rfl, rfl, by decide⟩
    case bh5 => rfl
    case bh6 => decide +kernel
    all_goals first | decide +kernel | rfl
  · refine ⟨on (serving ses), 7, 1, serving ses, mdl ses, ?ch1, ?ch2⟩
    all_goals first | decide +kernel | rfl
  · refine ⟨on (serving ses), 7, 1, serving ses, mdl ses, ?dh1, ?dh2, ?dh3, ?dh4⟩
    all_goals first | decide +kernel | rfl

theorem witness_CompletesTokenSteps :
    (∃ (s : State) (t : State) (tag : Nat) (model : Nat) (p : Pitch) (m : Model) (f : Forming), t = s.boundary tag model ∧ t.pitch? tag =
      some p ∧ t.model? tag model = some m ∧ p.st = .active ∧ t.orchestrates m.core = true ∧ m.steps.length < m.depth ∧ t.formDrafts tag p
      m = none ∧ f = t.formSessions tag p m ∧ f.parts ≠ []) ∧
    (∃ (s : State) (t : State) (tag : Nat) (model : Nat) (target : Nat) (p : Pitch) (m : Model) (f : Forming), t = s.boundary tag model ∧
      t.pitch? tag = some p ∧ t.model? tag model = some m ∧ p.st = .active ∧ t.orchestrates m.core = true ∧ m.steps.length < m.depth ∧
      t.formDrafts tag p m = some (target, f)) ∧
    (∃ (s : State) (w : State) (v : State) (u : State) (tag : Nat) (model : Nat) (step : Nat) (latencyNs : Nat) (results : List
      StepResult) (p : Pitch) (m : Model) (own : Model) (t : TokStep), s.pitch? tag = some p ∧ s.model? tag model = some m ∧
      (m.steps.find? (fun t => t.id = step) = some t) ∧ own = p.stepOwner m t.drafting ∧ latencyNs = t.latencyNs s.now ∧ resultsOk p m own
      t results = true ∧ gatesOpen p m t = true ∧ stepDone p m t = true ∧ (w = s.updPitch tag (fun p => p.useEndings (gulperQueue model)
      (t.seqs.map (·.2)))) ∧ ((t.drafting = none ∧ v = t.parts.foldl (commitPart tag model t.epoch results) w) ∨ (∃ target, t.drafting =
      some target ∧ v = t.parts.foldl (commitDraft tag model target t.epoch results) w)) ∧ (u = v.updModel tag model (fun m' =>
      m'.afterCommit t (decodeTokens m m' t) latencyNs (lastingCause v p m)))) ∧
    (∃ (s : State) (u : State) (tag : Nat) (model : Nat) (step : Nat) (status : Nat) (p : Pitch) (m : Model) (own : Model) (t : TokStep),
      s.pitch? tag = some p ∧ s.model? tag model = some m ∧ (m.steps.find? (fun t => t.id = step) = some t) ∧ p.firstFailure (gulperQueue
      model) (t.seqs.map (·.2)) = some status ∧ own = p.stepOwner m t.drafting ∧ t.again = true ∧ (u = ((s.updPitch tag fun p =>
      p.useEndings (gulperQueue model) (t.seqs.map (·.2))).updModel tag own.id fun m => (t.parts.map (·.session)).foldl (fun m sid => (if
      t.drafting.isSome then m else m.dropPending sid).updSession sid fun x => { x with inStep := none }) m).updModel tag model (fun m =>
      { m with steps := m.steps.filter fun u => u.id != t.id }))) ∧
    (∃ (s : State) (u : State) (v : State) (tag : Nat) (model : Nat) (step : Nat) (status : Nat) (p : Pitch) (m : Model) (own : Model) (t
      : TokStep) (parts : List StepPart), s.pitch? tag = some p ∧ s.model? tag model = some m ∧ (m.steps.find? (fun t => t.id = step) =
      some t) ∧ p.firstFailure (gulperQueue model) (t.seqs.map (·.2)) = some status ∧ own = p.stepOwner m t.drafting ∧ t.again = false ∧
      parts = t.parts.filter (again? own) ∧ parts ≠ [] ∧ (u = ((s.updPitch tag fun p => p.useEndings (gulperQueue model) (t.seqs.map
      (·.2))).updModel tag own.id fun m => (t.parts.map (·.session)).foldl (fun m sid => (if t.drafting.isSome then m else m.dropPending
      sid).updSession sid fun x => { x with inStep := none }) m).updModel tag model (fun m =>
      { m with steps := m.steps.filter fun u => u.id != t.id })) ∧ (v = (u.updModel tag own.id fun m' => parts.foldl (fun m' q => (if
      t.drafting.isSome then m' else m'.markPending p q.session q.last).updSession q.session fun x =>
      { x with inStep := some (if t.drafting.isSome then draftStep m.nextStep else m.nextStep) }) m').updModel tag model (fun m =>
      { m with booth := { m.booth with causes := [3] } }))) ∧
    (∃ (s : State) (tag : Nat) (model : Nat) (block : Nat) (m : Model) (b : Block) (holders : List Nat), s.model? tag model = some m ∧
      m.block? block = some b ∧ (b.state = bsHashed ∨ b.state = bsCached) ∧ (holders = (m.sessions.filter fun x => x.table.contains
      block).map (·.id))) := by
  refine ⟨?_, ?_, ?_, ?_, ?_, ?_⟩
  · refine ⟨on (serving { ses with st := .prefill, tokens := [1], req := some gen }), ?aw_t, 7, 1, ?aw_p, ?aw_m, ?aw_f, ?ah1, ?ah2, ?ah3, ?ah4,
      ?ah5, ?ah6, ?ah7, ?ah8, ?ah9⟩
    case ah1 => rfl
    case ah2 => rfl
    case ah3 => rfl
    case ah8 => rfl
    all_goals first | decide +kernel | rfl
  · refine ⟨on drafted, ?bw_t, 7, 1, 2, ?bw_p, ?bw_m, ?bw_f, ?bh1, ?bh2, ?bh3, ?bh4, ?bh5, ?bh6, ?bh7⟩
    case bh1 => rfl
    case bh2 => rfl
    case bh3 => rfl
    case bh7 => (refine opt_eq (⟨on pit, 0, []⟩ : Forming) ?_; decide +kernel)
    all_goals first | decide +kernel | rfl
  · refine ⟨on (stepping ses (tok false [])), ?cw_w, ?cw_v, ?cw_u, 7, 1, 0, 40 * ((on (stepping ses (tok false []))).now - 0), [], stepping
      ses (tok false []), { mdl ses with steps := [tok false []] }, { mdl ses with steps := [tok false []] }, tok false [], ?ch1, ?ch2, ?ch3,
      ?ch4, ?ch5, ?ch6, ?ch7, ?ch8, ?ch9, ?ch10, ?ch11⟩
    case ch9 => rfl
    case ch10 => (left; refine ⟨rfl, ?_⟩; rfl)
    case ch11 => rfl
    all_goals first | decide +kernel | rfl
  · refine ⟨on (stepping ses (tok true [(0, 0)])), ?dw_u, 7, 1, 0, stUncorrectable, stepping ses (tok true [(0, 0)]),
      { mdl ses with steps := [tok true [(0, 0)]] }, { mdl ses with steps := [tok true [(0, 0)]] }, tok true [(0, 0)], ?dh1, ?dh2, ?dh3, ?dh4,
      ?dh5, ?dh6, ?dh7⟩
    case dh7 => rfl
    all_goals first | decide +kernel | rfl
  · refine ⟨on (stepping { ses with req := some gen } (tok false [(0, 0)])), ?ew_u, ?ew_v, 7, 1, 0, stUncorrectable, stepping
      { ses with req := some gen } (tok false [(0, 0)]), { mdl { ses with req := some gen } with steps := [tok false [(0, 0)]] },
      { mdl { ses with req := some gen } with steps := [tok false [(0, 0)]] }, tok false [(0, 0)], [⟨0, 0, 0, false, 0, 0⟩], ?eh1, ?eh2,
      ?eh3, ?eh4, ?eh5, ?eh6, ?eh7, ?eh8, ?eh9, ?eh10⟩
    case eh9 => rfl
    case eh10 => rfl
    all_goals first | decide +kernel | rfl
  · refine ⟨on { pit with models := [{ mdl ses with blocks := [{ id := 0, state := bsHashed }] }] }, 7, 1, 0,
      { mdl ses with blocks := [{ id := 0, state := bsHashed }] }, { id := 0, state := bsHashed }, ?fw_holders, ?fh1, ?fh2, ?fh3, ?fh4⟩
    case fh4 => rfl
    all_goals first | decide +kernel | rfl

theorem witness_CompletesTrainingCommands :
    (∃ (s : State) (seq : Nat) (q : Request) (p : Pitch) (r : Run), RunsFor s seq 0x0401 q p ∧ u16 q.body 4 = 1 ∧ restZero q.body 6 = true
      ∧ p.run? (u32 q.body 0) = some r ∧ r.inProgress p = false ∧ (∀ x ∈ p.plans, ¬ (x.run = r.id ∧ (x.state = 1 ∨ x.state = 2)))) ∧
    (∃ (s : State) (seq : Nat) (q : Request) (p : Pitch) (r : Run), RunsFor s seq 0x0401 q p ∧ bit (u16 q.body 4) 0 = false ∧ checkRun s p
      q.body = .ok r) ∧
    (∃ (s : State) (seq : Nat) (q : Request) (p : Pitch) (r : Run) (l : Layer) (u : Rule), RunsFor s seq 0x0402 q p ∧ p.run? (u32 q.body
      0) = some r ∧ r.layer? (u32 q.body 4) = some l ∧ r.inProgress p = false ∧ ruleFieldsOk q.body = true ∧ bit (u8 q.body 9) 1 = true ∧
      keepState s p l q.body = .ok u) ∧
    (∃ (s : State) (seq : Nat) (q : Request) (p : Pitch) (r : Run) (l : Layer) (u : Rule) (ws : List (List (List W32))), RunsFor s seq
      0x0402 q p ∧ p.run? (u32 q.body 0) = some r ∧ r.layer? (u32 q.body 4) = some l ∧ r.inProgress p = false ∧ ruleFieldsOk q.body = true
      ∧ bit (u8 q.body 9) 1 = false ∧ freshRule s p l q.body = .ok (u, ws)) ∧
    (∃ (s : State) (seq : Nat) (q : Request) (p : Pitch) (r : Run), RunsFor s seq 0x0403 q p ∧ p.run? (u32 q.body 0) = some r ∧ scheduleOk
      q.body = true ∧ r.reached (parseSchedule q.body).fromStep = false ∧ ((if u8 q.body 4 = 1 then r.wd else r.lr) ≠ [] ∨ (parseSchedule
      q.body).fromStep = r.startStep)) ∧
    (∃ (s : State) (seq : Nat) (q : Request) (p : Pitch) (r : Run) (m : W32), RunsFor s seq 0x0405 q p ∧ p.run? (u32 q.body 0) = some r ∧
      m = BitVec.ofNat 32 (u32 q.body 4) ∧ f32NonNeg m = true ∧ restZero q.body 16 = true ∧ u64 q.body 8 = r.nextMult) ∧
    (∃ (s : State) (seq : Nat) (q : Request) (p : Pitch) (r : Run) (t : Bytes) (c : Ckpt), RunsFor s seq 0x0404 q p ∧ u8 q.body 4 = 0 ∧
      p.run? (u32 q.body 0) = some r ∧ u8 q.body 5 ≤ 1 ∧ restZero q.body 28 = true ∧ dramTable s p (u64 q.body 8) (8 * p.dieCount) = .ok t
      ∧ ((r.owners p).any (fun d => u64 q.body 16 < r.stateBytes d + 64 + 112 * r.layers.length) = false) ∧ ((r.owners p).findSome? (fun d
      => ckptAreaFail s p (u8 q.body 5 = 1) d ((u64s t p.dieCount).getD d 0) (2 * u64 q.body 16)) = none) ∧ (c =
      { spoil := u8 q.body 5 = 1, every := u16 q.body 6, areas := u64s t p.dieCount, slotBytes := u64 q.body 16, timeoutMs := if u32 q.body 24 = 0 then 1000 else u32 q.body 24, since := r.nextCkpt })) ∧
    (∃ (s : State) (seq : Nat) (q : Request) (p : Pitch) (r : Run), RunsFor s seq 0x0404 q p ∧ u8 q.body 4 = 1 ∧ p.run? (u32 q.body 0) =
      some r ∧ ckptRestOk q.body = true ∧ r.ckpt ≠ none) ∧
    (∃ (s : State) (seq : Nat) (q : Request) (p : Pitch) (r : Run), RunsFor s seq 0x0404 q p ∧ u8 q.body 4 = 3 ∧ p.run? (u32 q.body 0) =
      some r ∧ ckptRestOk q.body = true) ∧
    (∃ (s : State) (seq : Nat) (n : Nat) (q : Request) (p : Pitch) (r : Run) (c : Ckpt) (ls : List (Nat × Layer × Bytes)), RunsFor s seq
      0x0404 q p ∧ u8 q.body 4 = 2 ∧ p.run? (u32 q.body 0) = some r ∧ ckptRestOk q.body = true ∧ r.inProgress p = false ∧ r.ckpt = some c
      ∧ c.newest = some n ∧ restoreAll s p r c n = .ok ls) := by
  refine ⟨?_, ?_, ?_, ?_, ?_, ?_, ?_, ?_, ?_, ?_⟩
  · refine ⟨onReq (training (run1 lay blk)) 0x0401 (fld 6 [(0, 4, 1), (4, 2, 1)]), 0, rq 0x0401 (fld 6 [(0, 4, 1), (4, 2, 1)]), training
      (run1 lay blk), run1 lay blk, ?ah1, ?ah2, ?ah3, ?ah4, ?ah5, ?ah6⟩
    case ah1 => exact ⟨rfl, rfl, by decide⟩
    all_goals first | decide +kernel | rfl
  · refine ⟨stored (onReq pit 0x0401 (fld 64 [(0, 4, 1), (6, 2, 1), (24, 8, 4096), (32, 2, 0xFFFF)])) 0 (fld 32 [(0, 4, 1), (4, 4, 1),
      (10, 2, 1), (12, 2, 1)]), 0, rq 0x0401 (fld 64 [(0, 4, 1), (6, 2, 1), (24, 8, 4096), (32, 2, 0xFFFF)]), pit, ?bw_r, ?bh1, ?bh2, ?bh3⟩
    case bh1 => exact ⟨rfl, rfl, by decide⟩
    case bh3 => (refine ok1 ?_; decide +kernel)
    all_goals first | decide +kernel | rfl
  · refine ⟨stored (onReq (training (run1 laid blk)) 0x0402 (fld 104 [(0, 4, 1), (9, 1, 2), (48, 8, 524352)])) 0 (le 8 65536 ++ fld 56 []
      ++ mat1 4096 7), 0, rq 0x0402 (fld 104 [(0, 4, 1), (9, 1, 2), (48, 8, 524352)]), training (run1 laid blk), run1 laid blk, laid,
      ?cw_u, ?ch1, ?ch2, ?ch3, ?ch4, ?ch5, ?ch6, ?ch7⟩
    case ch1 => exact ⟨rfl, rfl, by decide⟩
    case ch7 => (refine ok1 ?_; decide +kernel)
    all_goals first | decide +kernel | rfl
  · refine ⟨stored (onReq (training (run1 lay blk)) 0x0402 (fld 104 [(0, 4, 1), (48, 8, 524352), (56, 8, 64)])) 0 (le 8 65536 ++ fld 56 []
      ++ mat1 4096 7), 0, rq 0x0402 (fld 104 [(0, 4, 1), (48, 8, 524352), (56, 8, 64)]), training (run1 lay blk), run1 lay blk, lay, ?dw_u,
      ?dw_ws, ?dh1, ?dh2, ?dh3, ?dh4, ?dh5, ?dh6, ?dh7⟩
    case dh1 => exact ⟨rfl, rfl, by decide⟩
    case dh7 => (refine ok2 ?_; decide +kernel)
    all_goals first | decide +kernel | rfl
  · refine ⟨onReq (training (run1 lay blk)) 0x0403 (fld 32 [(0, 4, 1), (7, 1, 1), (20, 4, 1)]), 0, rq 0x0403 (fld 32 [(0, 4, 1), (7, 1,
      1), (20, 4, 1)]), training (run1 lay blk), run1 lay blk, ?eh1, ?eh2, ?eh3, ?eh4, ?eh5⟩
    case eh1 => exact ⟨rfl, rfl, by decide⟩
    all_goals first | decide +kernel | rfl
  · refine ⟨onReq (training (run1 lay blk)) 0x0405 (fld 16 [(0, 4, 1)]), 0, rq 0x0405 (fld 16 [(0, 4, 1)]), training (run1 lay blk), run1
      lay blk, 0, ?fh1, ?fh2, ?fh3, ?fh4, ?fh5, ?fh6⟩
    case fh1 => exact ⟨rfl, rfl, by decide⟩
    all_goals first | decide +kernel | rfl
  · refine ⟨stored (onReq { training (run1 lay blk) with regions := [⟨false, 1, 0, 1048576, 0, 0⟩], spoilKey := some 0 } 0x0404 (fld 28
      [(0, 4, 1), (5, 1, 1), (16, 8, 176)])) 0 (le 8 spoilBase), 0, rq 0x0404 (fld 28 [(0, 4, 1), (5, 1, 1), (16, 8, 176)]),
      { training (run1 lay blk) with regions := [⟨false, 1, 0, 1048576, 0, 0⟩], spoilKey := some 0 }, run1 lay blk, ?gw_t, ?gw_c, ?gh1, ?gh2,
      ?gh3, ?gh4, ?gh5, ?gh6, ?gh7, ?gh8, ?gh9⟩
    case gh1 => exact ⟨rfl, rfl, by decide⟩
    case gh6 => (refine ok1 ?_; decide +kernel)
    case gh9 => rfl
    all_goals first | decide +kernel | rfl
  · refine ⟨onReq (training { run1 lay blk with ckpt := some ckp }) 0x0404 (fld 5 [(0, 4, 1), (4, 1, 1)]), 0, rq 0x0404 (fld 5 [(0, 4, 1),
      (4, 1, 1)]), training { run1 lay blk with ckpt := some ckp }, { run1 lay blk with ckpt := some ckp }, ?hh1, ?hh2, ?hh3, ?hh4, ?hh5⟩
    case hh1 => exact ⟨rfl, rfl, by decide⟩
    all_goals first | decide +kernel | rfl
  · refine ⟨onReq (training (run1 lay blk)) 0x0404 (fld 5 [(0, 4, 1), (4, 1, 3)]), 0, rq 0x0404 (fld 5 [(0, 4, 1), (4, 1, 3)]), training
      (run1 lay blk), run1 lay blk, ?ih1, ?ih2, ?ih3, ?ih4⟩
    case ih1 => exact ⟨rfl, rfl, by decide⟩
    all_goals first | decide +kernel | rfl
  · refine ⟨stored (onReq (training { run1 lay blk with ckpt := some { ckp with areas := [8192], slotSt := [2, 0] } }) 0x0404 (fld 5 [(0,
      4, 1), (4, 1, 2)])) 8256 (fld 64 [] ++ sha384 (fld 64 [])), 0, 0, rq 0x0404 (fld 5 [(0, 4, 1), (4, 1, 2)]), training
      { run1 lay blk with ckpt := some { ckp with areas := [8192], slotSt := [2, 0] } },
      { run1 lay blk with ckpt := some { ckp with areas := [8192], slotSt := [2, 0] } }, { ckp with areas := [8192], slotSt := [2, 0] },
      ?jw_ls, ?jh1, ?jh2, ?jh3, ?jh4, ?jh5, ?jh6, ?jh7, ?jh8⟩
    case jh1 => exact ⟨rfl, rfl, by decide⟩
    case jh8 => (refine ok1 ?_; decide +kernel)
    all_goals first | decide +kernel | rfl

theorem witness_CompletesBlocks :
    (∃ (s : State) (tag : Nat) (ident : Nat) (p : Pitch) (c : Coll) (x : Run) (l : Layer) (b : CBlock) (r : BlockRef), s.pitch? tag = some
      p ∧ s.coll? tag ident = some c ∧ r = parseBlockRef c.dest ∧ p.run? r.run = some x ∧ x.layer? r.layerTag = some l ∧ x.block?
      r.layerTag r.block = some b ∧ bits c.control 2 2 = 2 ∧ c.full = true ∧ c.contributors.all (·.rounded) = true ∧ b.step ≤ r.step ∧
      r.step < b.step + 4 ∧ x.aborts.contains (r.layerTag, r.block, r.step) = false ∧ b.grad? r.step = none ∧ p.buffersUsed (l.owner
      r.block) < 64 ∧ x.normRoom (l.owner r.block) r.step = true) ∧
    (∃ (s : State) (tag : Nat) (run : Nat) (layer : Nat) (block : Nat) (p : Pitch) (r : Run) (l : Layer) (u : Rule) (c : CBlock) (m :
      W32), OnBlock s tag run layer block p r l u c ∧ c.st = .complete ∧ r.aborts.contains (layer, block, c.step) = false ∧ r.mult? c.step
      = some m ∧ updatable s p r l u c = true ∧ inLine s p (l.owner c.block) c = true) ∧
    (∃ (s : State) (tag : Nat) (run : Nat) (layer : Nat) (block : Nat) (p : Pitch) (r : Run) (l : Layer) (u : Rule) (c : CBlock) (m :
      W32), OnBlock s tag run layer block p r l u c ∧ c.st = .complete ∧ r.aborts.contains (layer, block, c.step) = false ∧ r.mult? c.step
      = some m ∧ updatable s p r l u c = true ∧ inLine s p (l.owner c.block) c = true ∧ r.held = false ∧ c.step ≠ r.startStep) ∧
    (∃ (s : State) (tag : Nat) (run : Nat) (layer : Nat) (block : Nat) (p : Pitch) (r : Run) (l : Layer) (u : Rule) (c : CBlock), OnBlock
      s tag run layer block p r l u c ∧ r.aborts.contains (layer, block, c.step) = true ∧ updatable s p r l u c = true) := by
  refine ⟨?_, ?_, ?_, ?_⟩
  · refine ⟨on { training (run1 laid blk) with colls := [delivered] }, 7, 0, { training (run1 laid blk) with colls := [delivered] },
      delivered, run1 laid blk, laid, blk, ?aw_r, ?ah1, ?ah2, ?ah3, ?ah4, ?ah5, ?ah6, ?ah7, ?ah8, ?ah9, ?ah10, ?ah11, ?ah12, ?ah13, ?ah14, ?ah15⟩
    case ah3 => rfl
    all_goals first | decide +kernel | rfl
  · refine ⟨on (training (run1 laid { blk with st := .complete })), 7, 1, 0, 0, training (run1 laid { blk with st := .complete }), run1
      laid { blk with st := .complete }, laid, rul, { blk with st := .complete }, ?bw_m, ?bh1, ?bh2, ?bh3, ?bh4, ?bh5, ?bh6⟩
    case bh1 => exact ⟨rfl, rfl, rfl, rfl, rfl⟩
    case bh4 => rfl
    all_goals first | decide +kernel | rfl
  · refine ⟨on (training { run1 laid { blk with step := 1, st := .complete } with mults := [(0, 0x3F800000)] }), 7, 1, 0, 0, training
      { run1 laid { blk with step := 1, st := .complete } with mults := [(0, 0x3F800000)] },
      { run1 laid { blk with step := 1, st := .complete } with mults := [(0, 0x3F800000)] }, laid, rul,
      { blk with step := 1, st := .complete }, ?cw_m, ?ch1, ?ch2, ?ch3, ?ch4, ?ch5, ?ch6, ?ch7, ?ch8⟩
    case ch1 => exact ⟨rfl, rfl, rfl, rfl, rfl⟩
    case ch4 => rfl
    all_goals first | decide +kernel | rfl
  · refine ⟨on (training { run1 laid blk with aborts := [(0, 0, 0)] }), 7, 1, 0, 0, training { run1 laid blk with aborts := [(0, 0, 0)] },
      { run1 laid blk with aborts := [(0, 0, 0)] }, laid, rul, blk, ?dh1, ?dh2, ?dh3⟩
    case dh1 => exact ⟨rfl, rfl, rfl, rfl, rfl⟩
    all_goals first | decide +kernel | rfl

theorem witness_CompletesRunSteps :
    (∃ (s : State) (tag : Nat) (run : Nat) (layer : Nat) (block : Nat) (p : Pitch) (r : Run) (l : Layer) (u : Rule) (c : CBlock) (g :
      Gradient), OnBlock s tag run layer block p r l u c ∧ c.grad? c.step = some g ∧ r.held = true ∧ c.st = .complete ∧ r.aborts.contains
      (layer, block, c.step) = false ∧ r.mult? c.step = none ∧ ((r.owned (l.owner block)).all (fun x => x.st != .held || x.step = c.step)
      = true)) ∧
    (∃ (s : State) (tag : Nat) (run : Nat) (ldie : Nat) (r : Run), s.run? tag run = some r) ∧
    (∃ (s : State) (tag : Nat) (run : Nat) (ldie : Nat) (r : Run) (n : NormPart), s.run? tag run = some r ∧ ((sortBy (fun a b => a.step ≤
      b.step) (r.norms.filter fun n => n.ldie = ldie && !n.sent)).head? = some n) ∧ ((r.owned ldie).all (fun c => c.ended n.step) = true)) ∧
    (∃ (s : State) (t : State) (tag : Nat) (run : Nat) (r : Run), s.run? tag run = some r ∧ (r.blocks.all (fun c => c.ended r.step) =
      true) ∧ (r.norms.any (fun n => n.step = r.step && !n.sent) = false) ∧ (t = (s.tryWrite tag (r.normAddr + 128 * (r.step % 16))
      (normRecord r.step (r.normOf r.step) (r.missed.filter fun m => m.1 = r.step).length)).bumpCounter tag r.normSig)) := by
  refine ⟨?_, ?_, ?_, ?_⟩
  · refine ⟨on (training { run1 laid { blk with st := .complete, grads := [⟨0, [], []⟩] } with held := true }), 7, 1, 0, 0, training
      { run1 laid { blk with st := .complete, grads := [⟨0, [], []⟩] } with held := true },
      { run1 laid { blk with st := .complete, grads := [⟨0, [], []⟩] } with held := true }, laid, rul,
      { blk with st := .complete, grads := [⟨0, [], []⟩] }, ⟨0, [], []⟩, ?ah1, ?ah2, ?ah3, ?ah4, ?ah5, ?ah6, ?ah7⟩
    case ah1 => exact ⟨rfl, rfl, rfl, rfl, rfl⟩
    all_goals first | decide +kernel | rfl
  · refine ⟨on (training (run1 laid blk)), 7, 1, 0, run1 laid blk, ?bh1⟩
    all_goals first | decide +kernel | rfl
  · refine ⟨on (training { run1 laid { blk with step := 1 } with norms := [⟨0, 0, 0, false, false, false⟩] }), 7, 1, 0,
      { run1 laid { blk with step := 1 } with norms := [⟨0, 0, 0, false, false, false⟩] }, ?cw_n, ?ch1, ?ch2, ?ch3⟩
    case ch2 => rfl
    all_goals first | decide +kernel | rfl
  · refine ⟨on (training (run1 laid { blk with step := 1 })), ?dw_t, 7, 1, run1 laid { blk with step := 1 }, ?dh1, ?dh2, ?dh3, ?dh4⟩
    case dh4 => rfl
    all_goals first | decide +kernel | rfl

theorem witness_CompletesEmission :
    (∃ (s : State) (tag : Nat) (run : Nat) (layer : Nat) (block : Nat) (h : Nat) (k : Nat) (p : Pitch) (r : Run) (l : Layer) (u : Rule) (c
      : CBlock), OnBlock s tag run layer block p r l u c ∧ (refreshOrder s p (l.owner block)).head? = some (run, layer, block) ∧ h =
      l.stateAddr u block ∧ k = 4 + 2 * (1 - (kronHeader s p h).2)) ∧
    (∃ (s : State) (tag : Nat) (run : Nat) (layer : Nat) (block : Nat) (p : Pitch) (r : Run) (l : Layer) (u : Rule) (c : CBlock) (x :
      Plan) (go : Nat → EmitStrip → Bool), OnBlock s tag run layer block p r l u c ∧ (p.plans.find? (fun x => x.run = run &&
      x.layerMap.any fun e => e.1 = layer) = some x) ∧ (go = (fun t e => accepts p x layer t e.piece)) ∧ c.sendable go ≠ []) ∧
    (∃ (s : State) (v : State) (tag : Nat) (run : Nat) (ldie : Nat) (layer : Nat) (slot : Nat) (t : Nat) (p : Pitch) (r : Run) (c : Ckpt)
      (l : Layer) (u : Rule), v = s.layerDue tag run layer ∧ v.pitch? tag = some p ∧ p.run? run = some r ∧ r.ckpt = some c ∧ r.layer?
      layer = some l ∧ l.rule = some u ∧ c.writing = some (slot, t) ∧ r.layerAt layer t = true ∧ (r.owners p).contains ldie = true ∧
      c.written.contains (ldie, layer) = false) ∧
    (∃ (s : State) (tag : Nat) (run : Nat) (slot : Nat) (t : Nat) (p : Pitch) (r : Run) (c : Ckpt), s.pitch? tag = some p ∧ p.run? run =
      some r ∧ r.ckpt = some c ∧ c.writing = some (slot, t) ∧ (∀ d ∈ r.owners p, ∀ l ∈ r.layers, c.written.contains (d, l.tag) = true)) ∧
    (∃ (s : State) (tag : Nat) (run : Nat) (slot : Nat) (t : Nat) (d : Nat) (p : Pitch) (r : Run) (c : Ckpt) (l : Layer), s.pitch? tag =
      some p ∧ p.run? run = some r ∧ r.ckpt = some c ∧ c.writing = some (slot, t) ∧ d ∈ r.owners p ∧ l ∈ r.layers ∧ r.layerAt l.tag t =
      true ∧ c.written.contains (d, l.tag) = false ∧ due (lookupD c.progress d 0) (c.timeoutMs * 25000) s.now = true) := by
  refine ⟨?_, ?_, ?_, ?_, ?_⟩
  · refine ⟨stored (on (training (run1 { lay with rule := some { rul with rule := 2 } } blk))) 65536 [1], 7, 1, 0, 0, ?aw_h, ?aw_k, training
      (run1 { lay with rule := some { rul with rule := 2 } } blk), run1 { lay with rule := some { rul with rule := 2 } } blk,
      { lay with rule := some { rul with rule := 2 } }, { rul with rule := 2 }, blk, ?ah1, ?ah2, ?ah3, ?ah4⟩
    case ah1 => exact ⟨rfl, rfl, rfl, rfl, rfl⟩
    case ah3 => rfl
    case ah4 => rfl
    all_goals first | decide +kernel | rfl
  · refine ⟨on { training (run1 laid emb) with plans := [pln] }, 7, 1, 0, 0, { training (run1 laid emb) with plans := [pln] }, run1 laid
      emb, laid, rul, emb, pln, ?bw_go, ?bh1, ?bh2, ?bh3, ?bh4⟩
    case bh1 => exact ⟨rfl, rfl, rfl, rfl, rfl⟩
    case bh3 => rfl
    all_goals first | decide +kernel | rfl
  · refine ⟨on (training (sending { ckp with writing := some (0, 0) })), ?cw_v, 7, 1, 0, 0, 0, 0, training (sending
      { ckp with writing := some (0, 0) }), sending { ckp with writing := some (0, 0) }, { ckp with writing := some (0, 0) }, laid, rul,
      ?ch1, ?ch2, ?ch3, ?ch4, ?ch5, ?ch6, ?ch7, ?ch8, ?ch9, ?ch10⟩
    case ch1 => rfl
    all_goals first | decide +kernel | rfl
  · refine ⟨on (training (sending { ckp with writing := some (0, 0), written := [(0, 0)] })), 7, 1, 0, 0, training (sending
      { ckp with writing := some (0, 0), written := [(0, 0)] }), sending { ckp with writing := some (0, 0), written := [(0, 0)] },
      { ckp with writing := some (0, 0), written := [(0, 0)] }, ?dh1, ?dh2, ?dh3, ?dh4, ?dh5⟩
    all_goals first | decide +kernel | rfl
  · refine ⟨on (training (sending { ckp with writing := some (0, 0), progress := [(0, 0)] })), 7, 1, 0, 0, 0, training (sending
      { ckp with writing := some (0, 0), progress := [(0, 0)] }), sending { ckp with writing := some (0, 0), progress := [(0, 0)] },
      { ckp with writing := some (0, 0), progress := [(0, 0)] }, laid, ?eh1, ?eh2, ?eh3, ?eh4, ?eh5, ?eh6, ?eh7, ?eh8, ?eh9⟩
    all_goals first | decide +kernel | rfl

theorem witness_CompletesPlans :
    (∃ (s : State) (seq : Nat) (q : Request) (p : Pitch) (x : Plan), RunsFor s seq 0x0501 q p ∧ bit (u32 q.body 8) 0 = true ∧ u32 q.body 8
      < 8 ∧ zeroRange q.body 120 8 = true ∧ restZero q.body 128 = true ∧ p.plan? (u32 q.body 0) = some x ∧ x.state ≠ 1 ∧ x.state ≠ 2) ∧
    (∃ (s : State) (seq : Nat) (q : Request) (p : Pitch) (r : Run) (m : Model) (x : Plan), RunsFor s seq 0x0501 q p ∧ bit (u32 q.body 8) 0
      = false ∧ p.run? (u32 q.body 0) = some r ∧ p.model? (u32 q.body 4) = some m ∧ checkPlan s p r m q.body = .ok x) ∧
    (∃ (s : State) (seq : Nat) (q : Request) (p : Pitch), RunsFor s seq 0x0503 q p ∧ restZero q.body 4 = true) ∧
    (∃ (s : State) (seq : Nat) (q : Request) (p : Pitch) (x : Plan), RunsFor s seq 0x0502 q p ∧ u8 q.body 4 = 0 ∧ p.plan? (u32 q.body 0) =
      some x ∧ turnStartOk q.body = true ∧ x.state ≠ 1 ∧ x.state ≠ 2 ∧ u16 q.body 6 < x.phases.length) ∧
    (∃ (s : State) (seq : Nat) (q : Request) (p : Pitch) (x : Plan), RunsFor s seq 0x0502 q p ∧ u8 q.body 4 = 1 ∧ p.plan? (u32 q.body 0) =
      some x ∧ turnStartOk q.body = true ∧ x.state = 1) ∧
    (∃ (s : State) (seq : Nat) (q : Request) (p : Pitch) (x : Plan) (f : RunPhase), RunsFor s seq 0x0502 q p ∧ u8 q.body 4 = 2 ∧ p.plan?
      (u32 q.body 0) = some x ∧ turnStartOk q.body = true ∧ x.runningKind 3 = some f) := by
  refine ⟨?_, ?_, ?_, ?_, ?_, ?_⟩
  · refine ⟨onReq (turning (run1 lay blk) plan) 0x0501 (fld 12 [(0, 4, 1), (8, 4, 1)]), 0, rq 0x0501 (fld 12 [(0, 4, 1), (8, 4, 1)]),
      turning (run1 lay blk) plan, plan, ?ah1, ?ah2, ?ah3, ?ah4, ?ah5, ?ah6, ?ah7, ?ah8⟩
    case ah1 => exact ⟨rfl, rfl, by decide⟩
    all_goals first | decide +kernel | rfl
  · refine ⟨stored (onReq { training (run1 lay blk) with models := [mdl ses] } 0x0501 (fld 128 [(0, 4, 1), (4, 4, 1), (12, 4, 1000), (16,
      8, 64), (24, 2, 1), (26, 2, 0xFFFF), (28, 2, 0xFFFF), (30, 2, 1), (48, 8, 65536), (56, 4, 64), (60, 4, 1), (64, 8, 131072), (72, 8,
      1024)])) 64 (fld 16 [(4, 4, 1)]), 0, rq 0x0501 (fld 128 [(0, 4, 1), (4, 4, 1), (12, 4, 1000), (16, 8, 64), (24, 2, 1), (26, 2,
      0xFFFF), (28, 2, 0xFFFF), (30, 2, 1), (48, 8, 65536), (56, 4, 64), (60, 4, 1), (64, 8, 131072), (72, 8, 1024)]),
      { training (run1 lay blk) with models := [mdl ses] }, run1 lay blk, mdl ses, ?bw_x, ?bh1, ?bh2, ?bh3, ?bh4, ?bh5⟩
    case bh1 => exact ⟨rfl, rfl, by decide⟩
    case bh5 => (refine ok1 ?_; decide +kernel)
    all_goals first | decide +kernel | rfl
  · refine ⟨onReq (turning (run1 lay blk) plan) 0x0503 (fld 4 [(0, 4, 1)]), 0, rq 0x0503 (fld 4 [(0, 4, 1)]), turning (run1 lay blk) plan,
      ?ch1, ?ch2⟩
    case ch1 => exact ⟨rfl, rfl, by decide⟩
    all_goals first | decide +kernel | rfl
  · refine ⟨onReq (turning (run1 lay blk) plan) 0x0502 (fld 8 [(0, 4, 1)]), 0, rq 0x0502 (fld 8 [(0, 4, 1)]), turning (run1 lay blk) plan,
      plan, ?dh1, ?dh2, ?dh3, ?dh4, ?dh5, ?dh6, ?dh7⟩
    case dh1 => exact ⟨rfl, rfl, by decide⟩
    all_goals first | decide +kernel | rfl
  · refine ⟨onReq (turning (run1 lay blk) { plan with state := 1 }) 0x0502 (fld 8 [(0, 4, 1), (4, 1, 1)]), 0, rq 0x0502 (fld 8 [(0, 4, 1),
      (4, 1, 1)]), turning (run1 lay blk) { plan with state := 1 }, { plan with state := 1 }, ?eh1, ?eh2, ?eh3, ?eh4, ?eh5⟩
    case eh1 => exact ⟨rfl, rfl, by decide⟩
    all_goals first | decide +kernel | rfl
  · refine ⟨onReq (turning (run1 lay blk) { plan with phases := [⟨3, false, false, 0⟩], running := [⟨0, 0, 0⟩] }) 0x0502 (fld 8 [(0, 4,
      1), (4, 1, 2)]), 0, rq 0x0502 (fld 8 [(0, 4, 1), (4, 1, 2)]), turning (run1 lay blk)
      { plan with phases := [⟨3, false, false, 0⟩], running := [⟨0, 0, 0⟩] },
      { plan with phases := [⟨3, false, false, 0⟩], running := [⟨0, 0, 0⟩] }, ⟨0, 0, 0⟩, ?fh1, ?fh2, ?fh3, ?fh4, ?fh5⟩
    case fh1 => exact ⟨rfl, rfl, by decide⟩
    all_goals first | decide +kernel | rfl

theorem witness_CompletesRollouts :
    (∃ (s : State) (seq : Nat) (q : Request) (p : Pitch) (x : Plan) (r : Rollout) (v : W32), RunsFor s seq 0x0504 q p ∧ p.plan? (u32
      q.body 0) = some x ∧ zeroRange q.body 4 4 = true ∧ restZero q.body 20 = true ∧ v = BitVec.ofNat 32 (u32 q.body 16) ∧ f32Finite v =
      true ∧ x.rewardProg = false ∧ (x.rollouts.find? (fun r => r.reqTag = u64 q.body 8) = some r) ∧ r.rewarded = false) ∧
    (∃ (s : State) (tag : Nat) (run : Nat) (p : Pitch) (x : Plan) (y : RewardRun) (ws : List Work), s.pitch? tag = some p ∧ p.plan? run =
      some x ∧ x.rewardProg = true ∧ (x.state = 1 ∨ (x.state = 2 ∧ x.stopStatus = 0)) ∧ x.rewardEnded p = none ∧ x.nextReward = some y ∧
      p.st = .active ∧ s.orchestrates x.core = true ∧ ws = programWork s p x.rewardItems (x.programSource y.first 0 false)) ∧
    (∃ (x : Plan) (first : Nat), ((x.rewardRuns.find? fun r => r.seqs.isNone) = none) ∧ ((x.rollouts.map (·.admitSeq)).filter (· %
      x.perStep = 0)).find? x.rewardable = some first) ∧
    (∃ (s : State) (tag : Nat) (run : Nat) (p : Pitch) (x : Plan) (y : RewardRun) (seqs : List Nat), s.pitch? tag = some p ∧ p.plan? run =
      some x ∧ x.rewardProg = true ∧ (x.state = 1 ∨ (x.state = 2 ∧ x.stopStatus = 0)) ∧ x.rewardEnded p = some (y, seqs)) ∧
    (∃ (s : State) (tag : Nat) (run : Nat) (p : Pitch) (x : Plan) (r : Run) (f : RunPhase) (ws : List Work), s.pitch? tag = some p ∧
      p.plan? run = some x ∧ p.run? run = some r ∧ x.runningKind 1 = some f ∧ p.st = .active ∧ s.orchestrates x.core = true ∧ f.mark <
      (x.phases[f.index]?).elim 0 (·.count) ∧ x.learning = none ∧ (x.rollouts.take x.perStep).length = x.perStep ∧ (x.rollouts.take
      x.perStep).all (·.rewarded) = true ∧ x.runningKind 3 = none ∧ ws = programWork s p x.learnItems (x.programSource (((x.rollouts.take
      x.perStep).head?).elim 0 (·.admitSeq)) r.step true)) ∧
    (∃ (s : State) (tag : Nat) (run : Nat) (admitSeq : Nat) (p : Pitch) (x : Plan) (r : Rollout), s.pitch? tag = some p ∧ p.plan? run =
      some x ∧ (x.rollouts.find? (fun r => r.admitSeq = admitSeq) = some r) ∧ r.closing = true ∧ r.ended = false) := by
  refine ⟨?_, ?_, ?_, ?_, ?_, ?_⟩
  · refine ⟨onReq (turning (run1 lay blk) { plan with rollouts := [rol] }) 0x0504 (fld 20 [(0, 4, 1)]), 0, rq 0x0504 (fld 20 [(0, 4, 1)]),
      turning (run1 lay blk) { plan with rollouts := [rol] }, { plan with rollouts := [rol] }, rol, ?aw_v, ?ah1, ?ah2, ?ah3, ?ah4, ?ah5, ?ah6,
      ?ah7, ?ah8, ?ah9⟩
    case ah1 => exact ⟨rfl, rfl, by decide⟩
    case ah5 => rfl
    all_goals first | decide +kernel | rfl
  · refine ⟨on (turning (run1 lay blk) { plan with state := 1, rewardProg := true, rollouts := [rol] }), 7, 1, turning (run1 lay blk)
      { plan with state := 1, rewardProg := true, rollouts := [rol] }, { plan with state := 1, rewardProg := true, rollouts := [rol] },
      ⟨0, none, none⟩, ?bw_ws, ?bh1, ?bh2, ?bh3, ?bh4, ?bh5, ?bh6, ?bh7, ?bh8, ?bh9⟩
    case bh9 => rfl
    all_goals first | decide +kernel | rfl
  · refine ⟨{ plan with rollouts := [rol] }, 0, ?ch1, ?ch2⟩
    all_goals first | decide +kernel | rfl
  · refine ⟨on (turning (run1 lay blk)
      { plan with state := 1, rewardProg := true, rollouts := [rol], rewardRuns := [⟨0, some [], none⟩] }), 7, 1, turning (run1 lay blk)
      { plan with state := 1, rewardProg := true, rollouts := [rol], rewardRuns := [⟨0, some [], none⟩] },
      { plan with state := 1, rewardProg := true, rollouts := [rol], rewardRuns := [⟨0, some [], none⟩] }, ⟨0, some [], none⟩, [], ?dh1,
      ?dh2, ?dh3, ?dh4, ?dh5⟩
    all_goals first | decide +kernel | rfl
  · refine ⟨on (turning (run1 lay blk) { plan with running := [⟨0, 0, 0⟩], rollouts := [{ rol with rewarded := true }] }), 7, 1, turning
      (run1 lay blk) { plan with running := [⟨0, 0, 0⟩], rollouts := [{ rol with rewarded := true }] },
      { plan with running := [⟨0, 0, 0⟩], rollouts := [{ rol with rewarded := true }] }, run1 lay blk, ⟨0, 0, 0⟩, ?ew_ws, ?eh1, ?eh2, ?eh3,
      ?eh4, ?eh5, ?eh6, ?eh7, ?eh8, ?eh9, ?eh10, ?eh11, ?eh12⟩
    case eh12 => rfl
    all_goals first | decide +kernel | rfl
  · refine ⟨on (turning (run1 lay blk) { plan with rollouts := [{ rol with ended := false, closing := true }] }), 7, 1, 0, turning (run1
      lay blk) { plan with rollouts := [{ rol with ended := false, closing := true }] },
      { plan with rollouts := [{ rol with ended := false, closing := true }] }, { rol with ended := false, closing := true }, ?fh1, ?fh2,
      ?fh3, ?fh4, ?fh5⟩
    all_goals first | decide +kernel | rfl

theorem witness_CompletesTurnoverStart :
    (∃ (s : State) (tag : Nat) (run : Nat) (i : Nat) (p : Pitch) (x : Plan) (r : Run) (e : PlanPhase), s.pitch? tag = some p ∧ p.plan? run
      = some x ∧ p.run? run = some r ∧ x.nextPhase = some i ∧ x.phases[i]? = some e ∧ x.state = 1 ∧ p.st = .active ∧ s.orchestrates x.core
      = true ∧ x.mayStart p r i e = true ∧ (e.kind = 0 ∨ e.kind = 3)) ∧
    (∃ (s : State) (tag : Nat) (run : Nat) (i : Nat) (p : Pitch) (x : Plan) (r : Run) (e : PlanPhase), s.pitch? tag = some p ∧ p.plan? run
      = some x ∧ p.run? run = some r ∧ x.nextPhase = some i ∧ x.phases[i]? = some e ∧ x.state = 1 ∧ p.st = .active ∧ s.orchestrates x.core
      = true ∧ x.mayStart p r i e = true ∧ e.kind = 1 ∧ (∀ f, x.phases[i + 1]? = some f → f.kind ≠ 2)) ∧
    (∃ (s : State) (tag : Nat) (run : Nat) (i : Nat) (p : Pitch) (x : Plan) (r : Run) (e : PlanPhase) (f : PlanPhase), s.pitch? tag = some
      p ∧ p.plan? run = some x ∧ p.run? run = some r ∧ x.nextPhase = some i ∧ x.phases[i]? = some e ∧ x.state = 1 ∧ p.st = .active ∧
      s.orchestrates x.core = true ∧ x.mayStart p r i e = true ∧ e.kind = 1 ∧ x.phases[i + 1]? = some f ∧ f.kind = 2 ∧ x.source = none) ∧
    (∃ (s : State) (tag : Nat) (run : Nat) (i : Nat) (p : Pitch) (x : Plan) (r : Run) (e : PlanPhase), s.pitch? tag = some p ∧ p.plan? run
      = some x ∧ p.run? run = some r ∧ x.nextPhase = some i ∧ x.phases[i]? = some e ∧ x.state = 1 ∧ p.st = .active ∧ s.orchestrates x.core
      = true ∧ x.mayStart p r i e = true ∧ e.kind = 2) ∧
    (∃ (s : State) (tag : Nat) (run : Nat) (t : Nat) (p : Pitch) (x : Plan) (r : Run) (m : Model) (f : RunPhase), OnTurnover s tag run p x
      r m ∧ x.source = some t ∧ x.runningKind 2 = some f ∧ x.stage = 0 ∧ (x.phases[f.index]?).elim false (·.landed) = false ∧ r.reached t
      = true ∧ x.runningKind 3 = none ∧ m.epoch ≠ 0xFFFFFFFF) ∧
    (∃ (s : State) (tag : Nat) (run : Nat) (p : Pitch) (x : Plan) (r : Run) (m : Model), OnTurnover s tag run p x r m ∧ x.stage = 1) ∧
    (∃ (s : State) (tag : Nat) (run : Nat) (p : Pitch) (x : Plan) (r : Run) (m : Model), OnTurnover s tag run p x r m ∧ x.stage = 2 ∧
      (x.drainingCount p = 0 ∨ due x.openedAt (x.drainMs * 25000) s.now = true)) := by
  refine ⟨?_, ?_, ?_, ?_, ?_, ?_, ?_⟩
  · refine ⟨on (turning (run1 lay blk) { plan with state := 1, nextPhase := some 0, phases := [⟨0, false, false, 1⟩] }), 7, 1, 0, turning
      (run1 lay blk) { plan with state := 1, nextPhase := some 0, phases := [⟨0, false, false, 1⟩] },
      { plan with state := 1, nextPhase := some 0, phases := [⟨0, false, false, 1⟩] }, run1 lay blk, ⟨0, false, false, 1⟩, ?ah1, ?ah2, ?ah3,
      ?ah4, ?ah5, ?ah6, ?ah7, ?ah8, ?ah9, ?ah10⟩
    all_goals first | decide +kernel | rfl
  · refine ⟨on (turning (run1 lay blk) { plan with state := 1, nextPhase := some 0 }), 7, 1, 0, turning (run1 lay blk)
      { plan with state := 1, nextPhase := some 0 }, { plan with state := 1, nextPhase := some 0 }, run1 lay blk, ⟨1, false, false, 1⟩,
      ?bh1, ?bh2, ?bh3, ?bh4, ?bh5, ?bh6, ?bh7, ?bh8, ?bh9, ?bh10, ?bh11⟩
    case bh11 => (intro f h; exact absurd h (by simp [plan]))
    all_goals first | decide +kernel | rfl
  · refine ⟨on (turning (run1 lay blk)
      { plan with state := 1, nextPhase := some 0, phases := [⟨1, false, false, 1⟩, ⟨2, false, false, 0⟩] }), 7, 1, 0, turning (run1 lay
      blk) { plan with state := 1, nextPhase := some 0, phases := [⟨1, false, false, 1⟩, ⟨2, false, false, 0⟩] },
      { plan with state := 1, nextPhase := some 0, phases := [⟨1, false, false, 1⟩, ⟨2, false, false, 0⟩] }, run1 lay blk, ⟨1, false,
      false, 1⟩, ⟨2, false, false, 0⟩, ?ch1, ?ch2, ?ch3, ?ch4, ?ch5, ?ch6, ?ch7, ?ch8, ?ch9, ?ch10, ?ch11, ?ch12, ?ch13⟩
    all_goals first | decide +kernel | rfl
  · refine ⟨on (turning (run1 lay blk) { plan with state := 1, nextPhase := some 0, phases := [⟨2, false, false, 0⟩] }), 7, 1, 0, turning
      (run1 lay blk) { plan with state := 1, nextPhase := some 0, phases := [⟨2, false, false, 0⟩] },
      { plan with state := 1, nextPhase := some 0, phases := [⟨2, false, false, 0⟩] }, run1 lay blk, ⟨2, false, false, 0⟩, ?dh1, ?dh2, ?dh3,
      ?dh4, ?dh5, ?dh6, ?dh7, ?dh8, ?dh9, ?dh10⟩
    all_goals first | decide +kernel | rfl
  · refine ⟨on (turning (run1 lay { blk with grads := [⟨0, [], []⟩] })
      { plan with phases := [⟨2, false, false, 0⟩], running := [⟨0, 0, 0⟩], source := some 0 }), 7, 1, 0, turning (run1 lay
      { blk with grads := [⟨0, [], []⟩] }) { plan with phases := [⟨2, false, false, 0⟩], running := [⟨0, 0, 0⟩], source := some 0 },
      { plan with phases := [⟨2, false, false, 0⟩], running := [⟨0, 0, 0⟩], source := some 0 }, run1 lay
      { blk with grads := [⟨0, [], []⟩] }, mdl ses, ⟨0, 0, 0⟩, ?eh1, ?eh2, ?eh3, ?eh4, ?eh5, ?eh6, ?eh7, ?eh8⟩
    case eh1 => exact ⟨rfl, rfl, rfl, rfl, rfl, rfl⟩
    all_goals first | decide +kernel | rfl
  · refine ⟨on (turning (run1 lay blk) { plan with stage := 1 }), 7, 1, turning (run1 lay blk) { plan with stage := 1 },
      { plan with stage := 1 }, run1 lay blk, mdl ses, ?fh1, ?fh2⟩
    case fh1 => exact ⟨rfl, rfl, rfl, rfl, rfl, rfl⟩
    all_goals first | decide +kernel | rfl
  · refine ⟨on (turning (run1 lay blk) { plan with stage := 2 }), 7, 1, turning (run1 lay blk) { plan with stage := 2 },
      { plan with stage := 2 }, run1 lay blk, mdl ses, ?gh1, ?gh2, ?gh3⟩
    case gh1 => exact ⟨rfl, rfl, rfl, rfl, rfl, rfl⟩
    all_goals first | decide +kernel | rfl

theorem witness_CompletesSwap :
    (∃ (s : State) (t : State) (tag : Nat) (run : Nat) (p : Pitch) (x : Plan) (r : Run) (m : Model), OnTurnover s tag run p x r m ∧
      x.stage = 2 ∧ x.drained = true ∧ t = (m.sessions.map (·.id)).foldl (swapSession tag m.id m.epoch x.kvRecompute) s) ∧
    (∃ (s : State) (tag : Nat) (run : Nat) (layer : Nat) (p : Pitch) (x : Plan) (r : Run) (m : Model), OnTurnover s tag run p x r m ∧
      x.stage = 3 ∧ x.gates.getD layer true = false ∧ (x.windows.any (fun w => w.1 = layer) = false) ∧ (∀ t ∈ m.steps, t.epoch = m.epoch ∨
      passedLayer p x t layer = true)) ∧
    (∃ (s : State) (tag : Nat) (run : Nat) (layer : Nat) (p : Pitch) (x : Plan) (r : Run) (m : Model), OnTurnover s tag run p x r m ∧
      x.stage = 3 ∧ (x.windows.any (fun w => w.1 = layer) = true) ∧ landed x r (· = layer) = true) ∧
    (∃ (s : State) (tag : Nat) (run : Nat) (p : Pitch) (x : Plan) (r : Run) (m : Model), OnTurnover s tag run p x r m ∧ x.stage = 4 ∧
      m.swapClosed = true ∧ (landed x r (fun _ => true) = true)) ∧
    (∃ (s : State) (tag : Nat) (run : Nat) (layer : Nat) (p : Pitch) (x : Plan) (r : Run) (m : Model), OnTurnover s tag run p x r m ∧
      (x.windows.any (fun w => w.1 = layer && due w.2 25000000 s.now) = true) ∧ x.stalled.contains layer = false) := by
  refine ⟨?_, ?_, ?_, ?_, ?_⟩
  · refine ⟨on (turning (run1 lay blk) { plan with stage := 2, drained := true }), ?aw_t, 7, 1, turning (run1 lay blk)
      { plan with stage := 2, drained := true }, { plan with stage := 2, drained := true }, run1 lay blk, mdl ses, ?ah1, ?ah2, ?ah3, ?ah4⟩
    case ah1 => exact ⟨rfl, rfl, rfl, rfl, rfl, rfl⟩
    case ah4 => rfl
    all_goals first | decide +kernel | rfl
  · refine ⟨on (turning (run1 lay blk) { plan with stage := 3, gates := [false] }), 7, 1, 0, turning (run1 lay blk)
      { plan with stage := 3, gates := [false] }, { plan with stage := 3, gates := [false] }, run1 lay blk, mdl ses, ?bh1, ?bh2, ?bh3, ?bh4,
      ?bh5⟩
    case bh1 => exact ⟨rfl, rfl, rfl, rfl, rfl, rfl⟩
    all_goals first | decide +kernel | rfl
  · refine ⟨on (turning (run1 lay { blk with step := 1 })
      { plan with stage := 3, source := some 0, layerMap := [(0, 0)], windows := [(0, 0)] }), 7, 1, 0, turning (run1 lay
      { blk with step := 1 }) { plan with stage := 3, source := some 0, layerMap := [(0, 0)], windows := [(0, 0)] },
      { plan with stage := 3, source := some 0, layerMap := [(0, 0)], windows := [(0, 0)] }, run1 lay { blk with step := 1 }, mdl ses,
      ?ch1, ?ch2, ?ch3, ?ch4⟩
    case ch1 => exact ⟨rfl, rfl, rfl, rfl, rfl, rfl⟩
    all_goals first | decide +kernel | rfl
  · refine ⟨on swapped, 7, 1, swapped, { plan with stage := 4, source := some 0, layerMap := [(0, 0)] }, run1 lay { blk with step := 1 },
      mdl ses, ?dh1, ?dh2, ?dh3, ?dh4⟩
    case dh1 => exact ⟨rfl, rfl, rfl, rfl, rfl, rfl⟩
    all_goals first | decide +kernel | rfl
  · refine ⟨on (turning (run1 lay blk) { plan with windows := [(0, 0)] }), 7, 1, 0, turning (run1 lay blk)
      { plan with windows := [(0, 0)] }, { plan with windows := [(0, 0)] }, run1 lay blk, mdl ses, ?eh1, ?eh2, ?eh3⟩
    case eh1 => exact ⟨rfl, rfl, rfl, rfl, rfl, rfl⟩
    all_goals first | decide +kernel | rfl

theorem witness_CompletesRequests :
    (∃ (s : State) (f : Frame), f.typ = 4 ∧ (parseMsg f).kind = 1) ∧
    (∃ (s : State) (f : Frame), f.typ = 4 ∧ (parseMsg f).kind = 3) ∧
    (∃ (s : State) (mailbox : Nat) (a : Assembly), (s.box mailbox).assembly = some a ∧ due a.lastAt 2500000 s.now = true) ∧
    (∃ (s : State) (mailbox : Nat) (x : Submission) (rest : List Nat), (s.box mailbox).submitted = some x ∧ s.ring.order = mailbox :: rest
      ∧ s.ring.holding = false) ∧
    (∃ (s : State) (mailbox : Nat), (s.ring.holding = true ∨ (∃ m rest, s.ring.order = m :: rest ∧ m ≠ mailbox))) ∧
    (∃ (s : State) (seq : Nat) (r : Request), (s.ring.journal.find? (fun r => r.seq = seq) = some r) ∧ (∀ x ∈ s.ring.journal, x.mailbox =
      r.mailbox → seq ≤ x.seq)) := by
  refine ⟨?_, ?_, ?_, ?_, ?_, ?_⟩
  · refine ⟨base, { typ := 4, payload := fld 16 [(8, 1, 1), (10, 1, 1)] }, ?ah1, ?ah2⟩
    all_goals first | decide +kernel | rfl
  · refine ⟨base, { typ := 4, payload := fld 16 [(8, 1, 3), (10, 1, 1)] }, ?bh1, ?bh2⟩
    all_goals first | decide +kernel | rfl
  · refine ⟨base.setBoxes [{ assembly := some ⟨5, 2, [], 0, sub⟩ }], 0, ⟨5, 2, [], 0, sub⟩, ?ch1, ?ch2⟩
    all_goals first | decide +kernel | rfl
  · refine ⟨(base.setBoxes [{ submitted := some sub }]).setRing { order := [0] }, 0, sub, [], ?dh1, ?dh2, ?dh3⟩
    all_goals first | decide +kernel | rfl
  · refine ⟨(base.setBoxes [{ submitted := some sub }]).setRing { holding := true }, 0, ?eh1⟩
    case eh1 => exact .inl rfl
  · refine ⟨base.setRing { journal := [{ rq 0x0301 [] with fence := true, released := false }] }, 0,
      { rq 0x0301 [] with fence := true, released := false }, ?fh1, ?fh2⟩
    all_goals first | decide +kernel | rfl

theorem witness_CompletesRingmaster :
    (∃ (s : State), s.ringRuns = true) ∧
    (∃ (s : State) (pair : Nat), s.ringRuns = true ∧ s.pairRuns pair = true ∧ due (s.ring.beats.getD pair 0) 250000 s.now = true) ∧
    (∃ (s : State) (core : Nat), core < 16) ∧
    (∃ (s : State) (t : State) (at_ : Nat) (f : Nat), s.ring.takeoverAt = some at_ ∧ due at_ 750000 s.now = true ∧ t = ((s.setRing
      { s.ring with takeoverAt := none }).releaseHeld).logNote 5 "TAKEOVER" (some 2) noDie noTag (s.setRing
      { s.ring with takeoverAt := none }).releaseHeld.ring.primary ∧ t.ring.fenced = some f) ∧
    (∃ (s : State) (f : Nat), s.ring.takeoverAt = none ∧ s.ring.fenced = some f ∧ s.ring.testDue = true ∧ (s.die (pairDie f)).test = none
      ∧ (s.die (pairDie f)).startable = true) := by
  refine ⟨?_, ?_, ?_, ?_, ?_⟩
  · refine ⟨base.setRing { started := true, standby := true }, ?ah1⟩
    all_goals first | decide +kernel | rfl
  · refine ⟨base.setRing { started := true, standby := true }, 1, ?bh1, ?bh2, ?bh3⟩
    all_goals first | decide +kernel | rfl
  · refine ⟨base.setRing { started := true, standby := true }, 15, ?ch1⟩
    all_goals first | decide +kernel | rfl
  · refine ⟨base.setRing { started := true, takeoverAt := some 0, fenced := some 0, primary := 1 }, ?dw_t, 0, 0, ?dh1, ?dh2, ?dh3, ?dh4⟩
    case dh3 => rfl
    all_goals first | decide +kernel | rfl
  · refine ⟨warm.setRing { started := true, fenced := some 0, primary := 1, testDue := true }, 0, ?eh1, ?eh2, ?eh3, ?eh4, ?eh5⟩
    all_goals first | decide +kernel | rfl

theorem witness_CompletesFirmware :
    (∃ (s : State), s.power.phase = .up ∧ s.kpr.mod = .booting) ∧
    (∃ (s : State) (seq : Nat) (r : Request) (i : Image), s.request? seq 0x0702 = some r ∧ s.fw.handover = none ∧ u8 r.body 48 ≤ 1 ∧
      zeroRange r.body 49 3 = true ∧ restZero r.body 56 = true ∧ s.recoveryActivate = none ∧ s.fw.stage = 2 ∧ s.fw.stageImage = some i) ∧
    (∃ (s : State) (seq : Nat) (r : Request), s.request? seq 0x0702 = some r ∧ s.fw.handover = none ∧ u8 r.body 48 ≤ 1 ∧ zeroRange r.body
      49 3 = true ∧ restZero r.body 56 = true ∧ s.recoveryActivate = none ∧ s.fw.stage = 0 ∧ s.fw.running.isSome = true ∧ slice r.body 0
      48 = s.fw.measurement ∧ s.updating = false) ∧
    (∃ (s : State) (t : State) (b : Bytes) (raise : Bool), s.fw.rewrite = some (b, raise) ∧ (t = s.setFw
      { s.fw with flash := b, control := List.replicate 2 (controlCopy 0 b.length (imageFields b).measurement), flashCode := 0, rewrite := none, svnMin := if raise then max s.fw.svnMin (imageFields b).svn else s.fw.svnMin })) ∧
    (∃ (s : State) (b : Bytes) (raise : Bool), s.fw.rewrite = some (b, raise) ∧ s.recoveryActivate = none) ∧
    (∃ (s : State) (h : Handover), s.fw.handover = some h ∧ h.ready = false ∧ due h.startedAt 50000000 s.now = true) ∧
    (∃ (s : State) (h : Handover), s.fw.handover = some h ∧ h.ready = true ∧ due h.startedAt (25000 * h.timeoutMs) s.now = true) := by
  refine ⟨?_, ?_, ?_, ?_, ?_, ?_, ?_⟩
  · refine ⟨powered (base.setKpr { base.kpr with mod := .booting }), ?ah1, ?ah2⟩
    all_goals first | decide +kernel | rfl
  · refine ⟨asked (base.setFw { base.fw with stage := 2, stageImage := some ⟨384, 0, 0, 1, 1, []⟩ }) 0x0702 (fld 56 []), 0, rq 0x0702 (fld
      56 []), ⟨384, 0, 0, 1, 1, []⟩, ?bh1, ?bh2, ?bh3, ?bh4, ?bh5, ?bh6, ?bh7, ?bh8⟩
    all_goals first | decide +kernel | rfl
  · refine ⟨asked (base.setFw { base.fw with running := some ⟨384, 0, 0, 1, 1, []⟩, measurement := List.replicate 48 0 }) 0x0702 (fld 56
      []), 0, rq 0x0702 (fld 56 []), ?ch1, ?ch2, ?ch3, ?ch4, ?ch5, ?ch6, ?ch7, ?ch8, ?ch9, ?ch10⟩
    all_goals first | decide +kernel | rfl
  · refine ⟨base.setFw { base.fw with rewrite := some (img, true) }, ?dw_t, img, true, ?dh1, ?dh2⟩
    case dh2 => rfl
    all_goals first | decide +kernel | rfl
  · refine ⟨base.setFw { base.fw with rewrite := some (img, false) }, img, false, ?eh1, ?eh2⟩
    all_goals first | decide +kernel | rfl
  · refine ⟨base.setFw { base.fw with handover := some ⟨0, ⟨384, 0, 0, 1, 1, []⟩, [], 0, 1000, false, false⟩ }, ⟨0, ⟨384, 0, 0, 1, 1, []⟩,
      [], 0, 1000, false, false⟩, ?fh1, ?fh2, ?fh3⟩
    all_goals first | decide +kernel | rfl
  · refine ⟨base.setFw { base.fw with handover := some ⟨0, ⟨384, 0, 0, 1, 1, []⟩, [], 0, 1000, false, true⟩ }, ⟨0, ⟨384, 0, 0, 1, 1, []⟩,
      [], 0, 1000, false, true⟩, ?gh1, ?gh2, ?gh3⟩
    all_goals first | decide +kernel | rfl

theorem witness_CompletesFirmwareStage :
    (∃ (s : State) (seq : Nat) (r : Request), s.request? seq 0x0701 = some r ∧ u8 r.body 0 = 0 ∧ stageFieldsOk r.body true = true ∧ u64
      r.body 8 % 8 = 0 ∧ u64 r.body 8 ≠ 0 ∧ u64 r.body 8 ≤ maxImage ∧ s.updating = false) ∧
    (∃ (s : State) (seq : Nat) (r : Request), s.request? seq 0x0701 = some r ∧ u8 r.body 0 = 1 ∧ zeroRange r.body 1 7 = true ∧ zeroRange
      r.body 20 12 = true ∧ u64 r.body 8 % 8 = 0 ∧ u32 r.body 16 % 8 = 0 ∧ 8 ≤ u32 r.body 16 ∧ u32 r.body 16 ≤ 4000 ∧ s.updating = false ∧
      u64 r.body 8 + u32 r.body 16 ≤ s.fw.stageSize) ∧
    (∃ (s : State) (seq : Nat) (r : Request), s.request? seq 0x0701 = some r ∧ u8 r.body 0 = 2 ∧ stageFieldsOk r.body false = true ∧
      s.updating = false ∧ s.fw.stageSize ≠ 0 ∧ s.fw.stageSize ≤ 8 * s.fw.stageWritten.length ∧ (verifyImage s.fw s.stageBytes = none)) ∧
    (∃ (s : State) (seq : Nat) (r : Request) (i : Image), s.request? seq 0x0701 = some r ∧ u8 r.body 0 = 2 ∧ stageFieldsOk r.body false =
      true ∧ s.updating = false ∧ s.fw.stageSize ≠ 0 ∧ s.fw.stageSize ≤ 8 * s.fw.stageWritten.length ∧ (verifyImage s.fw s.stageBytes =
      some i)) ∧
    (∃ (s : State) (seq : Nat) (r : Request), s.request? seq 0x0701 = some r ∧ u8 r.body 0 = 3 ∧ stageFieldsOk r.body false = true) ∧
    (∃ (s : State) (seq : Nat) (r : Request), s.request? seq 0x0701 = some r ∧ u8 r.body 0 = 4 ∧ stageFieldsOk r.body false = true) ∧
    (∃ (s : State) (seq : Nat) (r : Request), s.request? seq 0x0704 = some r ∧ restZero r.body 0 = true) := by
  refine ⟨?_, ?_, ?_, ?_, ?_, ?_, ?_⟩
  · refine ⟨asked base 0x0701 (fld 20 [(8, 8, 130023424)]), 0, rq 0x0701 (fld 20 [(8, 8, 130023424)]), ?ah1, ?ah2, ?ah3, ?ah4, ?ah5, ?ah6, ?ah7⟩
    all_goals first | decide +kernel | rfl
  · refine ⟨asked (base.setFw { base.fw with stageSize := 4000 }) 0x0701 (fld 32 [(0, 1, 1), (16, 4, 4000)]), 0, rq 0x0701 (fld 32 [(0, 1,
      1), (16, 4, 4000)]), ?bh1, ?bh2, ?bh3, ?bh4, ?bh5, ?bh6, ?bh7, ?bh8, ?bh9, ?bh10⟩
    all_goals first | decide +kernel | rfl
  · refine ⟨asked (base.setFw { base.fw with stageSize := 8, stageWritten := [0] }) 0x0701 (fld 20 [(0, 1, 2)]), 0, rq 0x0701 (fld 20 [(0,
      1, 2)]), ?ch1, ?ch2, ?ch3, ?ch4, ?ch5, ?ch6, ?ch7⟩
    all_goals first | decide +kernel | rfl
  · refine ⟨asked (base.setFw holdingImg) 0x0701 (fld 20 [(0, 1, 2)]), 0, rq 0x0701 (fld 20 [(0, 1, 2)]), imageFields img, ?dh1, ?dh2, ?dh3,
      ?dh4, ?dh5, ?dh6, ?dh7⟩
    case dh7 => exact (congrArg (verifyImage holdingImg) img_staged).trans img_verifies
    all_goals first | decide +kernel | rfl
  · refine ⟨asked base 0x0701 (fld 20 [(0, 1, 3)]), 0, rq 0x0701 (fld 20 [(0, 1, 3)]), ?eh1, ?eh2, ?eh3⟩
    all_goals first | decide +kernel | rfl
  · refine ⟨asked base 0x0701 (fld 20 [(0, 1, 4)]), 0, rq 0x0701 (fld 20 [(0, 1, 4)]), ?fh1, ?fh2, ?fh3⟩
    all_goals first | decide +kernel | rfl
  · refine ⟨asked base 0x0704 [], 0, rq 0x0704 [], ?gh1, ?gh2⟩
    all_goals first | decide +kernel | rfl

theorem witness_CompletesPorts :
    (∃ (s : State) (port : Nat) (lanes : Nat), (s.port port).st = .detect ∧ 8 ≤ lanes) ∧
    (∃ (s : State) (t : State) (port : Nat) (h : Hello), (s.port port).st = .train ∧ (t = (s.takeBack port).updPort port (fun p =>
      p.trained h))) ∧
    (∃ (s : State) (port : Nat), (s.port port).st = .train ∧ due (s.port port).trainAt 50000000 s.now = true) ∧
    (∃ (s : State) (port : Nat) (h : Hello), ((s.port port).carrying = true ∨ (s.port port).st = .train)) ∧
    (∃ (s : State) (port : Nat), (s.port port).carrying = true) ∧
    (∃ (s : State) (port : Nat), (s.port port).carrying = true ∧ 16 ≤ (s.port port).failCount) ∧
    (∃ (s : State) (port : Nat) (lane : Nat) (p : Port), p = s.port port ∧ p.carrying = true ∧ lane ≤ 7 ∧ p.laneFailed.getLsbD lane =
      false ∧ p.st ≠ .upX4 ∧ p.spareGood = true) ∧
    (∃ (s : State) (port : Nat) (lane : Nat) (p : Port), p = s.port port ∧ p.carrying = true ∧ lane ≤ 7 ∧ p.laneFailed.getLsbD lane =
      false ∧ p.st ≠ .upX4 ∧ p.spareGood = false ∧ p.allowX4 = true ∧ p.x4Pending = false) ∧
    (∃ (s : State) (port : Nat) (lane : Nat) (p : Port), p = s.port port ∧ p.carrying = true ∧ lane ≤ 7 ∧ p.laneFailed.getLsbD lane =
      false ∧ p.st ≠ .upX4 ∧ p.spareGood = false ∧ p.allowX4 = false) ∧
    (∃ (s : State) (port : Nat), (s.port port).x4Pending = true ∧ (s.port port).carrying = true) := by
  refine ⟨?_, ?_, ?_, ?_, ?_, ?_, ?_, ?_, ?_, ?_⟩
  · refine ⟨ported { st := .detect }, 0, 8, ?ah1, ?ah2⟩
    all_goals first | decide +kernel | rfl
  · refine ⟨ported { st := .train }, ?bw_t, 0, hel, ?bh1, ?bh2⟩
    case bh2 => rfl
    all_goals first | decide +kernel | rfl
  · refine ⟨ported { st := .train }, 0, ?ch1, ?ch2⟩
    all_goals first | decide +kernel | rfl
  · refine ⟨ported { st := .train }, 0, hel, ?dh1⟩
    all_goals first | decide +kernel | rfl
  · refine ⟨ported { st := .up }, 0, ?eh1⟩
    all_goals first | decide +kernel | rfl
  · refine ⟨ported { st := .up, failCount := 16 }, 0, ?fh1, ?fh2⟩
    all_goals first | decide +kernel | rfl
  · refine ⟨ported { st := .up }, 0, 7, ?gw_p, ?gh1, ?gh2, ?gh3, ?gh4, ?gh5, ?gh6⟩
    case gh1 => rfl
    all_goals first | decide +kernel | rfl
  · refine ⟨ported { st := .up, spareGood := false, allowX4 := true }, 0, 7, ?hw_p, ?hh1, ?hh2, ?hh3, ?hh4, ?hh5, ?hh6, ?hh7, ?hh8⟩
    case hh1 => rfl
    all_goals first | decide +kernel | rfl
  · refine ⟨ported { st := .up, spareGood := false }, 0, 7, ?iw_p, ?ih1, ?ih2, ?ih3, ?ih4, ?ih5, ?ih6, ?ih7⟩
    case ih1 => rfl
    all_goals first | decide +kernel | rfl
  · refine ⟨ported { st := .up, x4Pending := true }, 0, ?jh1, ?jh2⟩
    all_goals first | decide +kernel | rfl

theorem witness_CompletesLinks :
    (∃ (s : State) (u : State) (port : Nat) (f : LinkFrame), (s.port port).traffic = true ∧ (u = s.updPort port (fun p => p.fec f)) ∧
      f.frame.crc ≠ crc32c (frameBody f.frame)) ∧
    (∃ (s : State) (u : State) (t : State) (port : Nat) (f : LinkFrame), (s.port port).traffic = true ∧ (u = s.updPort port (fun p =>
      p.fec f)) ∧ f.frame.crc = crc32c (frameBody f.frame) ∧ linkLocal f.frame.typ = false ∧ t = u.takeAck port f.frame.ack ∧ f.frame.lseq
      = (t.port port).rxLseq ∧ (t.hostFacing port && !t.bridgeRoom port) = false) ∧
    (∃ (s : State) (u : State) (t : State) (port : Nat) (f : LinkFrame), (s.port port).traffic = true ∧ (u = s.updPort port (fun p =>
      p.fec f)) ∧ f.frame.crc = crc32c (frameBody f.frame) ∧ linkLocal f.frame.typ = false ∧ t = u.takeAck port f.frame.ack ∧ f.frame.lseq
      ≠ (t.port port).rxLseq ∧ follows (t.port port).rxLseq f.frame.lseq = true) ∧
    (∃ (s : State) (u : State) (t : State) (port : Nat) (f : LinkFrame), (s.port port).traffic = true ∧ (u = s.updPort port (fun p =>
      p.fec f)) ∧ f.frame.crc = crc32c (frameBody f.frame) ∧ linkLocal f.frame.typ = false ∧ t = u.takeAck port f.frame.ack ∧ f.frame.lseq
      ≠ (t.port port).rxLseq ∧ follows (t.port port).rxLseq f.frame.lseq = false) ∧
    (∃ (s : State) (port : Nat) (n : Nat), (s.port port).traffic = true) ∧
    (∃ (s : State) (t : State) (port : Nat) (ack : Nat) (counts : List Nat), (s.port port).carrying = true ∧ t = s.takeAck port ack) ∧
    (∃ (s : State) (t : State) (port : Nat) (ack : Nat) (n : Nat), (s.port port).carrying = true ∧ t = s.takeAck port ack ∧ (t.port
      port).traffic = true) ∧
    (∃ (s : State) (t : State) (port : Nat) (ack : Nat) (lane : Nat), (s.port port).carrying = true ∧ t = s.takeAck port ack ∧ (t.port
      port).carrying = true ∧ lane < 8 ∧ (t.port port).laneFailed.getLsbD lane = false ∧ (t.port port).st ≠ .upX4 ∧ (t.port
      port).spareGood = true) ∧
    (∃ (s : State) (port : Nat), (s.port port).carrying = true ∧ (s.port port).credFreed ≠ (s.port port).credTold) ∧
    (∃ (s : State) (die : Nat) (index : Nat) (w : Waiting) (d : Nat), (s.die die).router[index]? = some w ∧ w.frame.hops ≠ 0 ∧ reservedDie
      w.frame = false ∧ s.overtakes w.frame = false ∧ s.isLocal w.frame = true ∧ s.localDie w.frame = some d) ∧
    (∃ (s : State) (die : Nat) (index : Nat) (w : Waiting) (port : Nat) (vc : Nat), (s.die die).router[index]? = some w ∧ w.frame.hops ≠ 0
      ∧ reservedDie w.frame = false ∧ s.overtakes w.frame = false ∧ s.isLocal w.frame = false ∧ s.nextHop die w = some (port, vc) ∧
      s.flowWaits w.frame port = false) ∧
    (∃ (s : State) (t : State) (die : Nat) (index : Nat) (w : Waiting), (s.die die).router[index]? = some w ∧ s.routingFault die w = true
      ∧ t = s.takeFrame die index w) ∧
    (∃ (s : State) (port : Nat), (s.port port).carrying = false ∧ s.hostFacing port = true) ∧
    (∃ (s : State) (port : Nat), (s.port port).carrying = false ∧ s.hostFacing port = false) := by
  refine ⟨?_, ?_, ?_, ?_, ?_, ?_, ?_, ?_, ?_, ?_, ?_, ?_, ?_, ?_⟩
  · refine ⟨ported { st := .up }, ?aw_u, 0, ⟨{ typ := 1, crc := 1 }, 0, 0⟩, ?ah1, ?ah2, ?ah3⟩
    case ah2 => rfl
    all_goals first | decide +kernel | rfl
  · refine ⟨ported { st := .up }, ?bw_u, ?bw_t, 0, ⟨frameSealed { typ := 1 }, 0, 0⟩, ?bh1, ?bh2, ?bh3, ?bh4, ?bh5, ?bh6, ?bh7⟩
    case bh2 => rfl
    case bh5 => rfl
    all_goals first | decide +kernel | rfl
  · refine ⟨ported { st := .up }, ?cw_u, ?cw_t, 0, ⟨frameSealed { typ := 1, lseq := 2 ^ 32 - 1 }, 0, 0⟩, ?ch1, ?ch2, ?ch3, ?ch4, ?ch5, ?ch6, ?ch7⟩
    case ch2 => rfl
    case ch5 => rfl
    all_goals first | decide +kernel | rfl
  · refine ⟨ported { st := .up }, ?dw_u, ?dw_t, 0, ⟨frameSealed { typ := 1, lseq := 1 }, 0, 0⟩, ?dh1, ?dh2, ?dh3, ?dh4, ?dh5, ?dh6, ?dh7⟩
    case dh2 => rfl
    case dh5 => rfl
    all_goals first | decide +kernel | rfl
  · refine ⟨ported { st := .up }, 0, 0, ?eh1⟩
    all_goals first | decide +kernel | rfl
  · refine ⟨ported { st := .held }, ?fw_t, 0, 0, [], ?fh1, ?fh2⟩
    case fh2 => rfl
    all_goals first | decide +kernel | rfl
  · refine ⟨ported { st := .up }, ?gw_t, 0, 0, 0, ?gh1, ?gh2, ?gh3⟩
    case gh2 => rfl
    all_goals first | decide +kernel | rfl
  · refine ⟨ported { st := .up }, ?hw_t, 0, 0, 7, ?hh1, ?hh2, ?hh3, ?hh4, ?hh5, ?hh6, ?hh7⟩
    case hh2 => rfl
    all_goals first | decide +kernel | rfl
  · refine ⟨ported { st := .up, credFreed := List.replicate 8 2049 }, 0, ?ih1, ?ih2⟩
    all_goals first | decide +kernel | rfl
  · refine ⟨base.updDie 0 fun d => { d with router := [toward 1] }, 0, 0, toward 1, 0, ?jh1, ?jh2, ?jh3, ?jh4, ?jh5, ?jh6⟩
    all_goals first | decide +kernel | rfl
  · refine ⟨(ported { st := .up, roles := List.replicate 8 .fabric }).updDie 0 fun d =>
      { d with router := [toward 2], routes := [(2, [0x80, 0, 0, 0])] }, 0, 0, toward 2, 0, 2, ?kh1, ?kh2, ?kh3, ?kh4, ?kh5, ?kh6, ?kh7⟩
    all_goals first | decide +kernel | rfl
  · refine ⟨base.updDie 0 fun d => { d with router := [toward 2] }, ?lw_t, 0, 0, toward 2, ?lh1, ?lh2, ?lh3⟩
    case lh3 => rfl
    all_goals first | decide +kernel | rfl
  · refine ⟨(ported {}).setFab { assigned := true, moduleId := 1, hostPorts := [0] }, 0, ?mh1, ?mh2⟩
    all_goals first | decide +kernel | rfl
  · refine ⟨(ported {}).setFab { assigned := true, moduleId := 1, hostPorts := [1] }, 0, ?nh1, ?nh2⟩
    all_goals first | decide +kernel | rfl

theorem witness_CompletesTransactions :
    (∃ (s : State) (die : Nat) (f : Frame), isRequest f.typ = true ∧ (s.die die).sourceRoom f = true ∧ s.overtakes f = false) ∧
    (∃ (s : State) (die : Nat) (f : Frame), 6 ≤ f.typ ∧ f.typ ≤ 8 ∧ s.deaf = false) ∧
    (∃ (s : State) (die : Nat) (txn : Nat) (t : Txn), ((s.die die).txns.find? (fun t => t.frame.txn = txn) = some t) ∧ due t.lastSent
      t.interval s.now = true ∧ due s.now 0 (t.firstSent + 50000000) = true) ∧
    (∃ (s : State) (u : State) (die : Nat) (txn : Nat) (t : Txn) (k : ItemKey), ((s.die die).txns.find? (fun t => t.frame.txn = txn) =
      some t) ∧ due t.firstSent 90000000 s.now = true ∧ u = s.endTxn die txn ∧ t.owner = some k) ∧
    (∃ (s : State) (u : State) (die : Nat) (txn : Nat) (t : Txn), ((s.die die).txns.find? (fun t => t.frame.txn = txn) = some t) ∧ due
      t.firstSent 90000000 s.now = true ∧ u = s.endTxn die txn ∧ t.owner = none ∧ t.frame.srcKind ≠ 1) ∧
    (∃ (s : State) (u : State) (die : Nat) (txn : Nat) (t : Txn), ((s.die die).txns.find? (fun t => t.frame.txn = txn) = some t) ∧ due
      t.firstSent 90000000 s.now = true ∧ u = s.endTxn die txn ∧ t.owner = none ∧ t.frame.srcKind = 1) ∧
    (∃ (s : State) (port : Nat) (vc : Nat) (f : Frame), (s.port port).traffic = true ∧ s.hostFacing port = true ∧ s.bridgeRoom port =
      true) ∧
    (∃ (s : State) (port : Nat) (h : HeldWrite) (rest : List HeldWrite), (s.port port).heldWrites = h :: rest ∧ h.after = [] ∧
      s.bridgeRoom port = true) ∧
    (∃ (s : State) (die : Nat) (f : Frame), isRequest f.typ = true ∧ hostWindow f = true ∧ (s.die die).sourceRoom f = true) := by
  refine ⟨?_, ?_, ?_, ?_, ?_, ?_, ?_, ?_, ?_⟩
  · refine ⟨base, 0, { typ := 1 }, ?ah1, ?ah2, ?ah3⟩
    all_goals first | decide +kernel | rfl
  · refine ⟨base, 0, { typ := 6 }, ?bh1, ?bh2, ?bh3⟩
    all_goals first | decide +kernel | rfl
  · refine ⟨base.updDie 0 fun d => { d with txns := [⟨{ typ := 1 }, none, 60000000, 0, 1000, none⟩] }, 0, 0, ⟨{ typ := 1 }, none,
      60000000, 0, 1000, none⟩, ?ch1, ?ch2, ?ch3⟩
    all_goals first | decide +kernel | rfl
  · refine ⟨waitingTxn { typ := 1 } (some key), ?dw_u, 0, 0, ⟨{ typ := 1 }, none, 0, 0, 1000, some key⟩, key, ?dh1, ?dh2, ?dh3, ?dh4⟩
    case dh3 => rfl
    all_goals first | decide +kernel | rfl
  · refine ⟨waitingTxn { typ := 1 } none, ?ew_u, 0, 0, ⟨{ typ := 1 }, none, 0, 0, 1000, none⟩, ?eh1, ?eh2, ?eh3, ?eh4, ?eh5⟩
    case eh3 => rfl
    all_goals first | decide +kernel | rfl
  · refine ⟨waitingTxn { typ := 4, srcKind := 1 } none, ?fw_u, 0, 0, ⟨{ typ := 4, srcKind := 1 }, none, 0, 0, 1000, none⟩, ?fh1, ?fh2, ?fh3,
      ?fh4, ?fh5⟩
    case fh3 => rfl
    all_goals first | decide +kernel | rfl
  · refine ⟨(ported { st := .up }).setFab { assigned := true, moduleId := 1, hostPorts := [0] }, 0, 0, { typ := 1 }, ?gh1, ?gh2, ?gh3⟩
    all_goals first | decide +kernel | rfl
  · refine ⟨ported { st := .up, heldWrites := [⟨{ typ := 1 }, []⟩] }, 0, ⟨{ typ := 1 }, []⟩, [], ?hh1, ?hh2, ?hh3⟩
    all_goals first | decide +kernel | rfl
  · refine ⟨base, 0, { typ := 1, dest := 2 ^ 42 }, ?ih1, ?ih2, ?ih3⟩
    all_goals first | decide +kernel | rfl

theorem witness_CompletesFabricCommands :
    (∃ (s : State) (t : State) (seq : Nat) (r : Request), s.request? seq 0x0601 = some r ∧ portSetOk r.body = true ∧ (s.tapDrives = false
      ∨ u8 r.body 1 = 0) ∧ (t = (addressedPorts r.body).foldl (fun s i => s.setPort r.body i) s)) ∧
    (∃ (s : State) (seq : Nat) (r : Request) (es : List (List Nat)), s.request? seq 0x0602 = some r ∧ routeSetOk r.body = true ∧ (es =
      (records r.body 16 4 (u16 r.body 6)).map (fun e => (List.range 4).map (u8 e)))) ∧
    (∃ (s : State) (seq : Nat) (r : Request), s.request? seq 0x0603 = some r ∧ u8 r.body 0 = 0 ∧ restZero r.body 1 = true) ∧
    (∃ (s : State) (t : State) (seq : Nat) (r : Request), s.request? seq 0x0603 = some r ∧ u8 r.body 0 = 1 ∧ u8 r.body 1 = 0 ∧ restZero
      r.body 4 = true ∧ u16 r.body 2 ≠ 0xFFFF ∧ s.pitches = [] ∧ s.lends = [] ∧ (t = ((s.setFab
      { s.fab with moduleId := u16 r.body 2, assigned := true }).setPorts (s.ports.map fun p =>
      { p with changes := (p.changes + 1) % 2 ^ 32 })).sendHellos (fun _ => true))) ∧
    (∃ (s : State) (t : State) (seq : Nat) (r : Request), s.request? seq 0x0603 = some r ∧ u8 r.body 0 = 2 ∧ restZero r.body 1 = true ∧ (t
      = s.sendHellos (fun _ => true))) ∧
    (∃ (s : State) (t : State) (seq : Nat) (r : Request) (l : List Nat) (moved : List Nat), s.request? seq 0x0604 = some r ∧ bridgeSetOk
      r.body = true ∧ (l = (List.range (u8 r.body 0)).map (fun i => u8 r.body (2 + i))) ∧ (moved = (List.range Config.ports).filter (fun i
      => l.contains i != s.hostFacing i)) ∧ (moved.any (fun i => (s.port i).roles.any (· != .off)) = false) ∧ t = moved.foldl
      State.changeSide (s.setFab { s.fab with hostPorts := l })) := by
  refine ⟨?_, ?_, ?_, ?_, ?_, ?_⟩
  · refine ⟨asked base 0x0601 (fld 7 [(0, 1, 71)]), ?aw_t, 0, rq 0x0601 (fld 7 [(0, 1, 71)]), ?ah1, ?ah2, ?ah3, ?ah4⟩
    case ah4 => rfl
    all_goals first | decide +kernel | rfl
  · refine ⟨asked base 0x0602 (fld 16 [(0, 4, 1)]), 0, rq 0x0602 (fld 16 [(0, 4, 1)]), ?bw_es, ?bh1, ?bh2, ?bh3⟩
    case bh3 => rfl
    all_goals first | decide +kernel | rfl
  · refine ⟨asked base 0x0603 (fld 1 []), 0, rq 0x0603 (fld 1 []), ?ch1, ?ch2, ?ch3⟩
    all_goals first | decide +kernel | rfl
  · refine ⟨asked base 0x0603 (fld 4 [(0, 1, 1), (2, 2, 5)]), ?dw_t, 0, rq 0x0603 (fld 4 [(0, 1, 1), (2, 2, 5)]), ?dh1, ?dh2, ?dh3, ?dh4, ?dh5,
      ?dh6, ?dh7, ?dh8⟩
    case dh8 => rfl
    all_goals first | decide +kernel | rfl
  · refine ⟨asked base 0x0603 (fld 1 [(0, 1, 2)]), ?ew_t, 0, rq 0x0603 (fld 1 [(0, 1, 2)]), ?eh1, ?eh2, ?eh3, ?eh4⟩
    case eh4 => rfl
    all_goals first | decide +kernel | rfl
  · refine ⟨asked base 0x0604 (fld 6 [(0, 1, 1), (2, 1, 71), (3, 3, 0xFFFFFF)]), ?fw_t, 0, rq 0x0604 (fld 6 [(0, 1, 1), (2, 1, 71), (3, 3,
      0xFFFFFF)]), ?fw_l, ?fw_moved, ?fh1, ?fh2, ?fh3, ?fh4, ?fh5, ?fh6⟩
    case fh3 => rfl
    case fh4 => rfl
    case fh6 => rfl
    all_goals first | decide +kernel | rfl

theorem witness_CompletesSupply :
    (∃ (s : State) (t : State) (mv : Nat), mv ≤ 60000 ∧ t = s.setVin mv ∧ t.mayStart mv = true ∧ s.power.phase = .off) ∧
    (∃ (s : State) (t : State) (mv : Nat), mv ≤ 60000 ∧ t = s.setVin mv ∧ t.mayStart mv = true ∧ s.power.phase = .inReset) ∧
    (∃ (s : State) (t : State) (mv : Nat), mv ≤ 60000 ∧ t = s.setVin mv ∧ t.mayStart mv = true ∧ s.power.phase = .started ∧ s.kpr.mod ≠
      .keeperOnly) ∧
    (∃ (s : State) (die : Nat) (rail : Nat), s.keepersRun = true ∧ s.kpr.mod = .booting ∧ die < 24 ∧ (s.die die).st ≠ .fault ∧ due
      (s.power.railsAt + 5000 * die) 25000 s.now = true) ∧
    (∃ (s : State) (mv : Nat), s.keepersRun = true ∧ mv ≤ 35000) ∧
    (∃ (s : State) (mv : Nat), s.keepersRun = true ∧ 56000 < mv ∧ mv ≤ 60000) ∧
    (∃ (s : State) (mv : Nat), s.keepersRun = true ∧ 50000 < mv ∧ mv ≤ 56000) ∧
    (∃ (s : State) (us : Nat), s.keepersRun = true ∧ 10 ≤ us) ∧
    (∃ (s : State) (us : Nat), s.power.phase ≠ .off ∧ 100 ≤ us) ∧
    (∃ (s : State) (us : Nat), s.power.phase = .off ∧ 100 ≤ us) ∧
    (∃ (s : State) (mv : Nat), s.power.phase ≠ .off ∧ mv < 30000) ∧
    (∃ (s : State), s.keepersRun = true) ∧
    (∃ (s : State) (t : State) (mv : Nat), s.keepersRun = true ∧ s.power.dip = false ∧ mv < 38500 ∧ 35000 < mv ∧ t = (s.setVin mv).divide
      true) ∧
    (∃ (s : State) (mv : Nat), s.power.dip = true ∧ 39500 ≤ mv) ∧
    (∃ (s : State) (mv : Nat), s.power.dip = true ∧ mv < 39500) ∧
    (∃ (s : State) (t : State) (mv : Nat) (since : Nat), s.power.dip = true ∧ 39500 ≤ mv ∧ s.power.dipHold = some since ∧ due since 2500
      s.now = true ∧ t = s.setVin mv) := by
  refine ⟨?_, ?_, ?_, ?_, ?_, ?_, ?_, ?_, ?_, ?_, ?_, ?_, ?_, ?_, ?_, ?_⟩
  · refine ⟨base.setPower { base.power with phase := .off }, ?aw_t, 48000, ?ah1, ?ah2, ?ah3, ?ah4⟩
    case ah2 => rfl
    all_goals first | decide +kernel | rfl
  · refine ⟨base.setPower { base.power with phase := .inReset }, ?bw_t, 56000, ?bh1, ?bh2, ?bh3, ?bh4⟩
    case bh2 => rfl
    all_goals first | decide +kernel | rfl
  · refine ⟨base, ?cw_t, 40000, ?ch1, ?ch2, ?ch3, ?ch4, ?ch5⟩
    case ch2 => rfl
    all_goals first | decide +kernel | rfl
  · refine ⟨base.setKpr { base.kpr with mod := .booting }, 23, 0, ?dh1, ?dh2, ?dh3, ?dh4, ?dh5⟩
    all_goals first | decide +kernel | rfl
  · refine ⟨base, 35000, ?eh1, ?eh2⟩
    all_goals first | decide +kernel | rfl
  · refine ⟨base, 60000, ?fh1, ?fh2, ?fh3⟩
    all_goals first | decide +kernel | rfl
  · refine ⟨base, 56000, ?gh1, ?gh2, ?gh3⟩
    all_goals first | decide +kernel | rfl
  · refine ⟨base, 10, ?hh1, ?hh2⟩
    all_goals first | decide +kernel | rfl
  · refine ⟨base, 100, ?ih1, ?ih2⟩
    all_goals first | decide +kernel | rfl
  · refine ⟨base.setPower { base.power with phase := .off }, 100, ?jh1, ?jh2⟩
    all_goals first | decide +kernel | rfl
  · refine ⟨base, 29999, ?kh1, ?kh2⟩
    all_goals first | decide +kernel | rfl
  · refine ⟨base, ?lh1⟩
    all_goals first | decide +kernel | rfl
  · refine ⟨base, ?mw_t, 38499, ?mh1, ?mh2, ?mh3, ?mh4, ?mh5⟩
    case mh5 => rfl
    all_goals first | decide +kernel | rfl
  · refine ⟨base.setPower { base.power with dip := true, dipHold := some 0 }, 39500, ?nh1, ?nh2⟩
    all_goals first | decide +kernel | rfl
  · refine ⟨base.setPower { base.power with dip := true, dipHold := some 0 }, 39499, ?oh1, ?oh2⟩
    all_goals first | decide +kernel | rfl
  · refine ⟨base.setPower { base.power with dip := true, dipHold := some 0 }, ?pw_t, 39500, 0, ?ph1, ?ph2, ?ph3, ?ph4, ?ph5⟩
    case ph5 => rfl
    all_goals first | decide +kernel | rfl

theorem witness_CompletesControl :
    (∃ (s : State) (t : State) (u : State) (p1 : Nat) (p10 : Nat) (ma : Nat), t = s.sample.setPower
      { s.sample.power with pinW := p1, iinMa := ma } ∧ overLimit p1 ma = true ∧ since s.power.lastDown 2500 s.now = true ∧ (u = (if
      t.dies.any Die.lowers then t.stepsDown ma else t))) ∧
    (∃ (s : State) (t : State) (u : State) (p1 : Nat) (p10 : Nat) (ma : Nat), t = s.sample.setPower
      { s.sample.power with pinW := p1, iinMa := ma } ∧ overLimit p1 ma = false ∧ p10 < 3100 ∧ ma < 80000 ∧ since s.power.lastDown 250000
      s.now = true ∧ since s.power.lastUp 25000 s.now = true) ∧
    (∃ (s : State) (die : Nat), (s.die die).railsUp = true) ∧
    (∃ (s : State) (t : State) (die : Nat) (sensor : Nat) (tj : Int), (t = (s.updDie die fun d =>
      { d with tj := tj, tjSensor := sensor % 8 })) ∧ t.kpr.mod ≠ .keeperOnly ∧ t.keepersRun = true ∧ die < 24 ∧ 880 ≤ tj) ∧
    (∃ (s : State) (t : State) (die : Nat) (sensor : Nat) (tj : Int), (t = (s.updDie die fun d =>
      { d with tj := tj, tjSensor := sensor % 8 })) ∧ t.kpr.mod ≠ .keeperOnly ∧ t.keepersRun = true ∧ die < 24 ∧ 760 ≤ tj ∧ tj < 880 ∧
      (t.die die).hot = false) ∧
    (∃ (s : State) (t : State) (die : Nat) (sensor : Nat) (tj : Int), (t = (s.updDie die fun d =>
      { d with tj := tj, tjSensor := sensor % 8 })) ∧ t.kpr.mod ≠ .keeperOnly ∧ t.keepersRun = true ∧ die < 24 ∧ tj < 736) ∧
    (∃ (s : State) (die : Nat) (tj : Int), s.kpr.mod = .keeperOnly ∧ s.keepersRun = true ∧ 960 ≤ tj) ∧
    (∃ (s : State) (t : State) (die : Nat) (rail : Nat) (phase : Nat), s.keepersRun = true ∧ die < 24 ∧ rail < 8 ∧ rail ≠ 0 ∧ (s.die
      die).phasesLost.contains (rail, phase) = false ∧ (t = (s.updDie die fun d =>
      { d with phasesLost := d.phasesLost ++ [(rail, phase)] }))) ∧
    (∃ (s : State) (cause : Nat), s.keepersRun = true ∧ s.kpr.mod ≠ .keeperOnly ∧ cause ≤ 3) ∧
    (∃ (s : State) (t : State) (watts : Nat), t = s.setPower { s.power with pinW := watts } ∧ s.power.pwarnW ≠ 0 ∧ s.power.pwarnW < watts
      ∧ s.power.pwarn = false) := by
  refine ⟨?_, ?_, ?_, ?_, ?_, ?_, ?_, ?_, ?_, ?_⟩
  · refine ⟨base, ?aw_t, ?aw_u, 3201, 0, 85000, ?ah1, ?ah2, ?ah3, ?ah4⟩
    case ah1 => rfl
    case ah4 => rfl
    all_goals first | decide +kernel | rfl
  · refine ⟨base, ?bw_t, base, 3200, 3099, 79999, ?bh1, ?bh2, ?bh3, ?bh4, ?bh5, ?bh6⟩
    case bh1 => rfl
    all_goals first | decide +kernel | rfl
  · refine ⟨powered base, 0, ?ch1⟩
    all_goals first | decide +kernel | rfl
  · refine ⟨base, ?dw_t, 23, 0, 880, ?dh1, ?dh2, ?dh3, ?dh4, ?dh5⟩
    case dh1 => rfl
    all_goals first | decide +kernel | rfl
  · refine ⟨base, ?ew_t, 23, 0, 879, ?eh1, ?eh2, ?eh3, ?eh4, ?eh5, ?eh6, ?eh7⟩
    case eh1 => rfl
    all_goals first | decide +kernel | rfl
  · refine ⟨base, ?fw_t, 23, 0, 735, ?fh1, ?fh2, ?fh3, ?fh4, ?fh5⟩
    case fh1 => rfl
    all_goals first | decide +kernel | rfl
  · refine ⟨base.setKpr { base.kpr with mod := .keeperOnly }, 0, 960, ?gh1, ?gh2, ?gh3⟩
    all_goals first | decide +kernel | rfl
  · refine ⟨base, ?hw_t, 23, 7, 0, ?hh1, ?hh2, ?hh3, ?hh4, ?hh5, ?hh6⟩
    case hh6 => rfl
    all_goals first | decide +kernel | rfl
  · refine ⟨base, 3, ?ih1, ?ih2, ?ih3⟩
    all_goals first | decide +kernel | rfl
  · refine ⟨base.setPower { base.power with pwarnW := 100 }, ?jw_t, 101, ?jh1, ?jh2, ?jh3, ?jh4⟩
    case jh1 => rfl
    all_goals first | decide +kernel | rfl

theorem witness_CompletesDieStates :
    (∃ (s : State) (seq : Nat) (r : Request), s.request? seq 0x0901 = some r ∧ u8 r.body 4 = 0 ∧ dieStateOk r.body false false true =
      true) ∧
    (∃ (s : State) (seq : Nat) (r : Request), s.request? seq 0x0901 = some r ∧ u8 r.body 4 = 1 ∧ dieStateOk r.body true false true = true) ∧
    (∃ (s : State) (seq : Nat) (r : Request), s.request? seq 0x0901 = some r ∧ u8 r.body 4 = 2 ∧ dieStateOk r.body false true true = true) ∧
    (∃ (s : State) (t : State) (seq : Nat) (r : Request) (new : List Nat) (plans : List (Nat × MovePlan)), s.request? seq 0x0901 = some r
      ∧ u8 r.body 4 = 3 ∧ dieStateOk r.body false false true = true ∧ s.movingFor seq = false ∧ (new = (maskBits (u32 r.body 0) 24).filter
      (fun d => (s.die d).st != .drained)) ∧ new.any s.drainBusy = false ∧ s.planMoves seq new true = some plans ∧ (t = plans.foldl (fun s
      m => (s.updPitch m.1 Pitch.restrict).beginMove m.1 m.2) (s.startDrain new))) ∧
    (∃ (s : State) (t : State) (seq : Nat) (r : Request) (ds : List Nat) (plans : List (Nat × MovePlan)), s.request? seq 0x0901 = some r ∧
      u8 r.body 4 = 4 ∧ dieStateOk r.body false false true = true ∧ s.movingFor seq = false ∧ ds = maskBits (u32 r.body 0) 24 ∧ (ds.any
      (fun d => !((s.die d).st = .drained || (s.die d).st = .off) || (s.die d).testing || s.pitches.any fun p => p.localDies.testBit d &&
      p.move.isSome) = false) ∧ s.planMoves seq ds false = some plans ∧ (t = plans.foldl (fun s m => s.beginMove m.1 m.2) (ds.foldl (fun s
      d => if (s.dieTag? d).isSome then s else s.updDie d fun d => if d.st = .off then d.switchOn else
      { d with st := .inService, clusters := d.clusters.map fun c => { c with st := .resting } }) s))) ∧
    (∃ (s : State) (seq : Nat) (r : Request) (ds : List Nat), s.request? seq 0x0901 = some r ∧ u8 r.body 4 = 5 ∧ dieStateOk r.body false
      false true = true ∧ ds = maskBits (u32 r.body 0) 24 ∧ (ds.any (fun d => (s.dieTag? d).isSome || (s.dieLend? d).isSome || (s.die
      d).st = .fault || (s.die d).testing) = false)) ∧
    (∃ (s : State) (tag : Nat) (lcluster : Nat) (p : Pitch) (m : MovePlan) (n : MovePlan), s.pitch? tag = some p ∧ p.move = some m ∧
      m.waiting.contains lcluster = true ∧ (p.items.any (fun i => i.w.lcluster = lcluster && i.dispatched && i.phase != .finished) =
      false) ∧ n = { m with waiting := m.waiting.filter (· != lcluster), stopped := m.stopped ++ [lcluster] }) ∧
    (∃ (s : State) (seq : Nat) (r : Request), s.request? seq 0x0901 = some r ∧ u8 r.body 4 = 6 ∧ dieStateOk r.body false false false =
      true ∧ s.kpr.mod ≠ .keeperOnly) ∧
    (∃ (s : State) (seq : Nat) (r : Request), s.request? seq 0x0901 = some r ∧ u8 r.body 4 = 7 ∧ dieStateOk r.body false false false =
      true ∧ s.kpr.mod = .keeperOnly ∧ s.pitches = [] ∧ s.lends = [] ∧ (s.dies.any (fun d => 680 < d.tj) = false)) ∧
    (∃ (s : State) (seq : Nat) (r : Request), s.request? seq 0x0902 = some r ∧ u32 r.body 0 < 2 ^ 24 ∧ restZero r.body 4 = true ∧
      (r.mailbox = 0 ∨ ∀ d ∈ maskBits (u32 r.body 0) 24, s.dieTag? d = some r.tag)) ∧
    (∃ (s : State) (seq : Nat) (r : Request) (es : List Event), s.request? seq 0x0903 = some r ∧ 1 ≤ u32 r.body 8 ∧ u32 r.body 8 ≤ 120 ∧
      restZero r.body 12 = true ∧ (es = (s.log.entries.filter (fun e => u64 r.body 0 ≤ e.seq && (r.mailbox = 0 || e.tag = r.tag))).take
      (u32 r.body 8))) := by
  refine ⟨?_, ?_, ?_, ?_, ?_, ?_, ?_, ?_, ?_, ?_, ?_⟩
  · refine ⟨asked base 0x0901 (fld 16 [(0, 4, 1)]), 0, rq 0x0901 (fld 16 [(0, 4, 1)]), ?ah1, ?ah2, ?ah3⟩
    all_goals first | decide +kernel | rfl
  · refine ⟨asked base 0x0901 (fld 16 [(0, 4, 1), (4, 1, 1), (5, 1, 9)]), 0, rq 0x0901 (fld 16 [(0, 4, 1), (4, 1, 1), (5, 1, 9)]), ?bh1,
      ?bh2, ?bh3⟩
    all_goals first | decide +kernel | rfl
  · refine ⟨asked base 0x0901 (fld 16 [(0, 4, 1), (4, 1, 2), (8, 4, 64), (12, 4, 10)]), 0, rq 0x0901 (fld 16 [(0, 4, 1), (4, 1, 2), (8, 4,
      64), (12, 4, 10)]), ?ch1, ?ch2, ?ch3⟩
    all_goals first | decide +kernel | rfl
  · refine ⟨asked (powered base) 0x0901 (fld 16 [(0, 4, 2), (4, 1, 3)]), ?dw_t, 0, rq 0x0901 (fld 16 [(0, 4, 2), (4, 1, 3)]), ?dw_new, [],
      ?dh1, ?dh2, ?dh3, ?dh4, ?dh5, ?dh6, ?dh7, ?dh8⟩
    case dh5 => rfl
    case dh8 => rfl
    all_goals first | decide +kernel | rfl
  · refine ⟨asked ((powered base).updDie 1 fun d => { d with st := .drained }) 0x0901 (fld 16 [(0, 4, 2), (4, 1, 4)]), ?ew_t, 0, rq 0x0901
      (fld 16 [(0, 4, 2), (4, 1, 4)]), ?ew_ds, [], ?eh1, ?eh2, ?eh3, ?eh4, ?eh5, ?eh6, ?eh7, ?eh8⟩
    case eh5 => rfl
    case eh8 => rfl
    all_goals first | decide +kernel | rfl
  · refine ⟨asked (powered base) 0x0901 (fld 16 [(0, 4, 2), (4, 1, 5)]), 0, rq 0x0901 (fld 16 [(0, 4, 2), (4, 1, 5)]), ?fw_ds, ?fh1, ?fh2,
      ?fh3, ?fh4, ?fh5⟩
    case fh4 => rfl
    all_goals first | decide +kernel | rfl
  · refine ⟨on { pit with move := some ⟨0, 1, true, [0], [], [], [], none⟩ }, 7, 0,
      { pit with move := some ⟨0, 1, true, [0], [], [], [], none⟩ }, ⟨0, 1, true, [0], [], [], [], none⟩, ?gw_n, ?gh1, ?gh2, ?gh3, ?gh4, ?gh5⟩
    case gh5 => rfl
    all_goals first | decide +kernel | rfl
  · refine ⟨asked base 0x0901 (fld 16 [(4, 1, 6)]), 0, rq 0x0901 (fld 16 [(4, 1, 6)]), ?hh1, ?hh2, ?hh3, ?hh4⟩
    all_goals first | decide +kernel | rfl
  · refine ⟨asked (base.setKpr { base.kpr with mod := .keeperOnly }) 0x0901 (fld 16 [(4, 1, 7)]), 0, rq 0x0901 (fld 16 [(4, 1, 7)]), ?ih1,
      ?ih2, ?ih3, ?ih4, ?ih5, ?ih6, ?ih7⟩
    all_goals first | decide +kernel | rfl
  · refine ⟨onReq pit 0x0902 (fld 4 [(0, 4, 1)]), 0, rq 0x0902 (fld 4 [(0, 4, 1)]), ?jh1, ?jh2, ?jh3, ?jh4⟩
    all_goals first | decide +kernel | rfl
  · refine ⟨asked base 0x0903 (fld 12 [(8, 4, 1)]), 0, rq 0x0903 (fld 12 [(8, 4, 1)]), ?kw_es, ?kh1, ?kh2, ?kh3, ?kh4, ?kh5⟩
    case kh5 => rfl
    all_goals first | decide +kernel | rfl

theorem witness_CompletesUpkeep :
    (∃ (s : State) (die : Nat) (e : ErrorAt), 1 ≤ e.symbols ∧ e.symbols ≤ (codeAt die e.place).corrects) ∧
    (∃ (s : State) (t : State) (die : Nat) (symbols : Nat) (x : StorePlace), (s.die die).railsUp = true ∧ (∀ off, x = .space off → t = (if
      isSram off then s else s.dramNeed die)) ∧ (∀ kind row, x = .bank kind row → t = s)) ∧
    (∃ (s : State) (t : State) (die : Nat) (symbols : Nat) (x : StorePlace), (s.die die).railsUp = true ∧ (∀ off, x = .space off → t = (if
      isSram off then s else s.dramNeed die)) ∧ (∀ kind row, x = .bank kind row → t = s) ∧ 1 ≤ symbols ∧ symbols ≤ (codeAt die
      x).corrects) ∧
    (∃ (s : State) (t : State) (die : Nat) (symbols : Nat) (x : StorePlace), (s.die die).railsUp = true ∧ (∀ off, x = .space off → t = (if
      isSram off then s else s.dramNeed die)) ∧ (∀ kind row, x = .bank kind row → t = s) ∧ (codeAt die x).corrects < symbols ∧ symbols ≤
      (codeAt die x).detects) ∧
    (∃ (s : State) (die : Nat) (kind : Nat) (row : Nat) (d : Die), 4 ≤ (s.die die).rowCount kind row s.now ∧ (s.die die).sparesTested =
      true ∧ mendRow kind (rowInstance kind row).1 (some (s.die die)) (rowInstance kind row).2 = some d) ∧
    (∃ (s : State) (die : Nat) (page : Nat), page < Config.diePages ∧ (s.die die).railsUp = true ∧ (s.die die).marched.contains page =
      false ∧ (s.die die).zeroed.contains page = false) ∧
    (∃ (s : State) (t : State) (die : Nat) (x : MarchedPage), (s.die die).startable = true ∧ (s.die die).test = none ∧ (s.die
      die).nextPage = some x.page ∧ t = (s.beginMarch die).marchPage die x.page (recordedFailures x.failures)) ∧
    (∃ (s : State) (die : Nat) (x : MarchedPage), (s.die die).nextPage = none) ∧
    (∃ (s : State) (die : Nat), (s.die die).sramUnmarched = true ∧ (s.die die).startable = true ∧ (s.die die).test = none ∧ s.dieTag? die
      = none) ∧
    (∃ (s : State) (die : Nat), (s.die die).inWindow = false) ∧
    (∃ (s : State) (die : Nat) (fs : List Failure) (t : RunningTest), (s.die die).test = some t ∧ (s.die die).inWindow = true) ∧
    (∃ (s : State) (t : State) (die : Nat) (fs : List Failure), die < 24 ∧ (s.die die).sparesTested = false ∧ (s.die die).startable = true
      ∧ (s.die die).testing = false ∧ t = s.startTest 3 2 false [die] none 0) ∧
    (∃ (s : State) (seq : Nat) (r : Request), s.request? seq 0x0801 = some r ∧ (s.tests.records.any (fun t => t.request = some seq) =
      false) ∧ bistOk r.body = true ∧ (maskBits (u32 r.body 0) 24).all (s.bistReady (u8 r.body 4) (u8 r.body 5)) = true) ∧
    (∃ (s : State) (seq : Nat) (r : Request) (t : TestRecord) (x : State × Nat × Nat), s.request? seq 0x0802 = some r ∧ restZero r.body 4
      = true ∧ (s.tests.records.find? (fun t => t.testId = u32 r.body 0) = some t) ∧ (t.openDies.any (fun d => (s.die d).st != .drained ||
      (s.die d).lastTest != some (u32 r.body 0) || (s.die d).testing) = false) ∧ x = t.openDies.foldl (State.repairDie (u32 r.body 0)) (s,
      0, 0)) ∧
    (∃ (s : State) (seq : Nat) (r : Request) (ds : List Nat), s.request? seq 0x0803 = some r ∧ u32 r.body 0 < 2 ^ 24 ∧ restZero r.body 4 =
      true ∧ ds = maskBits (u32 r.body 0) 24 ∧ s.tests.fusing = none ∧ s.fusable ds = true ∧ (ds.any (fun d => 512 < (s.die d).fuseUsed +
      (s.die d).unfused) = false)) ∧
    (∃ (s : State) (seq : Nat) (d : Nat) (e : Nat) (r : Request) (f : Fusing) (rest : List Nat), s.request? seq 0x0803 = some r ∧ u32
      r.body 0 < 2 ^ 24 ∧ restZero r.body 4 = true ∧ s.tests.fusing = some f ∧ f.seq = seq ∧ s.fusable (maskBits (u32 r.body 0) 24) = true
      ∧ f.todo = d :: e :: rest) ∧
    (∃ (s : State) (seq : Nat) (r : Request) (f : Fusing), s.request? seq 0x0803 = some r ∧ u32 r.body 0 < 2 ^ 24 ∧ restZero r.body 4 =
      true ∧ s.tests.fusing = some f ∧ f.seq = seq ∧ s.fusable (maskBits (u32 r.body 0) 24) = false) ∧
    (∃ (s : State) (seq : Nat) (r : Request) (t : TestRecord), s.request? seq 0x0804 = some r ∧ 1 ≤ u16 r.body 6 ∧ u16 r.body 6 ≤ 124 ∧
      restZero r.body 8 = true ∧ s.record? (u32 r.body 0) = some t) := by
  refine ⟨?_, ?_, ?_, ?_, ?_, ?_, ?_, ?_, ?_, ?_, ?_, ?_, ?_, ?_, ?_, ?_, ?_, ?_⟩
  · refine ⟨base, 0, ⟨.space 0, 1⟩, ?ah1, ?ah2⟩
    all_goals first | decide +kernel | rfl
  · refine ⟨powered base, (powered base).dramNeed 0, 0, 0, .space 0, ?bh1, ?bh2, ?bh3⟩
    case bh2 => (intro off h; injection h with h; subst h; rfl)
    case bh3 => (intro k r h; exact nomatch h)
    all_goals first | decide +kernel | rfl
  · refine ⟨powered base, (powered base).dramNeed 0, 0, 1, .space 0, ?ch1, ?ch2, ?ch3, ?ch4, ?ch5⟩
    case ch2 => (intro off h; injection h with h; subst h; rfl)
    case ch3 => (intro k r h; exact nomatch h)
    all_goals first | decide +kernel | rfl
  · refine ⟨powered base, powered base, 0, 2, .bank 5 0, ?dh1, ?dh2, ?dh3, ?dh4, ?dh5⟩
    case dh2 => (intro off h; exact nomatch h)
    case dh3 => (intro k r h; rfl)
    all_goals first | decide +kernel | rfl
  · refine ⟨base.updDie 0 fun d => { d with sparesTested := true, rowErrors := List.replicate 4 (4, 0, 99999999) }, 0, 4, 0, ?ew_d, ?eh1,
      ?eh2, ?eh3⟩
    case eh3 => rfl
    all_goals first | decide +kernel | rfl
  · refine ⟨powered base, 0, 0, ?fh1, ?fh2, ?fh3, ?fh4⟩
    all_goals first | decide +kernel | rfl
  · refine ⟨warm, ?gw_t, 0, ⟨0, []⟩, ?gh1, ?gh2, ?gh3, ?gh4⟩
    case gh4 => rfl
    all_goals first | decide +kernel | rfl
  · refine ⟨marchedTo Config.diePages, 0, ⟨0, []⟩, ?hh1⟩
    case hh1 => exact allMarched_next
  · refine ⟨(powered base).updDie 0 fun d => { d with vddCoreMv := 750, step := 9, powerStep := 9, sramUnmarched := true }, 0, ?ih1, ?ih2,
      ?ih3, ?ih4⟩
    all_goals first | decide +kernel | rfl
  · refine ⟨base, 0, ?jh1⟩
    all_goals first | decide +kernel | rfl
  · refine ⟨warm.updDie 0 fun d => { d with test := some ⟨0, 0, false, 1, 0⟩ }, 0, [], ⟨0, 0, false, 1, 0⟩, ?kh1, ?kh2⟩
    all_goals first | decide +kernel | rfl
  · refine ⟨warm, ?lw_t, 0, [], ?lh1, ?lh2, ?lh3, ?lh4, ?lh5⟩
    case lh5 => rfl
    all_goals first | decide +kernel | rfl
  · refine ⟨asked (base.updDie 0 fun d => { d with st := .drained }) 0x0801 (fld 7 [(0, 4, 1)]), 0, rq 0x0801 (fld 7 [(0, 4, 1)]), ?mh1,
      ?mh2, ?mh3, ?mh4⟩
    all_goals first | decide +kernel | rfl
  · refine ⟨asked ((base.setTests { records := [tst] }).updDie 0 fun d => { d with st := .drained, lastTest := some 0 }) 0x0802 (fld 4
      []), 0, rq 0x0802 (fld 4 []), tst, ?nw_x, ?nh1, ?nh2, ?nh3, ?nh4, ?nh5⟩
    case nh5 => rfl
    all_goals first | decide +kernel | rfl
  · refine ⟨asked base 0x0803 (fld 4 [(0, 4, 1)]), 0, rq 0x0803 (fld 4 [(0, 4, 1)]), ?ow_ds, ?oh1, ?oh2, ?oh3, ?oh4, ?oh5, ?oh6, ?oh7⟩
    case oh4 => rfl
    all_goals first | decide +kernel | rfl
  · refine ⟨asked (base.setTests { fusing := some ⟨0, [0, 0], []⟩ }) 0x0803 (fld 4 [(0, 4, 1)]), 0, 0, 0, rq 0x0803 (fld 4 [(0, 4, 1)]),
      ⟨0, [0, 0], []⟩, [], ?ph1, ?ph2, ?ph3, ?ph4, ?ph5, ?ph6, ?ph7⟩
    all_goals first | decide +kernel | rfl
  · refine ⟨asked ((base.setTests { fusing := some ⟨0, [0], []⟩ }).setPower { base.power with dip := true }) 0x0803 (fld 4 [(0, 4, 1)]),
      0, rq 0x0803 (fld 4 [(0, 4, 1)]), ⟨0, [0], []⟩, ?qh1, ?qh2, ?qh3, ?qh4, ?qh5, ?qh6⟩
    all_goals first | decide +kernel | rfl
  · refine ⟨asked (base.setTests { records := [tst] }) 0x0804 (fld 8 [(6, 2, 124)]), 0, rq 0x0804 (fld 8 [(6, 2, 124)]), tst, ?rh1, ?rh2,
      ?rh3, ?rh4, ?rh5⟩
    all_goals first | decide +kernel | rfl

theorem witness_CompletesRegisters :
    (∃ (s : State) (ktag : Nat) (addr : Nat), s.keepersRun = true ∧ addr % 4 = 0) ∧
    (∃ (s : State) (t : State) (ktag : Nat) (addr : Nat) (d : BitVec 32), s.keepersRun = true ∧ addr % 4 = 0 ∧ s.kpr.writeTags.contains
      ktag = false ∧ t = s.arrived.writeReg addr d) ∧
    (∃ (s : State) (t : State) (ktag : Nat) (d : BitVec 32), s.keepersRun = true ∧ s.kpr.writeTags.contains ktag = false ∧ t =
      s.arrived.writeReset d) ∧
    (∃ (s : State) (t : State) (ktag : Nat) (d : BitVec 32), s.keepersRun = true ∧ s.kpr.writeTags.contains ktag = false ∧ t =
      s.arrived.ringDoorbell d) ∧
    (∃ (s : State) (t : State) (ktag : Nat) (d : BitVec 32), s.keepersRun = true ∧ s.kpr.writeTags.contains ktag = false ∧ t =
      s.arrived.releaseRsp d) ∧
    (∃ (s : State) (t : State) (ktag : Nat) (d : BitVec 32), s.keepersRun = true ∧ s.kpr.writeTags.contains ktag = false ∧ t =
      s.arrived.clearAlerts d) ∧
    (∃ (s : State) (t : State) (ktag : Nat) (port : Nat) (d : BitVec 32), s.keepersRun = true ∧ s.kpr.writeTags.contains ktag = false ∧
      port < 72 ∧ t = s.arrived.clearCounters port d) ∧
    (∃ (s : State) (f : KprFrame), s.keepersRun = true ∧ f.crc = crc32c (kprBody f) ∧ (f.addr % 4 ≠ 0 ∨ (f.typ ≠ 1 ∧ f.typ ≠ 2))) ∧
    (∃ (s : State) (f : KprFrame), s.keepersRun = true ∧ f.crc = crc32c (kprBody f) ∧ f.addr % 4 = 0 ∧ (f.typ = 1 ∨ f.typ = 2) ∧
      s.keeperFull = true) ∧
    (∃ (s : State) (f : KprFrame), f.crc ≠ crc32c (kprBody f)) ∧
    (∃ (s : State), s.keepersRun = true ∧ s.kpr.mod = .recovery ∧ (s.kpr.announced.elim true (fun t => due t 25000000 s.now) = true)) ∧
    (∃ (s : State) (i : TapInstr), 30000 ≤ s.power.vinMv) := by
  refine ⟨?_, ?_, ?_, ?_, ?_, ?_, ?_, ?_, ?_, ?_, ?_, ?_⟩
  · refine ⟨base, 0, 0, ?ah1, ?ah2⟩
    all_goals first | decide +kernel | rfl
  · refine ⟨base, ?bw_t, 0, 0, 0, ?bh1, ?bh2, ?bh3, ?bh4⟩
    case bh4 => rfl
    all_goals first | decide +kernel | rfl
  · refine ⟨base, ?cw_t, 0, 1, ?ch1, ?ch2, ?ch3⟩
    case ch3 => rfl
    all_goals first | decide +kernel | rfl
  · refine ⟨base, ?dw_t, 0, 1, ?dh1, ?dh2, ?dh3⟩
    case dh3 => rfl
    all_goals first | decide +kernel | rfl
  · refine ⟨base, ?ew_t, 0, 1, ?eh1, ?eh2, ?eh3⟩
    case eh3 => rfl
    all_goals first | decide +kernel | rfl
  · refine ⟨base, ?fw_t, 0, 1, ?fh1, ?fh2, ?fh3⟩
    case fh3 => rfl
    all_goals first | decide +kernel | rfl
  · refine ⟨base, ?gw_t, 0, 71, 1, ?gh1, ?gh2, ?gh3, ?gh4⟩
    case gh4 => rfl
    all_goals first | decide +kernel | rfl
  · refine ⟨base, keeperFrame 1 2, ?hh1, ?hh2, ?hh3⟩
    all_goals first | decide +kernel | rfl
  · refine ⟨base.setKpr { base.kpr with arrivals := List.replicate 8 base.now }, keeperFrame 1 0, ?ih1, ?ih2, ?ih3, ?ih4, ?ih5⟩
    all_goals first | decide +kernel | rfl
  · refine ⟨base, ⟨1, 0, 0, 0, 1⟩, ?jh1⟩
    all_goals first | decide +kernel | rfl
  · refine ⟨base.setKpr { base.kpr with mod := .recovery }, ?kh1, ?kh2, ?kh3⟩
    all_goals first | decide +kernel | rfl
  · refine ⟨base, .idcode, ?lh1⟩
    all_goals first | decide +kernel | rfl

/-- Pitch 7 with the queue, before its doorbell and acknowledge registers. -/
def queued : Pitch := { pit with queues := [que] }

/-- Mailbox 1 bound to pitch 7, with a submission. -/
def boxed (b : Mailbox) : State := ((on pit).setBoxes [{}, b]).setRing { order := [1] }

/-- A RAND item. -/
def drawing : Item := itm 6 0 [slot 3 0] [none, none, none, some (vec1 4096 7 1, none)]

/-- A powered module that boots from the given storage. -/
def booting (f : Firmware) : State := (powered (base.setKpr { base.kpr with mod := .booting })).setFw f

/-- A frame of another pitch at die 0. -/
def foreign : Frame := { typ := 1, tag := 8, srcModule := 2, dest := 2 ^ 48 }

/-- The state that a source has left at die 0, and a frame of it that was executed. -/
def seenFrame : Frame := { typ := 1, tag := 7, srcModule := 2, txn := 4, dest := 2 ^ 48 }

def seenBy : SourceState := ⟨2, 0, 0, [(4, { typ := 6, txn := 4, dest := 2 * 2 ^ 48 })]⟩

def seen : State := (on pit).updDie 0 fun d => { d with sources := [seenBy] }

theorem witness_StepRunsFrontCommand : ∃ (c : Instr) (s : State), s.pending = [] ∧ c.wf = true :=
  ⟨.doorbell 7 0 3, on queued, rfl, rfl⟩

theorem witness_ResetLeaves : ∃ m : Nat, m < 64 ∧ ¬ m + 1 < 64 := ⟨63, by decide⟩

theorem witness_EmptyQueueCountsTime :
    (∃ s : State, s.pending = []) ∧ (∃ s : State, s.keepersRun = true ∧ s.kpr.resetDue = none) ∧
    (∃ s : State, s.keepersRun = false) :=
  ⟨⟨base, rfl⟩, ⟨base, by decide +kernel⟩, ⟨base.setPower { base.power with phase := .off }, by decide +kernel⟩⟩

theorem witness_StepKeepsInvariant : ∃ s t : State, s.Inv ∧ step s = .next t ∧ s.mem ≠ [] ∧ s.pending ≠ [] :=
  ⟨{ (on queued).setMem [(3, 5)] with pending := [.doorbell 7 0 3] }, _, ⟨by decide +kernel, by decide +kernel⟩, rfl,
    by decide +kernel, by decide +kernel⟩

theorem witness_StepKeepsInvariant_queue : ∃ (c : Instr) (s t : State), s.Inv ∧ exec c s = .next t ∧ s.pending ≠ [] :=
  ⟨.doorbell 7 0 3, { on queued with pending := [.helloTimer] }, _, ⟨by decide +kernel, by decide +kernel⟩, rfl, by decide +kernel⟩

theorem witness_MemoryFrame : ∃ (c : Instr) (s t : State), leavesMemory c = true ∧ exec c s = .next t :=
  ⟨.doorbell 7 0 3, on queued, _, rfl, rfl⟩

theorem witness_QueriesOnlyAnswer : ∃ (c : Instr) (s t : State), isQuery c = true ∧ exec c s = .next t :=
  ⟨.fabDiscoverQuery 0, asked base 0x0603 (fld 1 []), _, rfl, rfl⟩

theorem witness_KeeperFramesLeaveWork : ∃ (c : Instr) (s t : State), isKeeperFrame c = true ∧ exec c s = .next t :=
  ⟨.registerWrite 0 0x24 1, base, _, rfl, rfl⟩

theorem witness_ThrottlingKeepsResults :
    (∃ (s t : State), throttles (.thermalControlEval 0 879 0) = true ∧ exec (.thermalControlEval 0 879 0) s = .next t) ∧
    (∃ (s t : State), throttles (.dipBegin 38499) = true ∧ exec (.dipBegin 38499) s = .next t) :=
  ⟨⟨base, _, by decide +kernel, rfl⟩, ⟨base, _, rfl, rfl⟩⟩

theorem witness_KeeperWritesOnce :
    (∃ (s : State) (ktag addr : Nat), s.keepersRun = true ∧ addr % 4 = 0 ∧ s.kpr.writeTags.contains ktag = true) ∧
    (∃ (s : State) (ktag addr : Nat), s.keepersRun = true ∧ addr % 4 = 0 ∧ s.kpr.writeTags.contains ktag = false ∧
      s.kpr.writeTags.length = 8) :=
  ⟨⟨base.setKpr { base.kpr with writeTags := [5] }, 5, 0x24, by decide +kernel⟩,
    ⟨base.setKpr { base.kpr with writeTags := List.range 8 }, 8, 0x24, by decide +kernel⟩⟩

theorem witness_StoresStayInPlace :
    (∃ (c : Instr) (s t : State) (k : ItemKey) (p : Pitch) (i : Item), storesResult c = some k ∧ OnItem s k p i ∧ exec c s = .next t ∧
      i.stores s p c ≠ []) ∧
    (∃ (s t : State) (k : ItemKey) (p : Pitch) (i : Item) (q : Queue), OnItem s k p i ∧ p.queue? k.queue = some q ∧
      exec (.itemComplete k) s = .next t ∧ i.completionStores p q ≠ []) :=
  ⟨⟨.rand key, busy (on (running drawing)), _, key, running drawing, drawing, rfl, ⟨rfl, rfl⟩, rfl, by decide +kernel⟩,
    ⟨on (running { drawing with phase := .finished }), _, key, running { drawing with phase := .finished },
      { drawing with phase := .finished }, que, ⟨rfl, rfl⟩, rfl, rfl, by decide +kernel⟩⟩

theorem witness_SumsAreExact :
    (∃ (a : Acc) (ps us ws : List Int), (∀ u ∈ ps ++ us, u.natAbs < 2 ^ 206) ∧ (ps ++ us).length ≤ 2 ^ 48 ∧ a.sat = false ∧
      a.val.toInt = ps.sum ∧ ws.Perm us) ∧
    (∃ (parts others : List (Nat × List Int)), (∀ u ∈ parts.flatMap (·.2), u.natAbs < 2 ^ 206) ∧
      (parts.flatMap (·.2)).length ≤ 2 ^ 48 ∧ others.Perm parts) :=
  ⟨⟨{ val := 3 }, [3], [2 ^ 206 - 1, -2], [-2, 2 ^ 206 - 1], by decide, by decide, rfl, by decide, .swap _ _ _⟩,
    ⟨[(0, [2 ^ 206 - 1]), (1, [-2, 5])], [(1, [-2, 5]), (0, [2 ^ 206 - 1])], by decide, by decide, .swap _ _ _⟩⟩

theorem witness_DoorbellRule :
    ∃ (s : State) (p : Pitch) (q : Queue), s.pitch? 7 = some p ∧ p.queue? 0 = some q ∧ q.closing = none ∧
      q.tail = 2 ∧ q.ack + q.ringSize = 16 :=
  ⟨on queued, queued, que, rfl, rfl, rfl, rfl, rfl⟩

theorem witness_AckRule :
    ∃ (s : State) (p : Pitch) (q : Queue), s.pitch? 7 = some p ∧ p.queue? 0 = some q ∧ q.unrecorded = 1 :=
  ⟨on { pit with queues := [{ que with recorded := [0] }] }, { pit with queues := [{ que with recorded := [0] }] },
    { que with recorded := [0] }, rfl, rfl, by decide +kernel⟩

theorem witness_PointersStayOrdered :
    ∃ (s : State) (p : Pitch) (q : Queue), s.pitch? 7 = some p ∧ p.queue? 0 = some q ∧ q.Ordered :=
  ⟨on queued, queued, que, rfl, rfl, by decide, by decide, by decide, by decide⟩

theorem witness_DestinationsAreInjective :
    ∃ (b : Bytes) (v w : List Int), (parseDesc b).injective = true ∧ v ∈ (parseDesc b).boxStrips ∧ w ∈ (parseDesc b).boxStrips ∧
      (parseDesc b).stripOff v = (parseDesc b).stripOff w ∧ 1 < (parseDesc b).boxStrips.length :=
  ⟨fld 64 [(0, 8, 2 ^ 53 + 2 ^ 55 + 2 ^ 58), (16, 6, 1 + 2 ^ 30), (22, 6, 1 + 2 ^ 31)], [0, 1], [0, 1], by decide +kernel⟩

theorem witness_DuplicateIsNotExecuted :
    ∃ (s : State) (x : Submission) (e : WinEntry), (s.box 1).submitted = some x ∧ s.ring.holding = false ∧ s.ring.order = [1] ∧
      (s.boxesServe = true ∧ (s.box 1).bound = some x.tag ∧ x.viaHost = true) ∧
      (s.box 1).window.find? (fun e => e.requestId = u64 x.bytes 8) = some e :=
  ⟨boxed { bound := some 7, submitted := some sub, window := [⟨0, none, []⟩] }, sub, ⟨0, none, []⟩, by decide +kernel⟩

theorem witness_EventsAreConsecutive :
    (∃ (c : Instr) (s t : State), s.log.Consecutive ∧ exec c s = .next t ∧ t.log.entries ≠ s.log.entries) ∧
    (∃ (s t : State), s.log.Consecutive ∧ step s = .next t) ∧
    (∃ s : State, s.keepersRun = true ∧ (50000 < 50001 ∧ 50001 ≤ 56000) ∧ s.log.Consecutive) ∧
    (∃ s : State, s.keepersRun = true ∧ (50000 < 56000 ∧ 56000 ≤ 56000) ∧ s.log.Consecutive) :=
  ⟨⟨.overVoltage 50001, base, _, ⟨by decide, 0, rfl, rfl⟩, rfl, by decide +kernel⟩, ⟨base, _, ⟨by decide, 0, rfl, rfl⟩, rfl⟩,
    ⟨base, by decide +kernel, by decide, by decide, 0, rfl, rfl⟩, ⟨base, by decide +kernel, by decide, by decide, 0, rfl, rfl⟩⟩

theorem witness_ForeignFramesAreDiscarded :
    ∃ (s : State) (f : Frame), s.kpr.mod ≠ .keeperOnly ∧ s.fab.assigned = true ∧ isRequest f.typ = true ∧ f.typ ≠ 4 ∧
      (s.die 0).sourceRoom f = true ∧ s.overtakes f = false ∧ f.srcKind ≠ 1 ∧ f.srcKind ≠ 2 ∧ s.dieTag? 0 ≠ some f.tag ∧ s.dieLend? 0 = none :=
  ⟨on pit, foreign, by decide +kernel⟩

theorem witness_DuplicateFramesAreNotExecuted :
    ∃ (s : State) (f : Frame) (x : SourceState) (o : Nat × Frame), s.kpr.mod ≠ .keeperOnly ∧ s.fab.assigned = true ∧
      f.typ = 1 ∧ s.overtakes f = false ∧ s.tagOk 0 f = true ∧ s.suspendRefuses f = false ∧ (s.die 0).source? f = some x ∧
      x.outcomes.find? (fun o => o.1 = f.txn) = some o ∧ o.2.dest / 2 ^ 48 ≠ s.fab.moduleId :=
  ⟨seen, seenFrame, seenBy, (4, { typ := 6, txn := 4, dest := 2 * 2 ^ 48 }), by decide +kernel⟩

theorem witness_ResetLockHolds :
    (∃ (c : Instr) (s t : State), isKeeperFrame c = true ∧ exec c s = .next t ∧ s.kpr.rstLock = true) ∧
    (∃ (s t : State) (d : BitVec 32), (d >>> 16).toNat ≠ 0xA55A ∧ exec (.reset 0 d) s = .next t) :=
  ⟨⟨.reset 0 0xA55A0001, base.setKpr { base.kpr with rstLock := true }, _, rfl, rfl, rfl⟩,
    ⟨base, _, 0xA55B0001, by decide, rfl⟩⟩

theorem witness_LatchedHalvesAreConsistent :
    (∃ (s t : State) (addr : Nat), s.keepersRun = true ∧ isLo addr = true ∧ exec (.registerLoRead 0 addr) s = .next t) ∧
    (∃ (s t : State) (addr : Nat), s.keepersRun = true ∧ isLo addr = true ∧ exec (.registerLoRead 0 (addr + 4)) s = .next t) :=
  ⟨⟨base, _, 0x30, by decide +kernel, by decide, rfl⟩, ⟨base, _, 0x30, by decide +kernel, by decide, rfl⟩⟩

theorem witness_RefusedSubmissions :
    (∃ (s : State) (x : Submission), (s.box 1).submitted = some x ∧ s.ring.holding = false ∧ s.ring.order = [1] ∧ s.boxesServe = true ∧
      ¬ ((s.box 1).bound = some x.tag ∧ x.viaHost = true)) ∧
    (∃ (s : State) (x : Submission), (s.box 1).submitted = some x ∧ s.ring.holding = false ∧ s.ring.order = [1] ∧
      (s.boxesServe = true ∧ (s.box 1).bound = some x.tag ∧ x.viaHost = true) ∧
      (s.box 1).window.find? (fun e => e.requestId = u64 x.bytes 8) = none ∧ (s.box 1).outstanding = 64) ∧
    (∃ (s : State) (x : Submission), (s.box 1).submitted = some x ∧ s.ring.holding = false ∧ s.ring.order = [1] ∧
      (s.boxesServe = true ∧ (s.box 1).bound = some x.tag ∧ x.viaHost = true) ∧
      (s.box 1).window.find? (fun e => e.requestId = u64 x.bytes 8) = none ∧ (s.box 1).outstanding < 64 ∧
      headerOk x.bytes = true ∧ catalogue (u16 x.bytes 0) = some 0) :=
  ⟨⟨boxed { bound := some 8, submitted := some sub }, sub, by decide +kernel⟩,
    ⟨boxed { bound := some 7, submitted := some sub, outstanding := 64 }, sub, by decide +kernel⟩,
    ⟨boxed { bound := some 7, submitted := some { sub with bytes := fld 64 [(0, 2, 0x0101)] }, outstanding := 63 }, { sub with bytes := fld 64 [(0, 2, 0x0101)] },
      by decide +kernel⟩⟩

theorem witness_OldFirmwareNeverRuns :
    (∃ (s t : State), exec .boot s = .next t ∧ s.kpr.mod ≠ .ready ∧ s.fw.writing = true) ∧
    (∃ (s t : State), exec .boot s = .next t ∧ s.kpr.mod ≠ .ready ∧ verifyImage s.fw (s.fw.flash.take s.fw.imageBytes) = none) ∧
    (∃ (s t : State) (i : Image), exec .boot s = .next t ∧ s.kpr.mod ≠ .ready ∧
      verifyImage s.fw (s.fw.flash.take s.fw.imageBytes) = some i) ∧
    (∃ (c : Instr) (s t : State), isFirmware c = true ∧ exec c s = .next t) := by
  refine ⟨⟨booting { holdingImg with control := [] }, _, rfl, by decide +kernel, by decide +kernel⟩,
    ⟨booting { holdingImg with flash := [] }, _, rfl, by decide +kernel, by decide +kernel⟩,
    ⟨booting holdingImg, _, imageFields img, rfl, by decide +kernel, ?_⟩,
    ⟨.fwStageQuery 0, asked base 0x0701 (fld 20 [(0, 1, 4)]), _, rfl, rfl⟩⟩
  exact (congrArg (verifyImage holdingImg) (by decide +kernel)).trans img_verifies

theorem witness_GatesHoldDescriptors :
    ∃ (p : Pitch) (model step : Nat) (m : Model) (t : TokStep) (q : Queue) (pl : Plan), p.model? model = some m ∧
      m.steps.find? (fun t => t.id = step) = some t ∧ p.queue? (gulperQueue model) = some q ∧ p.planOf? m.id = some pl ∧
      pl.stage = 3 ∧ t.epoch = m.epoch :=
  ⟨{ stepping ses (tok false []) with plans := [{ plan with stage := 3 }] }, 1, 0, { mdl ses with steps := [tok false []] },
    tok false [], { ownedQueue (gulperQueue 1) 0 with ended := [(0, stUncorrectable)] }, { plan with stage := 3 }, by decide +kernel⟩

theorem witness_move_convert :
    ∃ (s t : State) (k : ItemKey) (p : Pitch) (i : Item) (pl : Place) (a o : Operand),
      OnItem s k p i ∧ runsMover s p i = some pl ∧ i.operand? 0 = some a ∧ i.dest? = some o ∧ i.w.typ = tyMove ∧
      i.w.c 14 2 ≠ 1 ∧ i.w.c 14 2 ≠ 2 ∧ isRecord a.desc.fmt = false ∧ movePath i.w a.desc o.desc = .convert ∧
      foldKeep (convertMove k p i.w a.desc o i.outMode) s o.desc.boxStrips = (t, none) := by
  refine ⟨busy (on (running (itm 4 0 [slot 0 0, slot 3 0] [some (vec1 0 7 1, none), none, none, some (vec1 4096 6 1, none)]))), ?t, key,
    running (itm 4 0 [slot 0 0, slot 3 0] [some (vec1 0 7 1, none), none, none, some (vec1 4096 6 1, none)]),
    itm 4 0 [slot 0 0, slot 3 0] [some (vec1 0 7 1, none), none, none, some (vec1 4096 6 1, none)], ⟨0, 0⟩, opd 0 (vec1 0 7 1), opd 3 (vec1 4096 6 1),
    ⟨rfl, rfl⟩, by decide +kernel, by decide +kernel, by decide +kernel, by decide +kernel, by decide +kernel, by decide +kernel, by decide +kernel, by decide +kernel, ?h⟩
  case h => (refine kept_eq ?_; decide +kernel)

theorem witness_move_records :
    ∃ (s t : State) (k : ItemKey) (p : Pitch) (i : Item) (pl : Place) (a o : Operand),
      OnItem s k p i ∧ runsMover s p i = some pl ∧ i.operand? 0 = some a ∧ i.dest? = some o ∧ i.w.typ = tyMove ∧
      i.w.c 14 2 ≠ 1 ∧ i.w.c 14 2 ≠ 2 ∧ isRecord a.desc.fmt = true ∧
      foldKeep (copyRecord k p a.desc o) s o.desc.boxStrips = (t, none) := by
  refine ⟨busy (on (running (itm 4 0 [slot 0 0, slot 3 0] [some (vec1 0 8 1, none), none, none, some (vec1 4096 8 1, none)]))), ?t, key,
    running (itm 4 0 [slot 0 0, slot 3 0] [some (vec1 0 8 1, none), none, none, some (vec1 4096 8 1, none)]),
    itm 4 0 [slot 0 0, slot 3 0] [some (vec1 0 8 1, none), none, none, some (vec1 4096 8 1, none)], ⟨0, 0⟩, opd 0 (vec1 0 8 1), opd 3 (vec1 4096 8 1),
    ⟨rfl, rfl⟩, by decide +kernel, by decide +kernel, by decide +kernel, by decide +kernel, by decide +kernel, by decide +kernel, by decide +kernel, ?h⟩
  case h => (refine kept_eq ?_; decide +kernel)

theorem witness_move_compress :
    ∃ (s t : State) (k : ItemKey) (p : Pitch) (i : Item) (pl : Place) (a o : Operand),
      OnItem s k p i ∧ runsMover s p i = some pl ∧ i.operand? 0 = some a ∧ i.dest? = some o ∧ i.w.typ = tyMove ∧
      i.w.c 14 2 = 1 ∧
      compressMove s p k a.desc o = (t, none) := by
  refine ⟨busy (on (running (itm 4 (2 ^ 14) [slot 0 0, slot 3 0] [some (vec1 0 3 1, none), none, none, some (vec1 4096 0 1, none)]))), ?t, key,
    running (itm 4 (2 ^ 14) [slot 0 0, slot 3 0] [some (vec1 0 3 1, none), none, none, some (vec1 4096 0 1, none)]),
    itm 4 (2 ^ 14) [slot 0 0, slot 3 0] [some (vec1 0 3 1, none), none, none, some (vec1 4096 0 1, none)], ⟨0, 0⟩, opd 0 (vec1 0 3 1), opd 3 (vec1 4096 0 1),
    ⟨rfl, rfl⟩, by decide +kernel, by decide +kernel, by decide +kernel, by decide +kernel, by decide +kernel, ?h⟩
  case h => (refine kept_eq ?_; decide +kernel)

/-- A container of four strips. -/
def wide : Bytes := fld 64 [(0, 8, 2 ^ 52 + 2 ^ 55), (16, 6, 1 + 2 ^ 32)]

/-- The stream of one strip of zeros. -/
def zeros : Bytes :=
  codecHeader 3 false 1 (codeChunks .e4m3 2 [(none, List.replicate 32 0)]).length ++
    codeChunks .e4m3 2 [(none, List.replicate 32 0)]

theorem witness_move_decompress :
    ∃ (s t : State) (k : ItemKey) (p : Pitch) (i : Item) (pl : Place) (a o : Operand) (strips : List (Nat × List Nat)),
      OnItem s k p i ∧ runsMover s p i = some pl ∧ i.operand? 0 = some a ∧ i.dest? = some o ∧ i.w.typ = tyMove ∧
      i.w.c 14 2 = 2 ∧ decompressMove s p a.desc o.desc = .ok (some strips) ∧
      foldKeep (streamStrip k o) s (o.desc.boxStrips.zip strips) = (t, none) := by
  refine ⟨stored (busy (on (running (itm 4 (2 ^ 15) [slot 0 0, slot 3 0] [some (wide, none), none, none, some (vec1 4096 3 1, none)])))) 0 zeros, ?t, key,
    running (itm 4 (2 ^ 15) [slot 0 0, slot 3 0] [some (wide, none), none, none, some (vec1 4096 3 1, none)]),
    itm 4 (2 ^ 15) [slot 0 0, slot 3 0] [some (wide, none), none, none, some (vec1 4096 3 1, none)], ⟨0, 0⟩, opd 0 wide, opd 3 (vec1 4096 3 1),
    [(0, List.replicate 32 0)], ⟨rfl, rfl⟩, by decide +kernel, by decide +kernel, by decide +kernel, by decide +kernel, by decide +kernel,
    by decide +kernel, ?h⟩
  case h => (refine kept_eq ?_; decide +kernel)

end Sys2Proof.Tests
end

section
/-! SUPPORT. The exact sums of the accumulators (R36). The total magnitude of a list of addends bounds the sum of every sublist, so
while it stays below 2^255 no order of the additions leaves the range of R34, and an addition puts the exact sum into the value and
leaves the status bits alone. -/

namespace Sys2Proof.Machine

open Sys2Proof

/-- The total magnitude of addends, in units of 2^-112: no partial sum, in any order, lies further from zero. -/
def addendMass (us : List Int) : Nat := (us.map Int.natAbs).sum

@[simp] theorem addendMass_nil : addendMass [] = 0 := rfl

@[simp] theorem addendMass_cons (u : Int) (us : List Int) : addendMass (u :: us) = u.natAbs + addendMass us := by
  simp [addendMass]

@[simp] theorem addendMass_append (us ws : List Int) : addendMass (us ++ ws) = addendMass us + addendMass ws := by
  simp [addendMass]

theorem addendMass_filter_le (p : Int → Bool) (us : List Int) : addendMass (us.filter p) ≤ addendMass us :=
  (List.filter_sublist.map Int.natAbs).sum_le_sum (by simp)

theorem natAbs_sum_le_addendMass (us : List Int) : us.sum.natAbs ≤ addendMass us := by
  induction us with
  | nil => simp
  | cons u us ih =>
    rw [List.sum_cons, addendMass_cons]
    omega

/-- At most 2^48 products, each below 2^206 units (R35), stay below the range of an accumulator together (R37). -/
theorem addendMass_lt_of_products {us : List Int} (hprod : ∀ u ∈ us, u.natAbs < 2 ^ 206) (hcount : us.length ≤ 2 ^ 48) :
    addendMass us < 2 ^ 255 := by
  have hle := List.sum_le_card_nsmul (us.map Int.natAbs) (2 ^ 206) (by simpa using fun u hu => (hprod u hu).le)
  rw [List.length_map, smul_eq_mul] at hle
  unfold addendMass
  omega

theorem sum_filter_pos_add_sum_filter_neg (us : List Int) :
    (us.filter (0 < ·)).sum + (us.filter (· < 0)).sum = us.sum := by
  induction us with
  | nil => rfl
  | cons u us ih =>
    rcases lt_trichotomy u 0 with hu | rfl | hu
    · simpa [hu, hu.le, add_left_comm] using ih
    · simpa using ih
    · simpa [hu, hu.le, add_assoc] using ih

/-- A magnitude below 2^255 units lies in the range of R34. -/
theorem accRange_of_natAbs_lt {z : Int} (hz : z.natAbs < 2 ^ 255) : accMin ≤ z ∧ z ≤ accMax := by
  unfold accMin accMax
  omega

/-- An accumulator with its value put to `z` units of 2^-112 and its status bits as they were. -/
def Acc.withUnits (a : Acc) (z : Int) : Acc := { a with val := BitVec.ofInt 256 z }

@[simp] theorem Acc.withUnits_sat (a : Acc) (z : Int) : (a.withUnits z).sat = a.sat := rfl

@[simp] theorem Acc.withUnits_inv (a : Acc) (z : Int) : (a.withUnits z).inv = a.inv := rfl

@[simp] theorem Acc.withUnits_withUnits (a : Acc) (y z : Int) : (a.withUnits y).withUnits z = a.withUnits z := rfl

/-- The value read back is the value put in, while it lies in the range (R34). -/
theorem Acc.toInt_withUnits (a : Acc) {z : Int} (hz : z.natAbs < 2 ^ 255) : (a.withUnits z).val.toInt = z := by
  rw [Acc.withUnits, BitVec.toInt_ofInt]
  exact Int.bmod_eq_of_le (by omega) (by omega)

/-- While the total magnitude stays in the range, the additions have one outcome: the exact sum. -/
theorem Acc.outcomes_eq_exact {a : Acc} {us : List Int} (hmass : a.val.toInt.natAbs + addendMass us < 2 ^ 255) :
    a.outcomes us = [a.withUnits (a.val.toInt + us.sum)] := by
  have hpos := (natAbs_sum_le_addendMass _).trans (addendMass_filter_le (0 < ·) us)
  have hneg := (natAbs_sum_le_addendMass _).trans (addendMass_filter_le (· < 0) us)
  have hall := natAbs_sum_le_addendMass us
  have hsplit := sum_filter_pos_add_sum_filter_neg us
  simp only [Acc.outcomes, ← List.sum_eq_foldl]
  generalize (us.filter (0 < ·)).sum = hi at *
  generalize (us.filter (· < 0)).sum = lo at *
  have hsum : a.val.toInt + hi + (a.val.toInt + lo) - a.val.toInt = a.val.toInt + us.sum := by omega
  obtain ⟨-, hhi⟩ := accRange_of_natAbs_lt (z := a.val.toInt + hi) (by omega)
  obtain ⟨hlo, -⟩ := accRange_of_natAbs_lt (z := a.val.toInt + lo) (by omega)
  obtain ⟨hmin, hmax⟩ := accRange_of_natAbs_lt (z := a.val.toInt + us.sum) (by omega)
  simp [hsum, hmin, hmax, hhi.not_gt, hlo.not_gt, Acc.withUnits]

theorem Acc.addAll_eq_exact (k : Nat) {a : Acc} {us : List Int} (hsat : a.sat = false)
    (hmass : a.val.toInt.natAbs + addendMass us < 2 ^ 255) :
    a.addAll k us = a.withUnits (a.val.toInt + us.sum) := by
  simp [Acc.addAll, hsat, Acc.outcomes_eq_exact hmass]

theorem Acc.add_eq_exact {a : Acc} {u : Int} (hsat : a.sat = false) (hsum : (a.val.toInt + u).natAbs < 2 ^ 255) :
    a.add u = a.withUnits (a.val.toInt + u) := by
  obtain ⟨hmin, hmax⟩ := accRange_of_natAbs_lt hsum
  simp [Acc.add, hsat, hmin.not_gt, hmax.not_gt, Acc.withUnits]

theorem Acc.bufferAdd_eq_exact {slot a : Acc} (hslot : slot.sat = false) (ha : a.sat = false) (hinv : a.inv = false)
    (hsum : (slot.val.toInt + a.val.toInt).natAbs < 2 ^ 255) :
    slot.bufferAdd a = slot.withUnits (slot.val.toInt + a.val.toInt) := by
  simp [Acc.bufferAdd, hslot, ha, hinv, Acc.add_eq_exact hslot hsum, Acc.withUnits]

/-- A partial sum made from an empty accumulator, added into a slot that holds `z`. -/
theorem Acc.bufferAdd_addAll {z : Int} {us : List Int} (k : Nat) (hmass : z.natAbs + addendMass us < 2 ^ 255) :
    (Acc.withUnits {} z).bufferAdd (Acc.addAll k {} us) = Acc.withUnits {} (z + us.sum) := by
  have hus := natAbs_sum_le_addendMass us
  have hslot : (Acc.withUnits {} z).val.toInt = z := Acc.toInt_withUnits {} (by omega)
  have hzero : (({} : Acc).val).toInt = 0 := by decide
  have hpart : Acc.addAll k {} us = Acc.withUnits {} us.sum := by
    rw [Acc.addAll_eq_exact k rfl (by omega), hzero, zero_add]
  have hval : (Acc.withUnits {} us.sum).val.toInt = us.sum := Acc.toInt_withUnits {} (by omega)
  rw [hpart, Acc.bufferAdd_eq_exact rfl rfl rfl (by omega), hslot, hval, Acc.withUnits_withUnits]

/-- Partial sums added one after the other into a slot that holds `z` leave the exact sum there. -/
theorem Acc.foldl_bufferAdd_addAll (parts : List (Nat × List Int)) {z : Int}
    (hmass : z.natAbs + addendMass (parts.flatMap (·.2)) < 2 ^ 255) :
    parts.foldl (fun a x => a.bufferAdd (Acc.addAll x.1 {} x.2)) (Acc.withUnits {} z) =
      Acc.withUnits {} (z + (parts.flatMap (·.2)).sum) := by
  induction parts generalizing z with
  | nil => simp
  | cons x parts ih =>
    rw [List.flatMap_cons, addendMass_append] at hmass
    have hx := natAbs_sum_le_addendMass x.2
    rw [List.foldl_cons, Acc.bufferAdd_addAll x.1 (by omega), ih (by omega), List.flatMap_cons, List.sum_append, add_assoc]

/-- The slot that starts empty (R91): the exact sum of all the products behind its partial sums. -/
theorem Acc.foldl_bufferAdd_empty {parts : List (Nat × List Int)} (hmass : addendMass (parts.flatMap (·.2)) < 2 ^ 255) :
    parts.foldl (fun a x => a.bufferAdd (Acc.addAll x.1 {} x.2)) {} = Acc.withUnits {} (parts.flatMap (·.2)).sum := by
  have hempty : ({} : Acc) = Acc.withUnits {} 0 := by decide
  have hfold := Acc.foldl_bufferAdd_addAll parts (z := 0) (by simpa using hmass)
  rwa [← hempty, zero_add] at hfold

/-- R36 for additions straight into an accumulator. -/
theorem Acc.addAll_exact_any_order {k : Nat} {a : Acc} {ps us : List Int} (hmass : addendMass (ps ++ us) < 2 ^ 255)
    (hsat : a.sat = false) (hval : a.val.toInt = ps.sum) :
    (a.addAll k us).val.toInt = ps.sum + us.sum ∧ (a.addAll k us).sat = false ∧ (a.addAll k us).inv = a.inv ∧
    ∀ (j : Nat) (ws : List Int), ws.Perm us → a.addAll j ws = a.addAll k us := by
  rw [addendMass_append] at hmass
  have hps := natAbs_sum_le_addendMass ps
  have hus := natAbs_sum_le_addendMass us
  have hexact : a.addAll k us = a.withUnits (ps.sum + us.sum) := by
    rw [Acc.addAll_eq_exact k hsat (by omega), hval]
  rw [hexact]
  refine ⟨a.toInt_withUnits (by omega), hsat, rfl, fun j ws hperm => ?_⟩
  have hws : addendMass ws = addendMass us := (hperm.map Int.natAbs).sum_eq
  rw [Acc.addAll_eq_exact j hsat (by omega), hval, hperm.sum_eq]

/-- R36 for partial sums added into the accumulator buffer. -/
theorem Acc.bufferAdd_exact_any_order {parts : List (Nat × List Int)} (hmass : addendMass (parts.flatMap (·.2)) < 2 ^ 255) :
    (Acc.withUnits {} (parts.flatMap (·.2)).sum).val.toInt = (parts.flatMap (·.2)).sum ∧
    ∀ (others : List (Nat × List Int)), others.Perm parts →
      others.foldl (fun a x => a.bufferAdd (Acc.addAll x.1 {} x.2)) {} = Acc.withUnits {} (parts.flatMap (·.2)).sum := by
  refine ⟨Acc.toInt_withUnits {} ((natAbs_sum_le_addendMass _).trans_lt hmass), fun others hperm => ?_⟩
  have hproducts : (others.flatMap (·.2)).Perm (parts.flatMap (·.2)) := hperm.flatMap_right (·.2)
  have hothers : addendMass (others.flatMap (·.2)) = addendMass (parts.flatMap (·.2)) :=
    (hproducts.map Int.natAbs).sum_eq
  rw [Acc.foldl_bufferAdd_empty (hothers.trans_lt hmass), hproducts.sum_eq]

/-- Settles O47: products below 2^206 units, at most 2^48 of them, have a total magnitude below 2^255, so every addition is exact. -/
theorem sumsAreExact : Obligations.SumsAreExact := by
  unfold Obligations.SumsAreExact
  refine ⟨fun k a ps us hprod hcount hsat hval => ?_, fun parts slot hprod hcount hslot => ?_⟩
  · exact Acc.addAll_exact_any_order (addendMass_lt_of_products hprod hcount) hsat hval
  · have hmass := addendMass_lt_of_products hprod hcount
    obtain ⟨hsum, horder⟩ := Acc.bufferAdd_exact_any_order hmass
    rw [hslot.trans (Acc.foldl_bufferAdd_empty hmass)]
    exact ⟨hsum, rfl, rfl, horder⟩

end Sys2Proof.Machine
end

section
/-! SUPPORT. What a read of a pitch or of a queue finds after an update of the one of that tag or id, what a doorbell does to an
open queue in each case of R142, and the settlement of the doorbell rule. -/

namespace Sys2Proof.Machine

open Sys2Proof

/-- Where the entries of key `k` are updated and keep their key, the first entry of that key is the old one updated. -/
theorem find?_map_update_key {α κ : Type} [DecidableEq κ] (key : α → κ) (k : κ) (f : α → α) (hkey : ∀ x, key (f x) = key x)
    (l : List α) :
    (l.map fun x => if key x = k then f x else x).find? (fun x => key x = k) = (l.find? fun x => key x = k).map f := by
  induction l with
  | nil => rfl
  | cons x l ih =>
    by_cases hx : key x = k
    · simp [hx, hkey]
    · simpa [hx] using ih

theorem State.pitch?_updPitch_same (s : State) (tag : Nat) (f : Pitch → Pitch) (htag : ∀ p, (f p).tag = p.tag) :
    (s.updPitch tag f).pitch? tag = (s.pitch? tag).map f :=
  find?_map_update_key Pitch.tag tag f htag s.pitches

theorem Pitch.queue?_updQueue_same (p : Pitch) (id : Nat) (f : Queue → Queue) (hid : ∀ q, (f q).id = q.id) :
    (p.updQueue id f).queue? id = (p.queue? id).map f :=
  find?_map_update_key Queue.id id f hid p.queues

@[simp] theorem Pitch.tag_updQueue (p : Pitch) (id : Nat) (f : Queue → Queue) : (p.updQueue id f).tag = p.tag := rfl

/-- An update of a queue of a pitch is what a later read of that queue finds. -/
theorem State.updQueue_found {s : State} {tag id : Nat} {p : Pitch} {q : Queue} (hp : s.pitch? tag = some p)
    (hq : p.queue? id = some q) {f : Queue → Queue} (hid : ∀ q, (f q).id = q.id) :
    (s.updQueue tag id f).pitch? tag = some (p.updQueue id f) ∧ (p.updQueue id f).queue? id = some (f q) := by
  constructor
  · rw [State.updQueue, State.pitch?_updPitch_same _ _ _ fun p => p.tag_updQueue id f, hp, Option.map_some]
  · rw [Pitch.queue?_updQueue_same _ _ _ hid, hq, Option.map_some]

theorem Queue.doorbell_of_le_tail {q : Queue} {t : Nat} (ht : t ≤ q.tail) : q.doorbell t = q := by
  simp [Queue.doorbell, ht]

theorem Queue.doorbell_of_past_ring {q : Queue} {t : Nat} (hopen : q.closing = none) (ht : q.tail < t)
    (hring : q.ack + q.ringSize < t) :
    q.doorbell t = { q with refused := true, refusals := satInc q.refusals 0xFFFF } := by
  simp [Queue.doorbell, hopen, ht.not_ge, hring]

theorem Queue.doorbell_of_in_ring {q : Queue} {t : Nat} (hopen : q.closing = none) (ht : q.tail < t)
    (hring : t ≤ q.ack + q.ringSize) : q.doorbell t = { q with tail := t, refused := false } := by
  simp [Queue.doorbell, hopen, ht.not_ge, hring.not_gt]

@[simp] theorem Queue.id_doorbell (q : Queue) (t : Nat) : (q.doorbell t).id = q.id := by
  unfold Queue.doorbell
  split_ifs <;> rfl

/-- A doorbell's value is one 64-bit field of the control page (R141), taken as it is where it fits. -/
theorem exec_doorbell_of_lt {v : Nat} (hv : v < 2 ^ 64) (tag queue : Nat) (s : State) :
    exec (.doorbell tag queue v) s = .next (s.updQueue tag queue fun q => q.doorbell v) := by
  show execDoorbell tag queue v s = _
  rw [execDoorbell, Nat.mod_eq_of_lt hv]

/-- Settles O48: the queue that the doorbell names is found again with `Queue.doorbell` applied, whose three cases are R142's. -/
theorem doorbellRule : Obligations.DoorbellRule := by
  unfold Obligations.DoorbellRule
  intro s tag queue v p q hp hq hopen hv
  obtain ⟨hp', hq'⟩ := State.updQueue_found hp hq (f := fun q => q.doorbell v) fun q => q.id_doorbell v
  refine ⟨_, _, exec_doorbell_of_lt hv tag queue s, hp', hq'.trans (congrArg some ?_)⟩
  by_cases hle : v ≤ q.tail
  · rw [if_pos hle, Queue.doorbell_of_le_tail hle]
  · rw [if_neg hle]
    by_cases hring : q.ack + q.ringSize < v
    · rw [if_pos hring, Queue.doorbell_of_past_ring hopen (not_le.mp hle) hring, satInc]
    · rw [if_neg hring, Queue.doorbell_of_in_ring hopen (not_le.mp hle) (not_lt.mp hring)]

end Sys2Proof.Machine
end

section
/-! SUPPORT. What the frames of the keeper port change (R432, R433, R435): no register write touches the TAGs of the WRITEs performed
or the frames sent, no register's value depends on the frames that have come, and the settlement of the rule that a WRITE is performed
once. -/

namespace Sys2Proof.Machine

open Sys2Proof

/-! ### The effect of a register write leaves the TAGs of the WRITEs performed and the frames sent as they were -/

/-- What answering a WRITE frame records (R433): its TAG among those of the WRITEs performed, and its answer among the frames sent. -/
def State.writeRecord (s : State) : List Nat × List Sent := (s.kpr.writeTags, s.sent)

theorem State.writeTags_of_writeRecord {s t : State} (h : t.writeRecord = s.writeRecord) : t.kpr.writeTags = s.kpr.writeTags :=
  congrArg Prod.fst h

theorem State.sent_of_writeRecord {s t : State} (h : t.writeRecord = s.writeRecord) : t.sent = s.sent :=
  congrArg Prod.snd h

@[simp] theorem State.writeRecord_arrived (s : State) : s.arrived.writeRecord = s.writeRecord := rfl

@[simp] theorem State.writeRecord_setKpr (s : State) {k : Keeper} (h : k.writeTags = s.kpr.writeTags) :
    (s.setKpr k).writeRecord = s.writeRecord :=
  congrArg (·, s.sent) h

@[simp] theorem State.writeRecord_setPower (s : State) (p : Power) : (s.setPower p).writeRecord = s.writeRecord := rfl

@[simp] theorem State.writeRecord_updPort (s : State) (port : Nat) (f : Port → Port) :
    (s.updPort port f).writeRecord = s.writeRecord := rfl

@[simp] theorem State.writeRecord_writeReset (s : State) (d : BitVec 32) : (s.writeReset d).writeRecord = s.writeRecord := rfl

@[simp] theorem State.writeRecord_clearAlerts (s : State) (d : BitVec 32) : (s.clearAlerts d).writeRecord = s.writeRecord := rfl

@[simp] theorem State.writeRecord_submitTo (s : State) (m : Nat) (x : Submission) :
    (s.submitTo m x).writeRecord = s.writeRecord := rfl

@[simp] theorem State.writeRecord_writeReq (s : State) (off : Nat) (d : BitVec 32) :
    (s.writeReq off d).writeRecord = s.writeRecord := by
  unfold State.writeReq
  split_ifs <;> rfl

@[simp] theorem State.writeRecord_ringDoorbell (s : State) (d : BitVec 32) : (s.ringDoorbell d).writeRecord = s.writeRecord := by
  unfold State.ringDoorbell
  split_ifs
  · exact s.writeRecord_submitTo 0 _
  · rfl

@[simp] theorem State.writeRecord_releaseRsp (s : State) (d : BitVec 32) : (s.releaseRsp d).writeRecord = s.writeRecord := by
  unfold State.releaseRsp
  split
  · rfl
  · dsimp only
    split_ifs <;> rfl

@[simp] theorem State.writeRecord_clearCounters (s : State) (port : Nat) (d : BitVec 32) :
    (s.clearCounters port d).writeRecord = s.writeRecord := by
  unfold State.clearCounters
  split_ifs
  · exact s.writeRecord_updPort port _
  · rfl

/-- One case for each register of the address map that a WRITE can change. -/
@[simp] theorem State.writeRecord_writeReg (s : State) (addr : Nat) (d : BitVec 32) :
    (s.writeReg addr d).writeRecord = s.writeRecord := by
  unfold State.writeReg
  repeat' split
  all_goals simp

/-! ### Register values do not depend on the frames that have come -/

@[simp] theorem State.readIdentity_arrived (s : State) (addr : Nat) : s.arrived.readIdentity addr = s.readIdentity addr := rfl

@[simp] theorem State.readPower_arrived (s : State) (off : Nat) : s.arrived.readPower off = s.readPower off := rfl

@[simp] theorem State.readLog_arrived (s : State) (off : Nat) : s.arrived.readLog off = s.readLog off := rfl

@[simp] theorem State.readMbx0_arrived (s : State) (addr : Nat) : s.arrived.readMbx0 addr = s.readMbx0 addr := rfl

@[simp] theorem State.readPort_arrived (s : State) (port off : Nat) : s.arrived.readPort port off = s.readPort port off := rfl

@[simp] theorem State.readDie'_arrived (s : State) (die off : Nat) : s.arrived.readDie' die off = s.readDie' die off := rfl

/-- Register values do not depend on `Keeper.arrivals`: shown window by window of the register map (R435). -/
@[simp] theorem State.readLive_arrived (s : State) (addr : Nat) : s.arrived.readLive addr = s.readLive addr := by
  unfold State.readLive
  dsimp only
  rw [State.readIdentity_arrived, State.readPower_arrived, State.readLog_arrived, State.readMbx0_arrived,
    State.readPort_arrived, State.readDie'_arrived]

@[simp] theorem State.readReg_arrived (s : State) (addr : Nat) : s.arrived.readReg addr = s.readReg addr := by
  have hlatches : s.arrived.kpr.latches = s.kpr.latches := rfl
  simp [State.readReg, hlatches]

/-! ### The frames -/

/-- A READ at an aligned address: the latches it leaves, and the register's value in the answer (R432, R435). -/
theorem State.kprRead_of_aligned {s : State} {addr : Nat} (hrun : s.keepersRun = true) (haligned : addr % 4 = 0) (ktag : Nat) :
    s.kprRead ktag addr = (s.arrived.afterRead addr).send (kprSent 0x81 ktag addr (s.readReg addr)) := by
  simp [State.kprRead, hrun, haligned]

/-- A WRITE whose TAG is remembered: acknowledged only (R433). -/
theorem State.kprWrite_of_remembered {s : State} {ktag addr : Nat} (hrun : s.keepersRun = true) (haligned : addr % 4 = 0)
    (htag : s.kpr.writeTags.contains ktag = true) (d : BitVec 32) :
    s.kprWrite ktag addr d = s.arrived.send (kprSent 0x82 ktag addr 0) := by
  have htag' : s.arrived.kpr.writeTags.contains ktag = true := htag
  simp only [State.kprWrite, hrun, haligned, htag', Bool.not_true, bne_self_eq_false, Bool.false_eq_true, if_true, if_false]

/-- A WRITE whose TAG is not remembered: performed, remembered and acknowledged (R433). -/
theorem State.kprWrite_of_new {s : State} {ktag addr : Nat} (hrun : s.keepersRun = true) (haligned : addr % 4 = 0)
    (htag : s.kpr.writeTags.contains ktag = false) (d : BitVec 32) :
    s.kprWrite ktag addr d =
      ((s.arrived.writeReg addr d).setKpr { (s.arrived.writeReg addr d).kpr with
        writeTags := (ktag :: (s.arrived.writeReg addr d).kpr.writeTags).take 8 }).send (kprSent 0x82 ktag addr 0) := by
  have htag' : s.arrived.kpr.writeTags.contains ktag = false := htag
  simp only [State.kprWrite, hrun, haligned, htag', Bool.not_true, bne_self_eq_false, Bool.false_eq_true, if_false]

theorem exec_registerWrite (ktag addr : Nat) (d : BitVec 32) (s : State) :
    exec (.registerWrite ktag addr d) s = .next (s.kprWrite ktag addr d) := rfl

theorem exec_registerLoRead (ktag addr : Nat) (s : State) :
    exec (.registerLoRead ktag addr) s = .next (s.kprRead ktag addr) := rfl

/-- Settles O46: a remembered TAG skips `State.writeReg`, which for a new TAG leaves the record of the WRITEs as it was, so that
exactly this TAG and this answer come to it; and a READ answers what `State.readReg` gives and writes the latches alone. -/
theorem keeperWritesOnce : Obligations.KeeperWritesOnce := by
  unfold Obligations.KeeperWritesOnce
  refine ⟨fun s ktag addr d hrun haligned htag => ?_, fun s ktag addr d hrun haligned htag => ?_,
    fun s ktag addr hrun haligned => ?_⟩
  · rw [exec_registerWrite, State.kprWrite_of_remembered hrun haligned htag]
  · have hrecord := (s.arrived.writeRecord_writeReg addr d).trans s.writeRecord_arrived
    refine ⟨_, (exec_registerWrite ktag addr d s).trans (congrArg _ (State.kprWrite_of_new hrun haligned htag d)), ?_, ?_⟩
    · simp [State.writeTags_of_writeRecord hrecord]
    · simp [State.sent_of_writeRecord hrecord]
  · exact ⟨_, (exec_registerLoRead ktag addr s).trans (congrArg _ (State.kprRead_of_aligned hrun haligned ktag))⟩

end Sys2Proof.Machine
end

section
/-! SUPPORT. What every step keeps: the byte stores in their canonical form with the queue of waiting commands, and the event log as a
ring of consecutive entries. One arm for each command, and its settlements. -/

namespace Sys2Proof.Machine

open Sys2Proof

/-! ### The byte stores and the queue -/

/-- A command that leaves the byte stores and the queue as they were keeps them canonical. -/
theorem OutSame.outOk {wq : List Instr} {s : State} {o : Host.Outcome State Fault Refusal} (hsame : OutSame s o)
    (h : StoreOk wq s.store) : OutOk wq o := by
  cases o with
  | next t =>
    rw [outOk_next, (outSame_next s t).mp hsame]
    exact h
  | fault r => trivial
  | refused r => trivial

/-- Every command keeps the byte stores canonical and the queue of waiting commands as it was. -/
theorem outOk_exec {wq : List Instr} (c : Instr) (s : State) (h : StoreOk wq s.store) : OutOk wq (exec c s) :=
  match c with
  | .pitchCreate seq => ok_execPitchCreate seq s h
  | .pitchRelease seq => ok_execPitchRelease seq s h
  | .pitchBindPort seq => (same_execPitchBindPort seq s).outOk h
  | .pitchSuspend seq => (same_execPitchSuspend seq s).outOk h
  | .pitchResume seq => (same_execPitchResume seq s).outOk h
  | .pitchQuery seq => (same_execPitchQuery seq s).outOk h
  | .pitchMeterRead seq => (same_execPitchMeterRead seq s).outOk h
  | .workQueueOpen seq => (same_execWorkQueueOpen seq s).outOk h
  | .workQueueClose seq => ok_execWorkQueueClose seq s h
  | .workAbort seq => ok_execWorkAbort seq s h
  | .workContextSave seq => ok_execWorkContextSave seq s h
  | .workContextRestore seq => ok_execWorkContextRestore seq s h
  | .svcModelLoad seq => (same_execSvcModelLoad seq s).outOk h
  | .svcSessionOpen seq => ok_execSvcSessionOpen seq s h
  | .svcSubmit seq => ok_execSvcSubmit seq s h
  | .svcSessionPause seq => (same_execSvcSessionPause seq s).outOk h
  | .pauseRecordWritten tag model session => ok_execPauseRecordWritten tag model session s h
  | .svcSessionResume seq => ok_execSvcSessionResume seq s h
  | .svcSessionClose seq => ok_execSvcSessionClose seq s h
  | .svcBoothConfig seq => (same_execSvcBoothConfig seq s).outOk h
  | .trnRunConfig seq => (same_execTrnRunConfig seq s).outOk h
  | .trnUpdateRuleSet seq => ok_execTrnUpdateRuleSet seq s h
  | .trnScheduleSet seq => (same_execTrnScheduleSet seq s).outOk h
  | .trnCheckpointConfigure seq => (same_execTrnCheckpointConfigure seq s).outOk h
  | .trnCheckpointNow seq => (same_execTrnCheckpointNow seq s).outOk h
  | .trnCheckpointRestore seq => ok_execTrnCheckpointRestore seq s h
  | .trnCheckpointQuery seq => (same_execTrnCheckpointQuery seq s).outOk h
  | .trnStepMultiplier seq => (same_execTrnStepMultiplier seq s).outOk h
  | .turnPlan seq => (same_execTurnPlan seq s).outOk h
  | .turnStartStart seq => (same_execTurnStartStart seq s).outOk h
  | .turnStartStop seq => (same_execTurnStartStop seq s).outOk h
  | .turnStartContinue seq => (same_execTurnStartContinue seq s).outOk h
  | .turnStatus seq => (same_execTurnStatus seq s).outOk h
  | .turnRewardPost seq => ok_execTurnRewardPost seq s h
  | .fabPortSet seq => (same_execFabPortSet seq s).outOk h
  | .fabRouteSet seq => (same_execFabRouteSet seq s).outOk h
  | .fabDiscoverQuery seq => (same_execFabDiscoverQuery seq s).outOk h
  | .fabDiscoverSetId seq => (same_execFabDiscoverSetId seq s).outOk h
  | .fabDiscoverRefresh seq => (same_execFabDiscoverRefresh seq s).outOk h
  | .fabBridgeSet seq => (same_execFabBridgeSet seq s).outOk h
  | .fwStageBegin seq => ok_execFwStageBegin seq s h
  | .fwStageData seq => ok_execFwStageData seq s h
  | .fwStageVerify seq => (same_execFwStageVerify seq s).outOk h
  | .fwStageDiscard seq => ok_execFwStageDiscard seq s h
  | .fwStageQuery seq => (same_execFwStageQuery seq s).outOk h
  | .fwActivate seq => (same_execFwActivate seq s).outOk h
  | .flashRewriteDone good => ok_execFlashRewriteDone good s h
  | .standbyReadyTimeout => (same_execStandbyReadyTimeout s).outOk h
  | .handoverBoundaryTimeout => (same_execHandoverBoundaryTimeout s).outOk h
  | .attestQuote seq => (same_execAttestQuote seq s).outOk h
  | .devIdentity seq => (same_execDevIdentity seq s).outOk h
  | .bistRun seq => (same_execBistRun seq s).outOk h
  | .repairSoft seq => ok_execRepairSoft seq s h
  | .repairFuse seq => (same_execRepairFuse seq s).outOk h
  | .bistResult seq => (same_execBistResult seq s).outOk h
  | .pwrDieStateQuery seq => (same_execPwrDieStateQuery seq s).outOk h
  | .pwrDieStateSetCap seq => (same_execPwrDieStateSetCap seq s).outOk h
  | .pwrDieStateSetIdle seq => (same_execPwrDieStateSetIdle seq s).outOk h
  | .pwrDieStateDrain seq => ok_execPwrDieStateDrain seq s h
  | .pwrDieStateReturn seq => ok_execPwrDieStateReturn seq s h
  | .pwrDieStateOff seq => ok_execPwrDieStateOff seq s h
  | .pwrDieStateKeeperOnly seq => ok_execPwrDieStateKeeperOnly seq s h
  | .pwrDieStateExit seq => (same_execPwrDieStateExit seq s).outOk h
  | .telemetryRead seq => (same_execTelemetryRead seq s).outOk h
  | .eventLogRead seq => (same_execEventLogRead seq s).outOk h
  | .logicalClusterMove tag lcluster => ok_execLogicalClusterMove tag lcluster s h
  | .doorbell tag queue value => (same_execDoorbell tag queue value s).outOk h
  | .ackWr tag queue value => (same_execAckWr tag queue value s).outOk h
  | .controlPageWriteInvalid tag queue offset data => (same_execControlPageWriteInvalid tag queue offset data s).outOk h
  | .descriptorConsume tag queue => ok_execDescriptorConsume tag queue s h
  | .itemReady key => ok_execItemReady key s h
  | .itemStaged key => (same_execItemStaged key s).outOk h
  | .carouselDispatch place engine => (same_execCarouselDispatch place engine s).outOk h
  | .clusterWake place => (same_execClusterWake place s).outOk h
  | .mma key => ok_execMma key s h
  | .arrayTileHandoff key => ok_execArrayTileHandoff key s h
  | .ewOperation key => ok_execEwOperation key s h
  | .mvp key => ok_execMvp key s h
  | .mvpStripHandoff key => ok_execMvpStripHandoff key s h
  | .vec key => ok_execVec key s h
  | .sample key => ok_execSample key s h
  | .logsoftmax key => ok_execLogsoftmax key s h
  | .move key => ok_execMove key s h
  | .collective key => ok_execCollective key s h
  | .collectivePass1AtRoot tag ident => (same_execCollectivePass1AtRoot tag ident s).outOk h
  | .collectiveAnchorReceived key => ok_execCollectiveAnchorReceived key s h
  | .collectiveResultWritten tag ident => ok_execCollectiveResultWritten tag ident s h
  | .rand key => ok_execRand key s h
  | .signal key => ok_execSignal key s h
  | .wait key => ok_execWait key s h
  | .itemComplete key => ok_execItemComplete key s h
  | .runningItemAbortStop key => ok_execRunningItemAbortStop key s h
  | .stridedGapFault key => ok_execStridedGapFault key s h
  | .scaleRecheckFail key => ok_execScaleRecheckFail key s h
  | .uncorrectableRead key at_ => ok_execUncorrectableRead key at_ s h
  | .correctedErrorWriteback die place => (same_execCorrectedErrorWriteback die place s).outOk h
  | .patrolScrub die place symbols => (same_execPatrolScrub die place symbols s).outOk h
  | .rowRepairInService die kind row => (same_execRowRepairInService die kind row s).outOk h
  | .logicalClusterSwitch place lcluster => ok_execLogicalClusterSwitch place lcluster s h
  | .clusterDoze place => (same_execClusterDoze place s).outOk h
  | .clusterRest place => (same_execClusterRest place s).outOk h
  | .dramPllStop die => (same_execDramPllStop die s).outOk h
  | .tokenStepForm tag model => ok_execTokenStepForm tag model s h
  | .tokenStepCommit tag model step latencyNs results => ok_execTokenStepCommit tag model step latencyNs results s h
  | .boothResumePass tag model => ok_execBoothResumePass tag model s h
  | .boothModeChange tag model => (same_execBoothModeChange tag model s).outOk h
  | .tokenStepFail tag model step => ok_execTokenStepFail tag model step s h
  | .hashedBlockUncorrectable tag model block => ok_execHashedBlockUncorrectable tag model block s h
  | .sessionExpire tag model session => (same_execSessionExpire tag model session s).outOk h
  | .rewardProgramRun tag run => ok_execRewardProgramRun tag run s h
  | .learnProgramRun tag run => (same_execLearnProgramRun tag run s).outOk h
  | .rolloutEnd tag run admitSeq => ok_execRolloutEnd tag run admitSeq s h
  | .phaseStart tag run => (same_execPhaseStart tag run s).outOk h
  | .turnoverOpen tag run => (same_execTurnoverOpen tag run s).outOk h
  | .turnoverArmed tag run => (same_execTurnoverArmed tag run s).outOk h
  | .drainEnd tag run => (same_execDrainEnd tag run s).outOk h
  | .swapStart tag run => ok_execSwapStart tag run s h
  | .layerWindowOpen tag run layer => ok_execLayerWindowOpen tag run layer s h
  | .layerGateOpen tag run layer => ok_execLayerGateOpen tag run layer s h
  | .turnoverDone tag run => (same_execTurnoverDone tag run s).outOk h
  | .windowOpenTimeout tag run layer => (same_execWindowOpenTimeout tag run layer s).outOk h
  | .crusherDelivery tag ident => (same_execCrusherDelivery tag ident s).outOk h
  | .blockUpdate tag run layer block => ok_execBlockUpdate tag run layer block s h
  | .blockMissed tag run layer block => ok_execBlockMissed tag run layer block s h
  | .heldBlockStage tag run layer block => ok_execHeldBlockStage tag run layer block s h
  | .heldBlocksApply tag run ldie => ok_execHeldBlocksApply tag run ldie s h
  | .laggedMultWaitEnd tag run layer block => ok_execLaggedMultWaitEnd tag run layer block s h
  | .normPartialSend tag run ldie => (same_execNormPartialSend tag run ldie s).outOk h
  | .runStepCommit tag run => ok_execRunStepCommit tag run s h
  | .kronRefreshDone tag run layer block => ok_execKronRefreshDone tag run layer block s h
  | .emissionSend tag run layer block => ok_execEmissionSend tag run layer block s h
  | .checkpointLayerSend tag run ldie layer => ok_execCheckpointLayerSend tag run ldie layer s h
  | .checkpointSlotComplete tag run => ok_execCheckpointSlotComplete tag run s h
  | .checkpointTimeout tag run => ok_execCheckpointTimeout tag run s h
  | .linkFrameReceive port frame => (same_execLinkFrameReceive port frame s).outOk h
  | .nakReceive port n => (same_execNakReceive port n s).outOk h
  | .replayLimit port => (same_execReplayLimit port s).outOk h
  | .linkCtrlReceive port ctrl => (same_execLinkCtrlReceive port ctrl s).outOk h
  | .creditReturnTimer port => (same_execCreditReturnTimer port s).outOk h
  | .routeFrame die index => ok_execRouteFrame die index s h
  | .routingFaultDiscard die index => (same_execRoutingFaultDiscard die index s).outOk h
  | .replayTakeback port => (same_execReplayTakeback port s).outOk h
  | .e2eFrameDeliver die frame => ok_execE2eFrameDeliver die frame s h
  | .e2eResponseReceive die frame => ok_execE2eResponseReceive die frame s h
  | .e2eResendTimer die txn => (same_execE2eResendTimer die txn s).outOk h
  | .e2eTransactionFail die txn => ok_execE2eTransactionFail die txn s h
  | .hostIngress port vc frame => (same_execHostIngress port vc frame s).outOk h
  | .controlPageWriteRelease port => (same_execControlPageWriteRelease port s).outOk h
  | .hostWindowEgress die frame => ok_execHostWindowEgress die frame s h
  | .helloReceive port hello => (same_execHelloReceive port hello s).outOk h
  | .helloTimer => (same_execHelloTimer s).outOk h
  | .portSignalDetect port lanes => (same_execPortSignalDetect port lanes s).outOk h
  | .portTrainDone port hello => (same_execPortTrainDone port hello s).outOk h
  | .portTrainTimeout port => (same_execPortTrainTimeout port s).outOk h
  | .portDown port => (same_execPortDown port s).outOk h
  | .laneFail port lane => (same_execLaneFail port lane s).outOk h
  | .msgSegmentReceive frame => (same_execMsgSegmentReceive frame s).outOk h
  | .msgStatusRead frame => (same_execMsgStatusRead frame s).outOk h
  | .msgAssemblyTimeout mailbox => (same_execMsgAssemblyTimeout mailbox s).outOk h
  | .requestSubmit mailbox => (same_execRequestSubmit mailbox s).outOk h
  | .fenceRelease seq => (same_execFenceRelease seq s).outOk h
  | .replayEntryExpire mailbox requestId => (same_execReplayEntryExpire mailbox requestId s).outOk h
  | .coordinationTimeout seq => (same_execCoordinationTimeout seq s).outOk h
  | .suspendTimeout tag => (same_execSuspendTimeout tag s).outOk h
  | .ringmasterTakeover => ok_execRingmasterTakeover s h
  | .heartbeatTimeout pair => ok_execHeartbeatTimeout pair s h
  | .serviceCoreFault core => (same_execServiceCoreFault core s).outOk h
  | .takeoverResume => (same_execTakeoverResume s).outOk h
  | .boot => ok_execBoot s h
  | .recoveryAnnounce => (same_execRecoveryAnnounce s).outOk h
  | .powerOnSequence vinMv => (same_execPowerOnSequence vinMv s).outOk h
  | .railRegulationTimeout die rail => ok_execRailRegulationTimeout die rail s h
  | .undervoltageReset vinMv => ok_execUndervoltageReset vinMv s h
  | .overvoltageReset vinMv => ok_execOvervoltageReset vinMv s h
  | .overVoltage vinMv => (same_execOverVoltage vinMv s).outOk h
  | .resetNAssert us => ok_execResetNAssert us s h
  | .modEnableDeassert us => ok_execModEnableDeassert us s h
  | .dipBegin vinMv => (same_execDipBegin vinMv s).outOk h
  | .dipInputRise vinMv => (same_execDipInputRise vinMv s).outOk h
  | .dipEnd vinMv => (same_execDipEnd vinMv s).outOk h
  | .powerControlEval power1ms power10ms currentMa => (same_execPowerControlEval power1ms power10ms currentMa s).outOk h
  | .stepChangeDone die => (same_execStepChangeDone die s).outOk h
  | .thermalControlEval die tj sensor => ok_execThermalControlEval die tj sensor s h
  | .thermalTrip die tj => ok_execThermalTrip die tj s h
  | .phaseLost die rail phase => ok_execPhaseLost die rail phase s h
  | .keeperOnlyEntry cause => ok_execKeeperOnlyEntry cause s h
  | .pwarnEval watts => (same_execPwarnEval watts s).outOk h
  | .meterMinute => (same_execMeterMinute s).outOk h
  | .unmarchedFirstWrite die page => (same_execUnmarchedFirstWrite die page s).outOk h
  | .backgroundMarchPage die page => (same_execBackgroundMarchPage die page s).outOk h
  | .testWindowLost die => ok_execTestWindowLost die s h
  | .testComplete die failures => ok_execTestComplete die failures s h
  | .sparesTestAfterPowerOn die failures => ok_execSparesTestAfterPowerOn die failures s h
  | .keeperFrameReject frame => (same_execKeeperFrameReject frame s).outOk h
  | .reset ktag data => ok_execReset ktag data s h
  | .rstLock ktag data => ok_execRstLock ktag data s h
  | .mbx0Doorbell ktag data => ok_execMbx0Doorbell ktag data s h
  | .mbx0RspRelease ktag data => ok_execMbx0RspRelease ktag data s h
  | .alertPend ktag data => ok_execAlertPend ktag data s h
  | .cntClr ktag port data => ok_execCntClr ktag port data s h
  | .registerLoRead ktag addr => (same_execRegisterLoRead ktag addr s).outOk h
  | .registerWrite ktag addr data => ok_execRegisterWrite ktag addr data s h
  | .keeperDomainLoss vinMv => ok_execKeeperDomainLoss vinMv s h
  | .keeperFailover => (same_execKeeperFailover s).outOk h
  | .x4RetrainDone port => (same_execX4RetrainDone port s).outOk h
  | .sourceStateIdle die srcModule srcDie => (same_execSourceStateIdle die srcModule srcDie s).outOk h
  | .unmarchedSramMarch die => ok_execUnmarchedSramMarch die s h
  | .tapInstruction instr => (same_execTapInstruction instr s).outOk h
  | .dipInputFall vinMv => (same_execDipInputFall vinMv s).outOk h

theorem inv_exec {c : Instr} {s t : State} (h : s.Inv) (hexec : exec c s = .next t) : t.Inv ∧ t.pending = s.pending := by
  have hok : OutOk s.pending (exec c s) := outOk_exec c s ((inv_iff s).mp h)
  rw [hexec, outOk_next] at hok
  obtain ⟨hmem, hreq, hstage, hpending⟩ := hok
  exact ⟨⟨hmem, hreq, hstage⟩, hpending⟩

/-- While the keepers do not run, no count passes. -/
theorem idle_of_stopped {s : State} (hstop : s.keepersRun = false) : idle s = s := by
  simp [idle, hstop]

/-- While the keepers run, one count passes, and a register reset whose time has come takes effect (R401, R437). -/
theorem idle_of_running {s : State} (hrun : s.keepersRun = true) :
    idle s = if (tick s).kpr.resetDue.elim false (· ≤ (tick s).now) then (tick s).moduleReset 4 true else tick s := by
  simp [idle, hrun]

theorem storeOk_idle {wq : List Instr} {s : State} (h : StoreOk wq s.store) : StoreOk wq (idle s).store := by
  cases hrun : s.keepersRun with
  | false => rwa [idle_of_stopped hrun]
  | true =>
    have htick : StoreOk wq (tick s).store := by rwa [store_tick]
    rw [idle_of_running hrun, store_ite]
    exact storeOk_ite _ (ok_moduleReset _ 4 true htick) htick

theorem inv_idle {s : State} (h : s.Inv) : (idle s).Inv := by
  obtain ⟨hmem, hreq, hstage, -⟩ := storeOk_idle ((inv_iff s).mp h)
  exact ⟨hmem, hreq, hstage⟩

theorem step_of_nil {s : State} (h : s.pending = []) : step s = .next (idle s) := by
  simp [step, h]

theorem step_of_cons {s : State} {c : Instr} {rest : List Instr} (h : s.pending = c :: rest) :
    step s = exec c { s with pending := rest } := by
  simp [step, h]

/-- Settles O40: each command keeps the stores (`outOk_exec`), and so does the step on an empty queue. -/
theorem stepKeepsInvariant : Obligations.StepKeepsInvariant := by
  unfold Obligations.StepKeepsInvariant
  refine ⟨fun s t h hstep => ?_, fun c s t h hexec => (inv_exec h hexec).2⟩
  cases hp : s.pending with
  | nil =>
    cases (step_of_nil hp).symm.trans hstep
    exact inv_idle h
  | cons c rest =>
    exact (inv_exec (s := { s with pending := rest }) h ((step_of_cons hp).symm.trans hstep)).1

/-! ### The event log -/

/-- Every command keeps the entries of the event log consecutive. -/
theorem outLog_exec (c : Instr) (s : State) (h : LogOk s) : OutLog (exec c s) :=
  match c with
  | .pitchCreate seq => logOk_execPitchCreate seq s h
  | .pitchRelease seq => logOk_execPitchRelease seq s h
  | .pitchBindPort seq => logOk_execPitchBindPort seq s h
  | .pitchSuspend seq => logOk_execPitchSuspend seq s h
  | .pitchResume seq => logOk_execPitchResume seq s h
  | .pitchQuery seq => logOk_execPitchQuery seq s h
  | .pitchMeterRead seq => logOk_execPitchMeterRead seq s h
  | .workQueueOpen seq => logOk_execWorkQueueOpen seq s h
  | .workQueueClose seq => logOk_execWorkQueueClose seq s h
  | .workAbort seq => logOk_execWorkAbort seq s h
  | .workContextSave seq => logOk_execWorkContextSave seq s h
  | .workContextRestore seq => logOk_execWorkContextRestore seq s h
  | .svcModelLoad seq => logOk_execSvcModelLoad seq s h
  | .svcSessionOpen seq => logOk_execSvcSessionOpen seq s h
  | .svcSubmit seq => logOk_execSvcSubmit seq s h
  | .svcSessionPause seq => logOk_execSvcSessionPause seq s h
  | .pauseRecordWritten tag model session => logOk_execPauseRecordWritten tag model session s h
  | .svcSessionResume seq => logOk_execSvcSessionResume seq s h
  | .svcSessionClose seq => logOk_execSvcSessionClose seq s h
  | .svcBoothConfig seq => logOk_execSvcBoothConfig seq s h
  | .trnRunConfig seq => logOk_execTrnRunConfig seq s h
  | .trnUpdateRuleSet seq => logOk_execTrnUpdateRuleSet seq s h
  | .trnScheduleSet seq => logOk_execTrnScheduleSet seq s h
  | .trnCheckpointConfigure seq => logOk_execTrnCheckpointConfigure seq s h
  | .trnCheckpointNow seq => logOk_execTrnCheckpointNow seq s h
  | .trnCheckpointRestore seq => logOk_execTrnCheckpointRestore seq s h
  | .trnCheckpointQuery seq => logOk_execTrnCheckpointQuery seq s h
  | .trnStepMultiplier seq => logOk_execTrnStepMultiplier seq s h
  | .turnPlan seq => logOk_execTurnPlan seq s h
  | .turnStartStart seq => logOk_execTurnStartStart seq s h
  | .turnStartStop seq => logOk_execTurnStartStop seq s h
  | .turnStartContinue seq => logOk_execTurnStartContinue seq s h
  | .turnStatus seq => logOk_execTurnStatus seq s h
  | .turnRewardPost seq => logOk_execTurnRewardPost seq s h
  | .fabPortSet seq => logOk_execFabPortSet seq s h
  | .fabRouteSet seq => logOk_execFabRouteSet seq s h
  | .fabDiscoverQuery seq => logOk_execFabDiscoverQuery seq s h
  | .fabDiscoverSetId seq => logOk_execFabDiscoverSetId seq s h
  | .fabDiscoverRefresh seq => logOk_execFabDiscoverRefresh seq s h
  | .fabBridgeSet seq => logOk_execFabBridgeSet seq s h
  | .fwStageBegin seq => logOk_execFwStageBegin seq s h
  | .fwStageData seq => logOk_execFwStageData seq s h
  | .fwStageVerify seq => logOk_execFwStageVerify seq s h
  | .fwStageDiscard seq => logOk_execFwStageDiscard seq s h
  | .fwStageQuery seq => logOk_execFwStageQuery seq s h
  | .fwActivate seq => logOk_execFwActivate seq s h
  | .flashRewriteDone good => logOk_execFlashRewriteDone good s h
  | .standbyReadyTimeout => logOk_execStandbyReadyTimeout s h
  | .handoverBoundaryTimeout => logOk_execHandoverBoundaryTimeout s h
  | .attestQuote seq => logOk_execAttestQuote seq s h
  | .devIdentity seq => logOk_execDevIdentity seq s h
  | .bistRun seq => logOk_execBistRun seq s h
  | .repairSoft seq => logOk_execRepairSoft seq s h
  | .repairFuse seq => logOk_execRepairFuse seq s h
  | .bistResult seq => logOk_execBistResult seq s h
  | .pwrDieStateQuery seq => logOk_execPwrDieStateQuery seq s h
  | .pwrDieStateSetCap seq => logOk_execPwrDieStateSetCap seq s h
  | .pwrDieStateSetIdle seq => logOk_execPwrDieStateSetIdle seq s h
  | .pwrDieStateDrain seq => logOk_execPwrDieStateDrain seq s h
  | .pwrDieStateReturn seq => logOk_execPwrDieStateReturn seq s h
  | .pwrDieStateOff seq => logOk_execPwrDieStateOff seq s h
  | .pwrDieStateKeeperOnly seq => logOk_execPwrDieStateKeeperOnly seq s h
  | .pwrDieStateExit seq => logOk_execPwrDieStateExit seq s h
  | .telemetryRead seq => logOk_execTelemetryRead seq s h
  | .eventLogRead seq => logOk_execEventLogRead seq s h
  | .logicalClusterMove tag lcluster => logOk_execLogicalClusterMove tag lcluster s h
  | .doorbell tag queue value => logOk_execDoorbell tag queue value s h
  | .ackWr tag queue value => logOk_execAckWr tag queue value s h
  | .controlPageWriteInvalid tag queue offset data => logOk_execControlPageWriteInvalid tag queue offset data s h
  | .descriptorConsume tag queue => logOk_execDescriptorConsume tag queue s h
  | .itemReady key => logOk_execItemReady key s h
  | .itemStaged key => logOk_execItemStaged key s h
  | .carouselDispatch place engine => logOk_execCarouselDispatch place engine s h
  | .clusterWake place => logOk_execClusterWake place s h
  | .mma key => logOk_execMma key s h
  | .arrayTileHandoff key => logOk_execArrayTileHandoff key s h
  | .ewOperation key => logOk_execEwOperation key s h
  | .mvp key => logOk_execMvp key s h
  | .mvpStripHandoff key => logOk_execMvpStripHandoff key s h
  | .vec key => logOk_execVec key s h
  | .sample key => logOk_execSample key s h
  | .logsoftmax key => logOk_execLogsoftmax key s h
  | .move key => logOk_execMove key s h
  | .collective key => logOk_execCollective key s h
  | .collectivePass1AtRoot tag ident => logOk_execCollectivePass1AtRoot tag ident s h
  | .collectiveAnchorReceived key => logOk_execCollectiveAnchorReceived key s h
  | .collectiveResultWritten tag ident => logOk_execCollectiveResultWritten tag ident s h
  | .rand key => logOk_execRand key s h
  | .signal key => logOk_execSignal key s h
  | .wait key => logOk_execWait key s h
  | .itemComplete key => logOk_execItemComplete key s h
  | .runningItemAbortStop key => logOk_execRunningItemAbortStop key s h
  | .stridedGapFault key => logOk_execStridedGapFault key s h
  | .scaleRecheckFail key => logOk_execScaleRecheckFail key s h
  | .uncorrectableRead key at_ => logOk_execUncorrectableRead key at_ s h
  | .correctedErrorWriteback die place => logOk_execCorrectedErrorWriteback die place s h
  | .patrolScrub die place symbols => logOk_execPatrolScrub die place symbols s h
  | .rowRepairInService die kind row => logOk_execRowRepairInService die kind row s h
  | .logicalClusterSwitch place lcluster => logOk_execLogicalClusterSwitch place lcluster s h
  | .clusterDoze place => logOk_execClusterDoze place s h
  | .clusterRest place => logOk_execClusterRest place s h
  | .dramPllStop die => logOk_execDramPllStop die s h
  | .tokenStepForm tag model => logOk_execTokenStepForm tag model s h
  | .tokenStepCommit tag model step latencyNs results => logOk_execTokenStepCommit tag model step latencyNs results s h
  | .boothResumePass tag model => logOk_execBoothResumePass tag model s h
  | .boothModeChange tag model => logOk_execBoothModeChange tag model s h
  | .tokenStepFail tag model step => logOk_execTokenStepFail tag model step s h
  | .hashedBlockUncorrectable tag model block => logOk_execHashedBlockUncorrectable tag model block s h
  | .sessionExpire tag model session => logOk_execSessionExpire tag model session s h
  | .rewardProgramRun tag run => logOk_execRewardProgramRun tag run s h
  | .learnProgramRun tag run => logOk_execLearnProgramRun tag run s h
  | .rolloutEnd tag run admitSeq => logOk_execRolloutEnd tag run admitSeq s h
  | .phaseStart tag run => logOk_execPhaseStart tag run s h
  | .turnoverOpen tag run => logOk_execTurnoverOpen tag run s h
  | .turnoverArmed tag run => logOk_execTurnoverArmed tag run s h
  | .drainEnd tag run => logOk_execDrainEnd tag run s h
  | .swapStart tag run => logOk_execSwapStart tag run s h
  | .layerWindowOpen tag run layer => logOk_execLayerWindowOpen tag run layer s h
  | .layerGateOpen tag run layer => logOk_execLayerGateOpen tag run layer s h
  | .turnoverDone tag run => logOk_execTurnoverDone tag run s h
  | .windowOpenTimeout tag run layer => logOk_execWindowOpenTimeout tag run layer s h
  | .crusherDelivery tag ident => logOk_execCrusherDelivery tag ident s h
  | .blockUpdate tag run layer block => logOk_execBlockUpdate tag run layer block s h
  | .blockMissed tag run layer block => logOk_execBlockMissed tag run layer block s h
  | .heldBlockStage tag run layer block => logOk_execHeldBlockStage tag run layer block s h
  | .heldBlocksApply tag run ldie => logOk_execHeldBlocksApply tag run ldie s h
  | .laggedMultWaitEnd tag run layer block => logOk_execLaggedMultWaitEnd tag run layer block s h
  | .normPartialSend tag run ldie => logOk_execNormPartialSend tag run ldie s h
  | .runStepCommit tag run => logOk_execRunStepCommit tag run s h
  | .kronRefreshDone tag run layer block => logOk_execKronRefreshDone tag run layer block s h
  | .emissionSend tag run layer block => logOk_execEmissionSend tag run layer block s h
  | .checkpointLayerSend tag run ldie layer => logOk_execCheckpointLayerSend tag run ldie layer s h
  | .checkpointSlotComplete tag run => logOk_execCheckpointSlotComplete tag run s h
  | .checkpointTimeout tag run => logOk_execCheckpointTimeout tag run s h
  | .linkFrameReceive port frame => logOk_execLinkFrameReceive port frame s h
  | .nakReceive port n => logOk_execNakReceive port n s h
  | .replayLimit port => logOk_execReplayLimit port s h
  | .linkCtrlReceive port ctrl => logOk_execLinkCtrlReceive port ctrl s h
  | .creditReturnTimer port => logOk_execCreditReturnTimer port s h
  | .routeFrame die index => logOk_execRouteFrame die index s h
  | .routingFaultDiscard die index => logOk_execRoutingFaultDiscard die index s h
  | .replayTakeback port => logOk_execReplayTakeback port s h
  | .e2eFrameDeliver die frame => logOk_execE2eFrameDeliver die frame s h
  | .e2eResponseReceive die frame => logOk_execE2eResponseReceive die frame s h
  | .e2eResendTimer die txn => logOk_execE2eResendTimer die txn s h
  | .e2eTransactionFail die txn => logOk_execE2eTransactionFail die txn s h
  | .hostIngress port vc frame => logOk_execHostIngress port vc frame s h
  | .controlPageWriteRelease port => logOk_execControlPageWriteRelease port s h
  | .hostWindowEgress die frame => logOk_execHostWindowEgress die frame s h
  | .helloReceive port hello => logOk_execHelloReceive port hello s h
  | .helloTimer => logOk_execHelloTimer s h
  | .portSignalDetect port lanes => logOk_execPortSignalDetect port lanes s h
  | .portTrainDone port hello => logOk_execPortTrainDone port hello s h
  | .portTrainTimeout port => logOk_execPortTrainTimeout port s h
  | .portDown port => logOk_execPortDown port s h
  | .laneFail port lane => logOk_execLaneFail port lane s h
  | .msgSegmentReceive frame => logOk_execMsgSegmentReceive frame s h
  | .msgStatusRead frame => logOk_execMsgStatusRead frame s h
  | .msgAssemblyTimeout mailbox => logOk_execMsgAssemblyTimeout mailbox s h
  | .requestSubmit mailbox => logOk_execRequestSubmit mailbox s h
  | .fenceRelease seq => logOk_execFenceRelease seq s h
  | .replayEntryExpire mailbox requestId => logOk_execReplayEntryExpire mailbox requestId s h
  | .coordinationTimeout seq => logOk_execCoordinationTimeout seq s h
  | .suspendTimeout tag => logOk_execSuspendTimeout tag s h
  | .ringmasterTakeover => logOk_execRingmasterTakeover s h
  | .heartbeatTimeout pair => logOk_execHeartbeatTimeout pair s h
  | .serviceCoreFault core => logOk_execServiceCoreFault core s h
  | .takeoverResume => logOk_execTakeoverResume s h
  | .boot => logOk_execBoot s h
  | .recoveryAnnounce => logOk_execRecoveryAnnounce s h
  | .powerOnSequence vinMv => logOk_execPowerOnSequence vinMv s h
  | .railRegulationTimeout die rail => logOk_execRailRegulationTimeout die rail s h
  | .undervoltageReset vinMv => logOk_execUndervoltageReset vinMv s h
  | .overvoltageReset vinMv => logOk_execOvervoltageReset vinMv s h
  | .overVoltage vinMv => logOk_execOverVoltage vinMv s h
  | .resetNAssert us => logOk_execResetNAssert us s h
  | .modEnableDeassert us => logOk_execModEnableDeassert us s h
  | .dipBegin vinMv => logOk_execDipBegin vinMv s h
  | .dipInputRise vinMv => logOk_execDipInputRise vinMv s h
  | .dipEnd vinMv => logOk_execDipEnd vinMv s h
  | .powerControlEval power1ms power10ms currentMa => logOk_execPowerControlEval power1ms power10ms currentMa s h
  | .stepChangeDone die => logOk_execStepChangeDone die s h
  | .thermalControlEval die tj sensor => logOk_execThermalControlEval die tj sensor s h
  | .thermalTrip die tj => logOk_execThermalTrip die tj s h
  | .phaseLost die rail phase => logOk_execPhaseLost die rail phase s h
  | .keeperOnlyEntry cause => logOk_execKeeperOnlyEntry cause s h
  | .pwarnEval watts => logOk_execPwarnEval watts s h
  | .meterMinute => logOk_execMeterMinute s h
  | .unmarchedFirstWrite die page => logOk_execUnmarchedFirstWrite die page s h
  | .backgroundMarchPage die page => logOk_execBackgroundMarchPage die page s h
  | .testWindowLost die => logOk_execTestWindowLost die s h
  | .testComplete die failures => logOk_execTestComplete die failures s h
  | .sparesTestAfterPowerOn die failures => logOk_execSparesTestAfterPowerOn die failures s h
  | .keeperFrameReject frame => logOk_execKeeperFrameReject frame s h
  | .reset ktag data => logOk_execReset ktag data s h
  | .rstLock ktag data => logOk_execRstLock ktag data s h
  | .mbx0Doorbell ktag data => logOk_execMbx0Doorbell ktag data s h
  | .mbx0RspRelease ktag data => logOk_execMbx0RspRelease ktag data s h
  | .alertPend ktag data => logOk_execAlertPend ktag data s h
  | .cntClr ktag port data => logOk_execCntClr ktag port data s h
  | .registerLoRead ktag addr => logOk_execRegisterLoRead ktag addr s h
  | .registerWrite ktag addr data => logOk_execRegisterWrite ktag addr data s h
  | .keeperDomainLoss vinMv => logOk_execKeeperDomainLoss vinMv s h
  | .keeperFailover => logOk_execKeeperFailover s h
  | .x4RetrainDone port => logOk_execX4RetrainDone port s h
  | .sourceStateIdle die srcModule srcDie => logOk_execSourceStateIdle die srcModule srcDie s h
  | .unmarchedSramMarch die => logOk_execUnmarchedSramMarch die s h
  | .tapInstruction instr => logOk_execTapInstruction instr s h
  | .dipInputFall vinMv => logOk_execDipInputFall vinMv s h

theorem logOk_of_exec {c : Instr} {s t : State} (h : LogOk s) (hexec : exec c s = .next t) : LogOk t := by
  have hlog := outLog_exec c s h
  rwa [hexec] at hlog

theorem logOk_idle {s : State} (h : LogOk s) : LogOk (idle s) := by
  cases hrun : s.keepersRun with
  | false => rwa [idle_of_stopped hrun]
  | true =>
    rw [idle_of_running hrun]
    split
    · exact logOk_moduleReset _ 4 true (logOk_tick s h)
    · exact logOk_tick s h

/-- What is left of a list and one more entry at its end, where a ring keeps its last `n`, ends with that entry. -/
theorem getLast?_drop_concat {α : Type} (l : List α) (a : α) {n : Nat} (hn : 0 < n) :
    ((l ++ [a]).drop ((l ++ [a]).length - n)).getLast? = some a := by
  have hlen : (l ++ [a]).length - n < (l ++ [a]).length := Nat.sub_lt (by simp) hn
  rw [List.getLast?_drop, if_neg hlen.not_ge, List.getLast?_concat]

/-- The last entry of the log after an event is that event: the ring has room for one at least. -/
theorem State.getLast?_logEvent (s : State) (code sev die tag data : Nat) :
    (s.logEvent code sev die tag data).log.entries.getLast? =
      some ⟨s.log.next, s.now, code, sev, die, tag, data % 2 ^ 64⟩ := by
  rw [State.logEvent, setLog_log]
  dsimp only
  rw [getLast?_drop_concat _ _ (by decide)]

@[simp] theorem State.alertPend_logAlert (s : State) (code die tag data : Nat) :
    (s.logEvent code 2 die tag data).log.alertPend = s.log.alertPend ||| (1#9 <<< (code / 256)) := rfl

/-- An input within the absolute maximum has its effect (R446). -/
theorem supply_of_le {mv : Nat} (hmax : mv ≤ 60000) (s : State) (f : State → State) : supply mv s f = .next (f (s.setVin mv)) := by
  rw [supply, if_neg hmax.not_gt]

theorem exec_overVoltage_of_range {s : State} {mv : Nat} (hrun : s.keepersRun = true) (hlo : 50000 < mv) (hhi : mv ≤ 56000) :
    exec (.overVoltage mv) s = .next ((s.setVin mv).logEvent 0x0104 2 noDie noTag mv) := by
  have hrun' : (s.setVin mv).keepersRun = true := hrun
  show supply mv s _ = _
  rw [supply_of_le (by omega)]
  simp [hrun', hlo, hhi]

/-- Settles O53: each command keeps the log (`outLog_exec`), and so does the step on an empty queue; above 50.0 V the new entry is the
last one of the ring. -/
theorem eventsAreConsecutive : Obligations.EventsAreConsecutive := by
  unfold Obligations.EventsAreConsecutive
  refine ⟨fun c s t h hexec => logOk_of_exec h hexec, fun s t h hstep => ?_, fun s mv hrun hlo hhi h => ?_⟩
  · cases hp : s.pending with
    | nil =>
      cases (step_of_nil hp).symm.trans hstep
      exact logOk_idle h
    | cons c rest =>
      exact logOk_of_exec (s := { s with pending := rest }) h ((step_of_cons hp).symm.trans hstep)
  · have hexec := exec_overVoltage_of_range hrun hlo hhi
    refine ⟨_, hexec, logOk_of_exec h hexec, rfl, ?_, ?_, rfl⟩
    · rw [State.getLast?_logEvent, Nat.mod_eq_of_lt (by omega)]
      rfl
    · rw [State.alertPend_logAlert]
      simp

end Sys2Proof.Machine
end

section
/-! SUPPORT. What the frames of the keeper port leave as it was (R431 to R445): the work of the module, RST_LOCK and a due reset, and the
latched upper halves. One inversion lemma says what such a frame can be. -/

namespace Sys2Proof.Machine

open Sys2Proof

/-! ### What a keeper frame can be -/

/-- A command of the keeper port is a READ, a WRITE or a frame that is rejected (R431, R432). -/
theorem exec_of_isKeeperFrame {c : Instr} (hc : isKeeperFrame c = true) (s : State) :
    (∃ ktag addr, exec c s = .next (s.kprRead ktag addr)) ∨ (∃ ktag addr d, exec c s = .next (s.kprWrite ktag addr d)) ∨
      ∃ f, c = .keeperFrameReject f := by
  cases c
  case registerLoRead ktag addr => exact .inl ⟨ktag, addr, rfl⟩
  case registerWrite ktag addr d => exact .inr (.inl ⟨ktag, addr, d, rfl⟩)
  case reset ktag d => exact .inr (.inl ⟨ktag, 0x2C, d, rfl⟩)
  case rstLock ktag d => exact .inr (.inl ⟨ktag, 0x2C, d, rfl⟩)
  case mbx0Doorbell ktag d => exact .inr (.inl ⟨ktag, 0xA000, d, rfl⟩)
  case mbx0RspRelease ktag d => exact .inr (.inl ⟨ktag, 0xA008, d, rfl⟩)
  case alertPend ktag d => exact .inr (.inl ⟨ktag, 0x2040, d, rfl⟩)
  case cntClr ktag port d => exact .inr (.inl ⟨ktag, cntClrAddr port, d, rfl⟩)
  case keeperFrameReject f => exact .inr (.inr ⟨f, rfl⟩)
  all_goals cases hc

section Keeps

variable {P : State → Prop} (hsend : ∀ (s : State) (x : Sent), P s → P (s.send x)) (harrived : ∀ s : State, P s → P s.arrived)

include hsend harrived

/-- What answers, the arrival of a frame and the latches leave, a READ leaves. -/
theorem State.kprRead_keeps (hread : ∀ (s : State) (a : Nat), P s → P (s.afterRead a)) {s : State} (hs : P s) (ktag addr : Nat) :
    P (s.kprRead ktag addr) := by
  unfold State.kprRead State.kprError
  dsimp only
  split_ifs
  · exact hs
  · exact hsend _ _ (harrived _ hs)
  · exact hsend _ _ (hread _ _ (harrived _ hs))

/-- What answers, the arrival of a frame, the TAGs of the WRITEs and the write itself leave, a WRITE leaves. -/
theorem State.kprWrite_keeps (htags : ∀ (s : State) (ts : List Nat), P s → P (s.setKpr { s.kpr with writeTags := ts })) {addr : Nat}
    {d : BitVec 32} (hwrite : ∀ s : State, P s → P (s.writeReg addr d)) {s : State} (hs : P s) (ktag : Nat) :
    P (s.kprWrite ktag addr d) := by
  unfold State.kprWrite State.kprError
  dsimp only
  split_ifs
  · exact hs
  · exact hsend _ _ (harrived _ hs)
  · exact hsend _ _ (harrived _ hs)
  · exact hsend _ _ (htags _ _ (hwrite _ (harrived _ hs)))

/-- What answers, the arrival of a frame, the latches, the TAGs of the WRITEs and every write leave, every keeper frame leaves. -/
theorem State.keeps_of_isKeeperFrame (hread : ∀ (s : State) (a : Nat), P s → P (s.afterRead a))
    (htags : ∀ (s : State) (ts : List Nat), P s → P (s.setKpr { s.kpr with writeTags := ts }))
    (hwrite : ∀ (s : State) (a : Nat) (d : BitVec 32), P s → P (s.writeReg a d)) {c : Instr} {s t : State}
    (hc : isKeeperFrame c = true) (hexec : exec c s = .next t) (hs : P s) : P t := by
  rcases exec_of_isKeeperFrame hc s with ⟨ktag, addr, h⟩ | ⟨ktag, addr, d, h⟩ | ⟨f, rfl⟩
  · cases h.symm.trans hexec
    exact State.kprRead_keeps hsend harrived hread hs ktag addr
  · cases h.symm.trans hexec
    exact State.kprWrite_keeps hsend harrived htags (fun s => hwrite s addr d) hs ktag
  · cases hexec
    unfold State.kprError
    split_ifs
    · exact hs
    · exact hsend _ _ (harrived _ hs)
    · exact hsend _ _ hs
    · exact hs

end Keeps

/-! ### The work of the module -/

/-- What a keeper frame leaves alone: memory, dies, fabric, pitches, the Ringmaster but for its line of submissions, firmware, tests,
EEPROM, test access port, queue, and the ports but for their counters. -/
def State.work (s : State) :=
  (s.mem, s.bad, s.dies, s.fab, s.pitches, s.lends, { s.ring with order := [] }, s.fw, s.tests, s.eeprom, s.tap, s.pending,
    s.ports.map Port.uncounted)

theorem map_modify_of_eq {α β : Type} {f : α → α} {g : α → β} (h : ∀ x, g (f x) = g x) (l : List α) (i : Nat) :
    (l.modify i f).map g = l.map g := by
  refine List.ext_getElem (by simp) fun j _ _ => ?_
  by_cases hij : i = j
  · simp [hij, h]
  · simp [hij]

@[simp] theorem State.work_setKpr (s : State) (k : Keeper) : (s.setKpr k).work = s.work := rfl
@[simp] theorem State.work_setPower (s : State) (p : Power) : (s.setPower p).work = s.work := rfl
@[simp] theorem State.work_setMbx0 (s : State) (m : Mbx0) : (s.setMbx0 m).work = s.work := rfl
@[simp] theorem State.work_updBox (s : State) (m : Nat) (f : Mailbox → Mailbox) : (s.updBox m f).work = s.work := rfl
@[simp] theorem State.work_submitTo (s : State) (m : Nat) (x : Submission) : (s.submitTo m x).work = s.work := rfl
@[simp] theorem State.work_writeReset (s : State) (d : BitVec 32) : (s.writeReset d).work = s.work := rfl
@[simp] theorem State.work_clearAlerts (s : State) (d : BitVec 32) : (s.clearAlerts d).work = s.work := rfl

@[simp] theorem State.work_writeReq (s : State) (off : Nat) (d : BitVec 32) : (s.writeReq off d).work = s.work := by
  unfold State.writeReq
  split_ifs <;> rfl

@[simp] theorem State.work_ringDoorbell (s : State) (d : BitVec 32) : (s.ringDoorbell d).work = s.work := by
  unfold State.ringDoorbell
  split_ifs
  · exact s.work_submitTo 0 _
  · rfl

@[simp] theorem State.work_releaseRsp (s : State) (d : BitVec 32) : (s.releaseRsp d).work = s.work := by
  unfold State.releaseRsp
  split
  · rfl
  · dsimp only
    split_ifs <;> rfl

/-- The counters of a port are all that CNT_CLR writes (R444). -/
@[simp] theorem State.work_clearCounters (s : State) (port : Nat) (d : BitVec 32) : (s.clearCounters port d).work = s.work := by
  unfold State.clearCounters
  split_ifs
  · simp only [State.work, State.updPort, setPorts_mem, setPorts_bad, setPorts_dies, setPorts_fab, setPorts_pitches, setPorts_lends,
      setPorts_ring, setPorts_fw, setPorts_tests, setPorts_eeprom, setPorts_tap, setPorts_pending, setPorts_ports]
    rw [map_modify_of_eq fun p => by rfl]
  · rfl

/-- One case for each register that a WRITE can change. -/
@[simp] theorem State.work_writeReg (s : State) (addr : Nat) (d : BitVec 32) : (s.writeReg addr d).work = s.work := by
  unfold State.writeReg
  repeat' split
  all_goals simp

theorem State.work_of_isKeeperFrame {c : Instr} {s t : State} (hc : isKeeperFrame c = true) (hexec : exec c s = .next t) :
    t.work = s.work :=
  State.keeps_of_isKeeperFrame (P := fun u => u.work = s.work) (fun _ _ => id) (fun _ => id) (fun _ _ => id) (fun _ _ => id)
    (fun u addr d => (u.work_writeReg addr d).trans) hc hexec rfl

/-- Settles O44: whatever the frame, the work of the module is left alone (`State.work_of_isKeeperFrame`). -/
theorem keeperFramesLeaveWork : Obligations.KeeperFramesLeaveWork := by
  unfold Obligations.KeeperFramesLeaveWork
  intro c s t hc hexec
  have hwork := State.work_of_isKeeperFrame hc hexec
  simp only [State.work, Prod.mk.injEq] at hwork
  obtain ⟨hmem, hbad, hdies, hfab, hpitches, hlends, hring, hfw, htests, heeprom, htap, hpending, hports⟩ := hwork
  have horder := congrArg (fun r : Ringmaster => { r with order := s.ring.order }) hring
  exact ⟨hmem, hbad, hdies, hfab, hpitches, hlends, horder, hfw, htests, heeprom, htap, hpending, hports⟩

/-! ### RST_LOCK and a due reset (R436) -/

/-- RST_LOCK and when a register reset is due. -/
def State.resetLock (s : State) : Bool × Option Nat := (s.kpr.rstLock, s.kpr.resetDue)

@[simp] theorem State.resetLock_setPower (s : State) (p : Power) : (s.setPower p).resetLock = s.resetLock := rfl
@[simp] theorem State.resetLock_setMbx0 (s : State) (m : Mbx0) : (s.setMbx0 m).resetLock = s.resetLock := rfl
@[simp] theorem State.resetLock_clearAlerts (s : State) (d : BitVec 32) : (s.clearAlerts d).resetLock = s.resetLock := rfl

@[simp] theorem State.resetLock_writeReq (s : State) (off : Nat) (d : BitVec 32) : (s.writeReq off d).resetLock = s.resetLock := by
  unfold State.writeReq
  split_ifs <;> rfl

@[simp] theorem State.resetLock_ringDoorbell (s : State) (d : BitVec 32) : (s.ringDoorbell d).resetLock = s.resetLock := by
  unfold State.ringDoorbell
  split_ifs <;> rfl

@[simp] theorem State.resetLock_releaseRsp (s : State) (d : BitVec 32) : (s.releaseRsp d).resetLock = s.resetLock := by
  unfold State.releaseRsp
  split
  · rfl
  · dsimp only
    split_ifs <;> rfl

@[simp] theorem State.resetLock_clearCounters (s : State) (port : Nat) (d : BitVec 32) :
    (s.clearCounters port d).resetLock = s.resetLock := by
  unfold State.clearCounters
  split_ifs <;> rfl

/-- Once RST_LOCK is set, a write of RESET changes neither. -/
theorem State.resetLock_writeReset {s : State} (hlock : s.kpr.rstLock = true) (d : BitVec 32) :
    (s.writeReset d).resetLock = s.resetLock := by
  simp [State.writeReset, State.resetLock, hlock]

/-- Once RST_LOCK is set, no write of a register clears it or makes a reset due. -/
theorem State.resetLock_writeReg {s : State} (hlock : s.kpr.rstLock = true) (addr : Nat) (d : BitVec 32) :
    (s.writeReg addr d).resetLock = s.resetLock := by
  unfold State.writeReg
  split
  · exact State.resetLock_writeReset hlock d
  · repeat' split
    all_goals first | rfl | simp

/-- A write of RESET without its key makes no reset due. -/
theorem State.resetDue_writeReset_of_no_key (s : State) {d : BitVec 32} (hkey : (d >>> 16).toNat ≠ 0xA55A) :
    (s.writeReset d).kpr.resetDue = s.kpr.resetDue := by
  simp only [State.writeReset, setKpr_kpr, decide_eq_false hkey, Bool.and_false, Bool.false_and, Bool.false_eq_true, if_false]

theorem State.writeReg_reset (s : State) (d : BitVec 32) : s.writeReg 0x2C d = s.writeReset d := rfl

/-- Settles O56: only a write of RESET touches the lock and the due reset, and it does neither under the lock. -/
theorem resetLockHolds : Obligations.ResetLockHolds := by
  unfold Obligations.ResetLockHolds
  refine ⟨fun c s t hc hexec hlock => ?_, fun s t ktag d hkey hexec => ?_⟩
  · have hkept : t.resetLock = s.resetLock := by
      refine State.keeps_of_isKeeperFrame (P := fun u => u.resetLock = s.resetLock) (fun _ _ => id) (fun _ => id) (fun _ _ => id)
        (fun _ _ => id) (fun u addr d hu => ?_) hc hexec rfl
      have hlock' : u.kpr.rstLock = true := (congrArg Prod.fst hu).trans hlock
      exact (State.resetLock_writeReg hlock' addr d).trans hu
    exact ⟨(congrArg Prod.fst hkept).trans hlock, congrArg Prod.snd hkept⟩
  · cases hexec
    refine State.kprWrite_keeps (P := fun u => u.kpr.resetDue = s.kpr.resetDue) (fun _ _ => id) (fun _ => id) (fun _ _ => id)
      (fun u hu => ?_) rfl ktag
    rw [State.writeReg_reset, State.resetDue_writeReset_of_no_key u hkey, hu]

/-! ### The latched upper halves (R435) -/

theorem lookupD_insertKey {α : Type} (l : List (Nat × α)) (k : Nat) (v d : α) : lookupD (insertKey l k v) k d = v := by
  induction l with
  | nil => simp [insertKey, lookupD]
  | cons e l ih =>
    unfold insertKey
    split_ifs with hlt heq
    · simp [lookupD]
    · simp [lookupD]
    · have hne : e.1 ≠ k := fun h => heq h.symm
      simpa [lookupD, hne] using ih

theorem lookupD_filter_ne {α : Type} (l : List (Nat × α)) (k : Nat) (d : α) : lookupD (l.filter fun x => x.1 != k) k d = d := by
  have hnone : (l.filter fun x => x.1 != k).find? (fun e => e.1 = k) = none := by
    simp [List.find?_eq_none]
  simp [lookupD, hnone]

/-- A _LO register is aligned, and its _HI register is no _LO register. -/
theorem isLo_hi {a : Nat} (h : isLo a = true) : a % 4 = 0 ∧ isLo (a + 4) = false := by
  simp [isLo] at h ⊢
  omega

theorem State.latches_afterRead_lo {s : State} {a : Nat} (h : isLo a = true) :
    (s.afterRead a).kpr.latches = insertKey s.kpr.latches (a + 4) (BitVec.ofNat 32 (s.readLive (a + 4))) := by
  simp [State.afterRead, h]

theorem State.latches_afterRead_other {s : State} {a : Nat} (h : isLo a = false) :
    (s.afterRead a).kpr.latches = s.kpr.latches.filter fun x => x.1 != a := by
  simp [State.afterRead, h]

/-- The latches after a READ frame that is answered. -/
theorem latches_of_registerLoRead {s t : State} {ktag addr : Nat} (hrun : s.keepersRun = true) (haligned : addr % 4 = 0)
    (hexec : exec (.registerLoRead ktag addr) s = .next t) : t.kpr.latches = (s.arrived.afterRead addr).kpr.latches := by
  rw [exec_registerLoRead, State.kprRead_of_aligned hrun haligned] at hexec
  cases hexec
  rfl

/-- Settles O57: a READ of _LO puts the upper half under the address of _HI, and a READ of _HI takes it away. -/
theorem latchedHalvesAreConsistent : Obligations.LatchedHalvesAreConsistent := by
  unfold Obligations.LatchedHalvesAreConsistent
  refine ⟨fun s t u ktag addr hrun hlo hexec hu => ?_, fun s t u ktag addr hrun hlo hexec hu => ?_⟩
  · obtain ⟨haligned, -⟩ := isLo_hi hlo
    rw [State.readReg, hu, latches_of_registerLoRead hrun haligned hexec, State.latches_afterRead_lo hlo, lookupD_insertKey,
      State.readLive_arrived]
  · obtain ⟨haligned, hhi⟩ := isLo_hi hlo
    rw [State.readReg, hu, latches_of_registerLoRead hrun (by omega) hexec, State.latches_afterRead_other hhi, lookupD_filter_ne]

end Sys2Proof.Machine
end

section
/-! SUPPORT. What answers and queries leave as it was (R373 to R382): the delivery of a response writes what a die has to send and the
response queue of mailbox 0 alone, a response besides those the journal and the mailboxes, and a query nothing else. -/

namespace Sys2Proof.Machine

open Sys2Proof

/-! ### What a Cusis command can do, by the operation that reads its request -/

section Keeps

variable {P : State → Prop} {s : State} {seq command : Nat} (hs : P s) (hrespond : ∀ status, P (s.respond seq status []))

include hs

theorem State.onOperator_keeps {f : Request → State} (hf : ∀ r, P (f r)) : P (s.onOperator seq command f) := by
  unfold State.onOperator
  split
  · exact hs
  · exact hf _

include hrespond

theorem State.onOperatorOp_keeps {off n op : Nat} {f : Request → State} (hf : ∀ r, P (f r)) :
    P (s.onOperatorOp seq command off n op f) := by
  refine State.onOperator_keeps hs fun r => ?_
  split_ifs
  · exact hf r
  · exact hrespond _
  · exact hs

theorem State.onRequest_keeps {f : Request → Pitch → State} (hf : ∀ r p, P (f r p)) : P (s.onRequest seq command f) := by
  unfold State.onRequest
  split
  · exact hs
  · split
    · exact hrespond _
    · split_ifs
      · exact hrespond _
      · exact hf _ _

theorem State.onRequestOp_keeps {off n op : Nat} {f : Request → Pitch → State} (hf : ∀ r p, P (f r p)) :
    P (s.onRequestOp seq command off n op f) := by
  refine State.onRequest_keeps hs hrespond fun r p => ?_
  split_ifs
  · exact hf r p
  · exact hrespond _
  · exact hs

theorem State.onDies_keeps {op : Nat} {cap idle : Bool} {f : Bytes → List Nat → State} (hf : ∀ b ds, P (f b ds)) :
    P (s.onDies seq op cap idle f) := by
  refine State.onOperatorOp_keeps hs hrespond fun r => ?_
  split_ifs
  · exact hrespond _
  · exact hf _ _

omit hs in
theorem State.onNamed_keeps {tag : Nat} {f : Pitch → State} (hf : ∀ p, P (f p)) : P (s.onNamed seq tag f) := by
  unfold State.onNamed
  split
  · exact hrespond _
  · exact hf _

end Keeps

/-! ### The delivery of a response -/

/-- The state without the frames and transactions that its dies have to send and without the responses in mailbox 0. -/
def State.muted (s : State) : State := (s.setDies (s.dies.map Die.unsent)).setMbx0 { s.mbx0 with rsp := [] }

/-- A quantity that does not depend on what is left out is that of every state that agrees in the rest. -/
theorem State.eq_of_muted {α : Type} (q : State → α) (hq : ∀ u : State, q u.muted = q u) {s t : State} (h : t.muted = s.muted) :
    q t = q s := by
  rw [← hq t, h, hq s]

@[simp] theorem State.muted_updDie {s : State} {f : Die → Die} (h : ∀ d, (f d).unsent = d.unsent) (die : Nat) :
    (s.updDie die f).muted = s.muted := by
  simp only [State.muted, State.updDie, setDies_dies]
  rw [map_modify_of_eq h]
  rfl

@[simp] theorem State.muted_setRsp (s : State) (rs : List (Bytes × Bool)) :
    (s.setMbx0 { s.mbx0 with rsp := rs }).muted = s.muted := rfl

@[simp] theorem State.muted_toRouter (s : State) (die : Nat) (w : Waiting) : (s.toRouter die w).muted = s.muted :=
  State.muted_updDie (by intro _; rfl) die

@[simp] theorem State.muted_beginTxn (s : State) (die : Nat) (f : Frame) (owner : Option ItemKey) :
    (s.beginTxn die f owner).muted = s.muted :=
  (State.muted_toRouter _ _ _).trans (State.muted_updDie (by intro _; rfl) die)

@[simp] theorem State.muted_originate (s : State) (die : Nat) (f : Frame) (owner : Option ItemKey) :
    (s.originate die f owner).muted = s.muted := by
  unfold State.originate
  split_ifs
  · rfl
  · exact s.muted_beginTxn die f owner
  · exact State.muted_updDie (by intro _; rfl) die

@[simp] theorem State.muted_firmwareFrame (s : State) (dest tag srcPort hchan htag : Nat) (payload : Bytes) :
    (s.firmwareFrame dest tag srcPort hchan htag payload).muted = s.muted :=
  s.muted_originate _ _ _

@[simp] theorem State.muted_sendMessage (s : State) (module tag requestId kind : Nat) (data : Bytes) :
    (s.sendMessage module tag requestId kind data).muted = s.muted :=
  s.muted_firmwareFrame _ _ _ _ _ _

@[simp] theorem State.muted_toAdapter (s : State) (srcModule srcPort hchan htag tag : Nat) (payload : Bytes) :
    (s.toAdapter srcModule srcPort hchan htag tag payload).muted = s.muted := by
  unfold State.toAdapter
  split_ifs
  · rfl
  · exact s.muted_firmwareFrame _ _ _ _ _ _

/-- A quantity that each step of a fold leaves alone is left alone by the fold. -/
theorem State.eq_foldl {α β : Type} (q : State → β) {f : State → α → State} (h : ∀ s a, q (f s a) = q s) (l : List α) (s : State) :
    q (l.foldl f s) = q s := by
  induction l generalizing s with
  | nil => rfl
  | cons a l ih => exact (ih _).trans (h s a)

@[simp] theorem State.muted_deliver (s : State) (mailbox srcModule srcPort hchan htag requestId : Nat) (msg : Bytes) (counted : Bool) :
    (s.deliver mailbox srcModule srcPort hchan htag requestId msg counted).muted = s.muted := by
  unfold State.deliver
  split_ifs
  · rfl
  · exact s.muted_sendMessage _ _ _ _ _
  · exact State.eq_foldl State.muted (fun u _ => u.muted_toAdapter _ _ _ _ _ _) _ s

/-! ### Responses -/

/-- The state without what an answer changes: besides what its delivery does, the journal, the mailboxes and the count of free values
drawn. -/
def State.asked (s : State) : State := { s.muted with ring := { s.ring with journal := [] }, boxes := [], free := 0 }

theorem State.asked_of_muted {s t : State} (h : t.muted = s.muted) : t.asked = s.asked :=
  congrArg (fun u : State => { u with ring := { u.ring with journal := [] }, boxes := [], free := 0 }) h

@[simp] theorem State.asked_draw (s : State) : s.draw.asked = s.asked := rfl

@[simp] theorem State.asked_respond (s : State) (seq status : Nat) (body : Bytes) : (s.respond seq status body).asked = s.asked := by
  unfold State.respond
  split
  · rfl
  · dsimp only
    rw [State.asked_of_muted ((State.eq_foldl State.muted (fun u _ => u.muted_deliver _ _ _ _ _ _ _ _) _ _).trans
      (State.muted_deliver _ _ _ _ _ _ _ _ _))]
    rfl

/-- A quantity that does not depend on what an answer changes is left alone by it. -/
theorem State.eq_respond {α : Type} (q : State → α) (hq : ∀ u : State, q u.asked = q u) (s : State) (seq status : Nat) (body : Bytes) :
    q (s.respond seq status body) = q s := by
  rw [← hq, State.asked_respond, hq]

/-! ### Queries -/

theorem State.asked_of_isQuery {c : Instr} {s t : State} (hc : isQuery c = true) (hexec : exec c s = .next t) : t.asked = s.asked := by
  have hrespond : ∀ seq status body, (s.respond seq status body).asked = s.asked := s.asked_respond
  have hdraw : ∀ seq status body, (s.draw.respond seq status body).asked = s.asked := s.draw.asked_respond
  cases c
  case pitchQuery seq =>
    cases hexec
    refine State.onOperator_keeps (P := fun u => u.asked = s.asked) rfl fun r => ?_
    split
    · exact hrespond _ _ _
    · split
      · exact hrespond _ _ _
      · split
        · exact hrespond _ _ _
        · exact State.onNamed_keeps (P := fun u => u.asked = s.asked) (fun _ => hrespond _ _ _) fun _ => hrespond _ _ _
  case pitchMeterRead seq =>
    cases hexec
    refine State.onOperator_keeps (P := fun u => u.asked = s.asked) rfl fun r => ?_
    dsimp only
    split
    · exact hrespond _ _ _
    · split
      · exact hrespond _ _ _
      · exact State.onNamed_keeps (P := fun u => u.asked = s.asked) (fun _ => hrespond _ _ _) fun _ => hdraw _ _ _
  case trnCheckpointQuery seq =>
    cases hexec
    refine State.onRequestOp_keeps (P := fun u => u.asked = s.asked) rfl (fun _ => hrespond _ _ _) fun q p => ?_
    split
    · exact hrespond _ _ _
    · split
      · exact hrespond _ _ _
      · exact hdraw _ _ _
  case turnStatus seq =>
    cases hexec
    refine State.onRequest_keeps (P := fun u => u.asked = s.asked) rfl (fun _ => hrespond _ _ _) fun q p => ?_
    split
    · exact hrespond _ _ _
    · unfold State.planAnswer
      split <;> exact hrespond _ _ _
  case fabDiscoverQuery seq =>
    cases hexec
    refine State.onOperatorOp_keeps (P := fun u => u.asked = s.asked) rfl (fun _ => hrespond _ _ _) fun r => ?_
    split <;> exact hrespond _ _ _
  case fwStageQuery seq =>
    cases hexec
    refine State.onOperatorOp_keeps (P := fun u => u.asked = s.asked) rfl (fun _ => hrespond _ _ _) fun r => ?_
    split
    · exact hrespond _ _ _
    · exact hdraw _ _ _
  case devIdentity seq =>
    cases hexec
    refine State.onOperator_keeps (P := fun u => u.asked = s.asked) rfl fun r => ?_
    split
    · exact hrespond _ _ _
    · exact hdraw _ _ _
  case bistResult seq =>
    cases hexec
    refine State.onOperator_keeps (P := fun u => u.asked = s.asked) rfl fun r => ?_
    dsimp only
    split
    · exact hrespond _ _ _
    · split <;> exact hrespond _ _ _
  case pwrDieStateQuery seq =>
    cases hexec
    exact State.onDies_keeps (P := fun u => u.asked = s.asked) rfl (fun _ => hrespond _ _ _) fun _ _ => hrespond _ _ _
  case telemetryRead seq =>
    cases hexec
    refine State.onOperator_keeps (P := fun u => u.asked = s.asked) rfl fun r => ?_
    dsimp only
    split
    · exact hrespond _ _ _
    · split <;> exact hrespond _ _ _
  case eventLogRead seq =>
    cases hexec
    refine State.onOperator_keeps (P := fun u => u.asked = s.asked) rfl fun r => ?_
    dsimp only
    split <;> exact hrespond _ _ _
  all_goals cases hc

/-- Settles O43: a query responds, or does nothing (`State.asked_of_isQuery`). -/
theorem queriesOnlyAnswer : Obligations.QueriesOnlyAnswer := by
  unfold Obligations.QueriesOnlyAnswer
  intro c s t hc hexec
  have h {α : Type} (q : State → α) : q t.asked = q s.asked := congrArg q (State.asked_of_isQuery hc hexec)
  exact ⟨h State.mem, h State.bad, h State.dies, h State.ports, h State.fab, h State.pitches, h State.lends, h State.fw,
    h State.power, h State.kpr, h State.log, h State.tests, h State.eeprom, h State.tap, h State.pending⟩

end Sys2Proof.Machine
end

section
/-! SUPPORT. The pointers of a work queue (R140, R142, R143): the lowest sequence number without a record, what an acknowledgement writes,
and that doorbells and acknowledgements keep the pointers ordered. -/

namespace Sys2Proof.Machine

open Sys2Proof

/-! ### The lowest sequence number without a record -/

theorem le_firstMissing (l : List Nat) (fuel n : Nat) : n ≤ firstMissing l fuel n := by
  induction fuel generalizing n with
  | zero => exact le_rfl
  | succ fuel ih =>
    unfold firstMissing
    split_ifs
    · exact (Nat.le_succ n).trans (ih (n + 1))
    · exact le_rfl

theorem mem_of_lt_firstMissing {l : List Nat} {fuel n m : Nat} (hn : n ≤ m) (hm : m < firstMissing l fuel n) : m ∈ l := by
  induction fuel generalizing n with
  | zero => exact absurd hm hn.not_gt
  | succ fuel ih =>
    unfold firstMissing at hm
    split_ifs at hm with hmem
    · rcases hn.eq_or_lt with rfl | hlt
      · exact hmem
      · exact ih hlt hm
    · exact absurd hm hn.not_gt

/-- Only where the fuel has run out is the number found still in the list. -/
theorem firstMissing_eq_of_mem {l : List Nat} {fuel n : Nat} (h : firstMissing l fuel n ∈ l) : firstMissing l fuel n = n + fuel := by
  induction fuel generalizing n with
  | zero => rfl
  | succ fuel ih =>
    unfold firstMissing at h ⊢
    split_ifs at h ⊢ with hmem
    · rw [ih h]
      omega
    · exact absurd h hmem

/-- A list has no more different members than entries, so that looking its length further is enough. -/
theorem firstMissing_not_mem (l : List Nat) (n : Nat) : firstMissing l l.length n ∉ l := by
  intro h
  have hend := firstMissing_eq_of_mem h
  have hsub : List.range' n (l.length + 1) ⊆ l := by
    intro m hm
    obtain ⟨hlo, hhi⟩ := List.mem_range'_1.mp hm
    rcases Nat.lt_succ_iff_lt_or_eq.mp (show m < (n + l.length) + 1 by omega) with hlt | rfl
    · exact mem_of_lt_firstMissing hlo (hend ▸ hlt)
    · exact hend ▸ h
  have hle := (List.subperm_of_subset List.nodup_range' hsub).length_le
  rw [List.length_range'] at hle
  omega

theorem Queue.ack_le_unrecorded (q : Queue) : q.ack ≤ q.unrecorded := le_firstMissing _ _ _

theorem Queue.unrecorded_not_mem (q : Queue) : q.unrecorded ∉ q.recorded := firstMissing_not_mem _ _

theorem Queue.mem_recorded_of_lt_unrecorded {q : Queue} {n : Nat} (hlo : q.ack ≤ n) (hhi : n < q.unrecorded) : n ∈ q.recorded :=
  mem_of_lt_firstMissing hlo hhi

/-! ### Acknowledgements and doorbells -/

@[simp] theorem Queue.id_ackWrite (q : Queue) (a : Nat) : (q.ackWrite a).id = q.id := rfl

/-- An acknowledgement on a queue that is there: the queue is found again with `Queue.ackWrite` applied. -/
theorem exec_ackWr_found {s : State} {tag queue a : Nat} {p : Pitch} {q : Queue} (hp : s.pitch? tag = some p)
    (hq : p.queue? queue = some q) :
    ∃ t p', exec (.ackWr tag queue a) s = .next t ∧ t.pitch? tag = some p' ∧
      p'.queue? queue = some (q.ackWrite (a % 2 ^ 64)) := by
  obtain ⟨hp', hq'⟩ := State.updQueue_found hp hq (f := fun q => q.ackWrite (a % 2 ^ 64)) fun q => q.id_ackWrite _
  exact ⟨_, _, rfl, hp', hq'⟩

theorem exec_doorbell_found {s : State} {tag queue v : Nat} {p : Pitch} {q : Queue} (hp : s.pitch? tag = some p)
    (hq : p.queue? queue = some q) :
    ∃ t p', exec (.doorbell tag queue v) s = .next t ∧ t.pitch? tag = some p' ∧
      p'.queue? queue = some (q.doorbell (v % 2 ^ 64)) := by
  obtain ⟨hp', hq'⟩ := State.updQueue_found hp hq (f := fun q => q.doorbell (v % 2 ^ 64)) fun q => q.id_doorbell _
  exact ⟨_, _, rfl, hp', hq'⟩

/-- Settles O49: what `Queue.ackWrite` writes is R143's, and `Queue.unrecorded` is the lowest number without a record. -/
theorem ackRule : Obligations.AckRule := by
  unfold Obligations.AckRule
  refine ⟨fun s tag queue a p q hp hq ha => ?_, fun q => ?_⟩
  · obtain ⟨t, p', hexec, hp', hq'⟩ := exec_ackWr_found (a := a) hp hq
    rw [Nat.mod_eq_of_lt ha] at hq'
    exact ⟨t, p', _, hexec, hp', hq', rfl, rfl, rfl, rfl⟩
  · exact ⟨q.ack_le_unrecorded, q.unrecorded_not_mem, fun n => Queue.mem_recorded_of_lt_unrecorded⟩

/-- Every record is of a consumed descriptor, so that the first one without a record is not past HEAD. -/
theorem Queue.Ordered.unrecorded_le_head {q : Queue} (h : q.Ordered) : q.unrecorded ≤ q.head := by
  obtain ⟨hack, -, -, hrec⟩ := h
  by_contra hlt
  exact absurd (hrec _ (Queue.mem_recorded_of_lt_unrecorded hack (not_le.mp hlt))) (lt_irrefl _)

theorem Queue.Ordered.ackWrite {q : Queue} (h : q.Ordered) (a : Nat) : (q.ackWrite a).Ordered := by
  have hs0 := h.unrecorded_le_head
  obtain ⟨hack, hhead, htail, hrec⟩ := h
  refine ⟨?_, hhead, ?_, fun n hn => hrec n (List.mem_of_mem_filter hn)⟩
  · show max q.ack (min a q.unrecorded) ≤ q.head
    omega
  · show q.tail ≤ max q.ack (min a q.unrecorded) + q.ringSize
    omega

/-- A doorbell moves TAIL alone, up, and within the ring. -/
theorem Queue.Ordered.doorbell {q : Queue} (h : q.Ordered) (t : Nat) : (q.doorbell t).Ordered := by
  obtain ⟨hack, hhead, htail, hrec⟩ := h
  unfold Queue.doorbell
  split_ifs with hstay hfull
  · exact ⟨hack, hhead, htail, hrec⟩
  · exact ⟨hack, hhead, htail, hrec⟩
  · simp only [Bool.or_eq_true, decide_eq_true_eq, not_or, not_le] at hstay
    exact ⟨hack, hhead.trans hstay.2.le, not_lt.mp hfull, hrec⟩

/-- Settles O50: both writes keep R140's order on the queue that they write. -/
theorem pointersStayOrdered : Obligations.PointersStayOrdered := by
  unfold Obligations.PointersStayOrdered
  intro s tag queue v p q hp hq h
  constructor
  · obtain ⟨t, p', hexec, hp', hq'⟩ := exec_doorbell_found (v := v) hp hq
    exact ⟨t, p', _, hexec, hp', hq', h.doorbell _⟩
  · obtain ⟨t, p', hexec, hp', hq'⟩ := exec_ackWr_found (a := v) hp hq
    exact ⟨t, p', _, hexec, hp', hq', h.ackWrite _⟩

end Sys2Proof.Machine
end

section
/-! SUPPORT. A submitted request at the checks of R376: which check turns it away, and what a request leaves that is not accepted
(R319, R373, R376, R378, R382). -/

namespace Sys2Proof.Machine

open Sys2Proof

/-! ### What the delivery of a response leaves -/

section Deliver

variable (s : State) (mailbox srcModule srcPort hchan htag requestId : Nat) (msg : Bytes) (counted : Bool)

@[simp] theorem State.boxes_deliver : (s.deliver mailbox srcModule srcPort hchan htag requestId msg counted).boxes = s.boxes :=
  State.eq_of_muted State.boxes (fun _ => rfl) (s.muted_deliver mailbox srcModule srcPort hchan htag requestId msg counted)

@[simp] theorem State.ring_deliver : (s.deliver mailbox srcModule srcPort hchan htag requestId msg counted).ring = s.ring :=
  State.eq_of_muted State.ring (fun _ => rfl) (s.muted_deliver mailbox srcModule srcPort hchan htag requestId msg counted)

@[simp] theorem State.pitches_deliver : (s.deliver mailbox srcModule srcPort hchan htag requestId msg counted).pitches = s.pitches :=
  State.eq_of_muted State.pitches (fun _ => rfl) (s.muted_deliver mailbox srcModule srcPort hchan htag requestId msg counted)

@[simp] theorem State.log_deliver : (s.deliver mailbox srcModule srcPort hchan htag requestId msg counted).log = s.log :=
  State.eq_of_muted State.log (fun _ => rfl) (s.muted_deliver mailbox srcModule srcPort hchan htag requestId msg counted)

end Deliver

section Refuse

variable (s : State) (m : Nat) (x : Submission) (status : Nat)

@[simp] theorem State.boxes_refuseRequest : (s.refuseRequest m x status).boxes = s.boxes := s.boxes_deliver _ _ _ _ _ _ _ _
@[simp] theorem State.ring_refuseRequest : (s.refuseRequest m x status).ring = s.ring := s.ring_deliver _ _ _ _ _ _ _ _
@[simp] theorem State.pitches_refuseRequest : (s.refuseRequest m x status).pitches = s.pitches := s.pitches_deliver _ _ _ _ _ _ _ _
@[simp] theorem State.log_refuseRequest : (s.refuseRequest m x status).log = s.log := s.log_deliver _ _ _ _ _ _ _ _

@[simp] theorem State.boxes_turnAway : (s.turnAway m x).boxes = s.boxes := s.boxes_refuseRequest m x stNotPermitted
@[simp] theorem State.ring_turnAway : (s.turnAway m x).ring = s.ring := s.ring_refuseRequest m x stNotPermitted
@[simp] theorem State.pitches_turnAway : (s.turnAway m x).pitches = s.pitches := s.pitches_refuseRequest m x stNotPermitted

/-- The event with the stamp (R319). -/
@[simp] theorem State.logNext_turnAway : (s.turnAway m x).log.next = s.log.next + 1 :=
  congrArg (fun l : Log => l.next + 1) (s.log_refuseRequest m x stNotPermitted)

end Refuse

/-! ### Mailboxes -/

theorem State.box_congr {s t : State} (h : t.boxes = s.boxes) (m : Nat) : t.box m = s.box m := by
  rw [State.box, State.box, h]

/-- A mailbox with a submission is one of the module's. -/
theorem State.lt_of_submitted {s : State} {m : Nat} {x : Submission} (h : (s.box m).submitted = some x) : m < s.boxes.length := by
  by_contra hm
  rw [State.box, List.getD_eq_default _ _ (not_lt.mp hm)] at h
  cases h

theorem State.box_updBox_same {s : State} {m : Nat} (hm : m < s.boxes.length) (f : Mailbox → Mailbox) :
    (s.updBox m f).box m = f (s.box m) := by
  simp [State.box, State.updBox, List.getD_eq_getElem?_getD, hm]

@[simp] theorem State.box_setRing (s : State) (r : Ringmaster) (m : Nat) : (s.setRing r).box m = s.box m := rfl

/-- The state in which the submission of mailbox `m`, the first in line, has left its buffer. -/
def State.dequeued (s : State) (m : Nat) (rest : List Nat) : State :=
  (s.updBox m fun b => { b with submitted := none }).setRing { s.ring with order := rest }

@[simp] theorem State.ring_dequeued (s : State) (m : Nat) (rest : List Nat) :
    (s.dequeued m rest).ring = { s.ring with order := rest } := rfl
@[simp] theorem State.pitches_dequeued (s : State) (m : Nat) (rest : List Nat) : (s.dequeued m rest).pitches = s.pitches := rfl
@[simp] theorem State.log_dequeued (s : State) (m : Nat) (rest : List Nat) : (s.dequeued m rest).log = s.log := rfl
@[simp] theorem State.boxesServe_dequeued (s : State) (m : Nat) (rest : List Nat) :
    (s.dequeued m rest).boxesServe = s.boxesServe := rfl

theorem State.length_boxes_dequeued (s : State) (m : Nat) (rest : List Nat) :
    (s.dequeued m rest).boxes.length = s.boxes.length :=
  List.length_modify _ _ _

theorem State.box_dequeued {s : State} {m : Nat} (hm : m < s.boxes.length) (rest : List Nat) :
    (s.dequeued m rest).box m = { s.box m with submitted := none } :=
  State.box_updBox_same hm _

/-- The submission of the first mailbox in line meets the checks, unless the Ringmaster is held (R379, R389). -/
theorem exec_requestSubmit_of_first {s : State} {m : Nat} {x : Submission} {rest : List Nat} (hx : (s.box m).submitted = some x)
    (hhold : s.ring.holding = false) (hline : s.ring.order = m :: rest) :
    exec (.requestSubmit m) s = .next ((s.dequeued m rest).meetChecks m x) := by
  have hfirst : s.firstInLine m = true := by simp [State.firstInLine, hline]
  show execRequestSubmit m s = _
  simp [execRequestSubmit, State.submitBox, hhold, hfirst, hx, hline, State.dequeued]

/-! ### The checks -/

theorem State.meetChecks_of_foreign {s : State} {m : Nat} {x : Submission} (hm : m ≠ 0) (hserve : s.boxesServe = true)
    (hforeign : (s.box m).admits x = false) : s.meetChecks m x = s.turnAway m x := by
  simp [State.meetChecks, hm, hserve, hforeign]

/-- A mailbox that takes requests with this stamp goes on to its window (R319, R382). -/
theorem State.meetChecks_of_admitted {s : State} {m : Nat} {x : Submission}
    (hadmit : m = 0 ∨ (s.boxesServe = true ∧ (s.box m).admits x = true)) :
    s.meetChecks m x = match (s.box m).window.find? fun e => e.requestId = u64 x.bytes 8 with
      | some e => s.duplicate m x e
      | none =>
        if 64 ≤ (s.box m).outstanding then s.queueFull m x
        else match s.checkSubmission m x with
          | some e => s.refuseRequest m x e
          | none => s.accept m x := by
  have hserves : (m != 0 && !s.boxesServe) = false := by
    rcases hadmit with rfl | ⟨hserve, -⟩
    · rfl
    · rw [hserve, Bool.not_true, Bool.and_false]
  have hadmits : (m != 0 && !(s.box m).admits x) = false := by
    rcases hadmit with rfl | ⟨-, hadmit⟩
    · rfl
    · rw [hadmit, Bool.not_true, Bool.and_false]
  cases hfind : (s.box m).window.find? fun e => e.requestId = u64 x.bytes 8 with
  | some e => simp only [State.meetChecks, hserves, hadmits, hfind, Bool.false_eq_true, if_false]
  | none =>
    cases hcheck : s.checkSubmission m x with
    | some e => simp only [State.meetChecks, hserves, hadmits, hfind, hcheck, Bool.false_eq_true, if_false]
    | none => simp only [State.meetChecks, hserves, hadmits, hfind, hcheck, Bool.false_eq_true, if_false]

theorem Mailbox.admits_iff {b : Mailbox} {x : Submission} : b.admits x = true ↔ b.bound = some x.tag ∧ x.viaHost = true := by
  simp [Mailbox.admits]

section Checks

variable {s : State} {m : Nat} {x : Submission} {rest : List Nat} (hx : (s.box m).submitted = some x)

include hx

/-- What the hypotheses of R376 say of a mailbox they say of it without its submission. -/
theorem State.admitted_dequeued (hadmit : m = 0 ∨ (s.boxesServe = true ∧ (s.box m).bound = some x.tag ∧ x.viaHost = true)) :
    m = 0 ∨ ((s.dequeued m rest).boxesServe = true ∧ ((s.dequeued m rest).box m).admits x = true) := by
  rw [State.box_dequeued (State.lt_of_submitted hx), Mailbox.admits_iff]
  exact hadmit

/-- A request whose REQUEST_ID stands in the window is a duplicate (R382). -/
theorem State.meetChecks_dequeued_of_known
    (hadmit : m = 0 ∨ (s.boxesServe = true ∧ (s.box m).bound = some x.tag ∧ x.viaHost = true)) {e : WinEntry}
    (he : (s.box m).window.find? (fun e => e.requestId = u64 x.bytes 8) = some e) :
    (s.dequeued m rest).meetChecks m x = (s.dequeued m rest).duplicate m x e := by
  rw [State.meetChecks_of_admitted (State.admitted_dequeued hx hadmit), State.box_dequeued (State.lt_of_submitted hx)]
  simp only [he]

/-- A new request above 64 outstanding commands is refused (R373); below, the other checks of R376 decide. -/
theorem State.meetChecks_dequeued_of_new
    (hadmit : m = 0 ∨ (s.boxesServe = true ∧ (s.box m).bound = some x.tag ∧ x.viaHost = true))
    (hnew : (s.box m).window.find? (fun e => e.requestId = u64 x.bytes 8) = none) :
    (s.dequeued m rest).meetChecks m x =
      if 64 ≤ (s.box m).outstanding then (s.dequeued m rest).queueFull m x
      else match (s.dequeued m rest).checkSubmission m x with
        | some e => (s.dequeued m rest).refuseRequest m x e
        | none => (s.dequeued m rest).accept m x := by
  rw [State.meetChecks_of_admitted (State.admitted_dequeued hx hadmit), State.box_dequeued (State.lt_of_submitted hx)]
  simp only [hnew]

end Checks

/-- A duplicate takes no number, and its mailbox counts no more outstanding commands and holds no submission than before. -/
theorem State.duplicate_leaves {s : State} {m : Nat} (hm : m < s.boxes.length) (x : Submission) (e : WinEntry) :
    (s.duplicate m x e).ring = s.ring ∧ (s.duplicate m x e).pitches = s.pitches ∧
      ((s.duplicate m x e).box m).outstanding = (s.box m).outstanding ∧
      ((s.duplicate m x e).box m).submitted = (s.box m).submitted := by
  unfold State.duplicate
  split
  · rw [State.box_congr (State.boxes_deliver _ _ _ _ _ _ _ _ _)]
    exact ⟨State.ring_deliver _ _ _ _ _ _ _ _ _, State.pitches_deliver _ _ _ _ _ _ _ _ _, rfl, rfl⟩
  · rw [State.box_updBox_same hm]
    exact ⟨rfl, rfl, rfl, rfl⟩

/-- A request above 64 outstanding commands sets REFUSED and counts in REFUSALS, and does no more at its mailbox (R373). -/
theorem State.queueFull_leaves {s : State} {m : Nat} (hm : m < s.boxes.length) (x : Submission) :
    (s.queueFull m x).ring = s.ring ∧ (s.queueFull m x).pitches = s.pitches ∧
      (s.queueFull m x).box m = { s.box m with refused := true, refusals := satInc (s.box m).refusals 0xFFFF } := by
  unfold State.queueFull
  dsimp only
  split_ifs
  · exact ⟨rfl, rfl, State.box_updBox_same hm _⟩
  · refine ⟨State.ring_refuseRequest _ _ _ _, State.pitches_refuseRequest _ _ _ _, ?_⟩
    rw [State.box_congr (State.boxes_refuseRequest _ _ _ _), State.box_updBox_same hm]

/-- Only mailbox 0 may send an operator's command (R378). -/
theorem State.checkSubmission_of_operatorOnly {s : State} {m : Nat} {x : Submission} (hm : m ≠ 0) (hheader : headerOk x.bytes = true)
    (hcommand : catalogue (u16 x.bytes 0) = some 0) : s.checkSubmission m x = some stNotPermitted := by
  simp [State.checkSubmission, hheader, hcommand, hm]

/-! ### Settlements -/

/-- Settles O52: a known REQUEST_ID meets `State.duplicate`, which accepts nothing. -/
theorem duplicateIsNotExecuted : Obligations.DuplicateIsNotExecuted := by
  unfold Obligations.DuplicateIsNotExecuted
  intro s m x e rest hx hhold hline hadmit he
  have hm := State.lt_of_submitted hx
  obtain ⟨hring, hpitches, hout, hsub⟩ :=
    State.duplicate_leaves (s := s.dequeued m rest) (s.length_boxes_dequeued m rest ▸ hm) x e
  rw [State.box_dequeued hm] at hout hsub
  exact ⟨_, (exec_requestSubmit_of_first hx hhold hline).trans
    (congrArg _ (State.meetChecks_dequeued_of_known hx hadmit he)), hring, hpitches, hout, hsub⟩

/-- Settles O58: each of the three refusals stands before `State.accept` in R376's order, and leaves the mailbox but for what it names. -/
theorem refusedSubmissions : Obligations.RefusedSubmissions := by
  unfold Obligations.RefusedSubmissions
  refine ⟨fun s m x rest hx hhold hline hserve hm0 hforeign => ?_, fun s m x rest hx hhold hline hadmit hnew hfull => ?_,
    fun s u m x rest hx hhold hline hm0 hadmit hnew hroom hheader hcommand hu => ?_⟩
  · have hm := State.lt_of_submitted hx
    have hbox := State.box_dequeued hm rest
    have hforeign' : ((s.dequeued m rest).box m).admits x = false := by
      rw [hbox, Bool.eq_false_iff]
      exact fun h => hforeign (Mailbox.admits_iff.mp h)
    refine ⟨_, (exec_requestSubmit_of_first hx hhold hline).trans
      (congrArg _ (State.meetChecks_of_foreign hm0 hserve hforeign')), State.ring_turnAway _ _ _, State.pitches_turnAway _ _ _, ?_⟩
    rw [State.box_congr (State.boxes_turnAway _ _ _), hbox]
    exact ⟨rfl, rfl, State.logNext_turnAway _ _ _⟩
  · have hm := State.lt_of_submitted hx
    obtain ⟨hring, hpitches, hbox⟩ := State.queueFull_leaves (s := s.dequeued m rest) (s.length_boxes_dequeued m rest ▸ hm) x
    refine ⟨_, (exec_requestSubmit_of_first hx hhold hline).trans
      (congrArg _ ((State.meetChecks_dequeued_of_new hx hadmit hnew).trans (if_pos hfull))), hring, hpitches, ?_⟩
    rw [hbox, State.box_dequeued hm]
    exact ⟨rfl, rfl, rfl, rfl⟩
  · subst hu
    rw [exec_requestSubmit_of_first hx hhold hline, State.meetChecks_dequeued_of_new hx (.inr hadmit) hnew, if_neg hroom.not_ge,
      State.checkSubmission_of_operatorOnly hm0 hheader hcommand]
    rfl

end Sys2Proof.Machine
end

section
/-! SUPPORT. The commands that store nothing leave every byte of module memory (R168): most leave all the byte stores, the writes of the
keeper port and of the staging area write other stores. -/

namespace Sys2Proof.Machine

open Sys2Proof

/-- A command that leaves the byte stores leaves module memory. -/
theorem OutSame.mem_eq {s t : State} {o : Host.Outcome State Fault Refusal} (hsame : OutSame s o) (hnext : o = .next t) :
    t.mem = s.mem := by
  subst hnext
  exact congrArg Prod.fst hsame

@[simp] theorem State.mem_respond (s : State) (seq status : Nat) (body : Bytes) : (s.respond seq status body).mem = s.mem :=
  State.eq_respond State.mem (fun _ => rfl) s seq status body

/-! ### The staging area (R388) -/

theorem mem_execFwStageBegin {seq : Nat} {s t : State} (hexec : execFwStageBegin seq s = .next t) : t.mem = s.mem := by
  cases hexec
  refine State.onOperatorOp_keeps (P := fun u => u.mem = s.mem) rfl (fun _ => s.mem_respond _ _ _) fun r => ?_
  dsimp only
  split_ifs
  · exact s.mem_respond _ _ _
  · exact s.mem_respond _ _ _
  · exact State.mem_respond _ _ _ _

theorem mem_execFwStageData {seq : Nat} {s t : State} (hexec : execFwStageData seq s = .next t) : t.mem = s.mem := by
  cases hexec
  refine State.onOperatorOp_keeps (P := fun u => u.mem = s.mem) rfl (fun _ => s.mem_respond _ _ _) fun r => ?_
  dsimp only
  split_ifs
  · exact s.mem_respond _ _ _
  · exact s.mem_respond _ _ _
  · exact s.mem_respond _ _ _
  · exact State.mem_respond _ _ _ _

theorem mem_execFwStageDiscard {seq : Nat} {s t : State} (hexec : execFwStageDiscard seq s = .next t) : t.mem = s.mem := by
  cases hexec
  refine State.onOperatorOp_keeps (P := fun u => u.mem = s.mem) rfl (fun _ => s.mem_respond _ _ _) fun r => ?_
  split_ifs
  · exact s.mem_respond _ _ _
  · exact State.mem_respond _ _ _ _

/-! ### Every command that stores nothing -/

theorem mem_of_isKeeperFrame {c : Instr} {s t : State} (hc : isKeeperFrame c = true) (hexec : exec c s = .next t) : t.mem = s.mem :=
  congrArg Prod.fst (State.work_of_isKeeperFrame hc hexec)

theorem mem_of_leavesMemory {c : Instr} {s t : State} (hc : leavesMemory c = true) (hexec : exec c s = .next t) : t.mem = s.mem := by
  cases c
  case fwStageBegin seq => exact mem_execFwStageBegin hexec
  case fwStageData seq => exact mem_execFwStageData hexec
  case fwStageDiscard seq => exact mem_execFwStageDiscard hexec
  case reset ktag d => exact mem_of_isKeeperFrame rfl hexec
  case rstLock ktag d => exact mem_of_isKeeperFrame rfl hexec
  case mbx0Doorbell ktag d => exact mem_of_isKeeperFrame rfl hexec
  case mbx0RspRelease ktag d => exact mem_of_isKeeperFrame rfl hexec
  case alertPend ktag d => exact mem_of_isKeeperFrame rfl hexec
  case cntClr ktag port d => exact mem_of_isKeeperFrame rfl hexec
  case registerWrite ktag addr d => exact mem_of_isKeeperFrame rfl hexec
  case pitchBindPort seq => exact (same_execPitchBindPort seq s).mem_eq hexec
  case pitchSuspend seq => exact (same_execPitchSuspend seq s).mem_eq hexec
  case pitchResume seq => exact (same_execPitchResume seq s).mem_eq hexec
  case pitchQuery seq => exact (same_execPitchQuery seq s).mem_eq hexec
  case pitchMeterRead seq => exact (same_execPitchMeterRead seq s).mem_eq hexec
  case workQueueOpen seq => exact (same_execWorkQueueOpen seq s).mem_eq hexec
  case svcModelLoad seq => exact (same_execSvcModelLoad seq s).mem_eq hexec
  case svcSessionPause seq => exact (same_execSvcSessionPause seq s).mem_eq hexec
  case svcBoothConfig seq => exact (same_execSvcBoothConfig seq s).mem_eq hexec
  case trnRunConfig seq => exact (same_execTrnRunConfig seq s).mem_eq hexec
  case trnScheduleSet seq => exact (same_execTrnScheduleSet seq s).mem_eq hexec
  case trnCheckpointConfigure seq => exact (same_execTrnCheckpointConfigure seq s).mem_eq hexec
  case trnCheckpointNow seq => exact (same_execTrnCheckpointNow seq s).mem_eq hexec
  case trnCheckpointQuery seq => exact (same_execTrnCheckpointQuery seq s).mem_eq hexec
  case trnStepMultiplier seq => exact (same_execTrnStepMultiplier seq s).mem_eq hexec
  case turnPlan seq => exact (same_execTurnPlan seq s).mem_eq hexec
  case turnStartStart seq => exact (same_execTurnStartStart seq s).mem_eq hexec
  case turnStartStop seq => exact (same_execTurnStartStop seq s).mem_eq hexec
  case turnStartContinue seq => exact (same_execTurnStartContinue seq s).mem_eq hexec
  case turnStatus seq => exact (same_execTurnStatus seq s).mem_eq hexec
  case fabPortSet seq => exact (same_execFabPortSet seq s).mem_eq hexec
  case fabRouteSet seq => exact (same_execFabRouteSet seq s).mem_eq hexec
  case fabDiscoverQuery seq => exact (same_execFabDiscoverQuery seq s).mem_eq hexec
  case fabDiscoverSetId seq => exact (same_execFabDiscoverSetId seq s).mem_eq hexec
  case fabDiscoverRefresh seq => exact (same_execFabDiscoverRefresh seq s).mem_eq hexec
  case fabBridgeSet seq => exact (same_execFabBridgeSet seq s).mem_eq hexec
  case fwStageVerify seq => exact (same_execFwStageVerify seq s).mem_eq hexec
  case fwStageQuery seq => exact (same_execFwStageQuery seq s).mem_eq hexec
  case fwActivate seq => exact (same_execFwActivate seq s).mem_eq hexec
  case standbyReadyTimeout => exact (same_execStandbyReadyTimeout s).mem_eq hexec
  case handoverBoundaryTimeout => exact (same_execHandoverBoundaryTimeout s).mem_eq hexec
  case attestQuote seq => exact (same_execAttestQuote seq s).mem_eq hexec
  case devIdentity seq => exact (same_execDevIdentity seq s).mem_eq hexec
  case bistRun seq => exact (same_execBistRun seq s).mem_eq hexec
  case repairFuse seq => exact (same_execRepairFuse seq s).mem_eq hexec
  case bistResult seq => exact (same_execBistResult seq s).mem_eq hexec
  case pwrDieStateQuery seq => exact (same_execPwrDieStateQuery seq s).mem_eq hexec
  case pwrDieStateSetCap seq => exact (same_execPwrDieStateSetCap seq s).mem_eq hexec
  case pwrDieStateSetIdle seq => exact (same_execPwrDieStateSetIdle seq s).mem_eq hexec
  case pwrDieStateExit seq => exact (same_execPwrDieStateExit seq s).mem_eq hexec
  case telemetryRead seq => exact (same_execTelemetryRead seq s).mem_eq hexec
  case eventLogRead seq => exact (same_execEventLogRead seq s).mem_eq hexec
  case doorbell tag queue value => exact (same_execDoorbell tag queue value s).mem_eq hexec
  case ackWr tag queue value => exact (same_execAckWr tag queue value s).mem_eq hexec
  case controlPageWriteInvalid tag queue offset data => exact (same_execControlPageWriteInvalid tag queue offset data s).mem_eq hexec
  case itemStaged key => exact (same_execItemStaged key s).mem_eq hexec
  case carouselDispatch place engine => exact (same_execCarouselDispatch place engine s).mem_eq hexec
  case clusterWake place => exact (same_execClusterWake place s).mem_eq hexec
  case collectivePass1AtRoot tag ident => exact (same_execCollectivePass1AtRoot tag ident s).mem_eq hexec
  case correctedErrorWriteback die place => exact (same_execCorrectedErrorWriteback die place s).mem_eq hexec
  case patrolScrub die place symbols => exact (same_execPatrolScrub die place symbols s).mem_eq hexec
  case rowRepairInService die kind row => exact (same_execRowRepairInService die kind row s).mem_eq hexec
  case clusterDoze place => exact (same_execClusterDoze place s).mem_eq hexec
  case clusterRest place => exact (same_execClusterRest place s).mem_eq hexec
  case dramPllStop die => exact (same_execDramPllStop die s).mem_eq hexec
  case boothModeChange tag model => exact (same_execBoothModeChange tag model s).mem_eq hexec
  case sessionExpire tag model session => exact (same_execSessionExpire tag model session s).mem_eq hexec
  case learnProgramRun tag run => exact (same_execLearnProgramRun tag run s).mem_eq hexec
  case phaseStart tag run => exact (same_execPhaseStart tag run s).mem_eq hexec
  case turnoverOpen tag run => exact (same_execTurnoverOpen tag run s).mem_eq hexec
  case turnoverArmed tag run => exact (same_execTurnoverArmed tag run s).mem_eq hexec
  case drainEnd tag run => exact (same_execDrainEnd tag run s).mem_eq hexec
  case turnoverDone tag run => exact (same_execTurnoverDone tag run s).mem_eq hexec
  case windowOpenTimeout tag run layer => exact (same_execWindowOpenTimeout tag run layer s).mem_eq hexec
  case crusherDelivery tag ident => exact (same_execCrusherDelivery tag ident s).mem_eq hexec
  case normPartialSend tag run ldie => exact (same_execNormPartialSend tag run ldie s).mem_eq hexec
  case linkFrameReceive port frame => exact (same_execLinkFrameReceive port frame s).mem_eq hexec
  case nakReceive port n => exact (same_execNakReceive port n s).mem_eq hexec
  case replayLimit port => exact (same_execReplayLimit port s).mem_eq hexec
  case linkCtrlReceive port ctrl => exact (same_execLinkCtrlReceive port ctrl s).mem_eq hexec
  case creditReturnTimer port => exact (same_execCreditReturnTimer port s).mem_eq hexec
  case routingFaultDiscard die index => exact (same_execRoutingFaultDiscard die index s).mem_eq hexec
  case replayTakeback port => exact (same_execReplayTakeback port s).mem_eq hexec
  case e2eResendTimer die txn => exact (same_execE2eResendTimer die txn s).mem_eq hexec
  case hostIngress port vc frame => exact (same_execHostIngress port vc frame s).mem_eq hexec
  case controlPageWriteRelease port => exact (same_execControlPageWriteRelease port s).mem_eq hexec
  case helloReceive port hello => exact (same_execHelloReceive port hello s).mem_eq hexec
  case helloTimer => exact (same_execHelloTimer s).mem_eq hexec
  case portSignalDetect port lanes => exact (same_execPortSignalDetect port lanes s).mem_eq hexec
  case portTrainDone port hello => exact (same_execPortTrainDone port hello s).mem_eq hexec
  case portTrainTimeout port => exact (same_execPortTrainTimeout port s).mem_eq hexec
  case portDown port => exact (same_execPortDown port s).mem_eq hexec
  case laneFail port lane => exact (same_execLaneFail port lane s).mem_eq hexec
  case msgSegmentReceive frame => exact (same_execMsgSegmentReceive frame s).mem_eq hexec
  case msgStatusRead frame => exact (same_execMsgStatusRead frame s).mem_eq hexec
  case msgAssemblyTimeout mailbox => exact (same_execMsgAssemblyTimeout mailbox s).mem_eq hexec
  case requestSubmit mailbox => exact (same_execRequestSubmit mailbox s).mem_eq hexec
  case fenceRelease seq => exact (same_execFenceRelease seq s).mem_eq hexec
  case replayEntryExpire mailbox requestId => exact (same_execReplayEntryExpire mailbox requestId s).mem_eq hexec
  case coordinationTimeout seq => exact (same_execCoordinationTimeout seq s).mem_eq hexec
  case suspendTimeout tag => exact (same_execSuspendTimeout tag s).mem_eq hexec
  case serviceCoreFault core => exact (same_execServiceCoreFault core s).mem_eq hexec
  case takeoverResume => exact (same_execTakeoverResume s).mem_eq hexec
  case recoveryAnnounce => exact (same_execRecoveryAnnounce s).mem_eq hexec
  case powerOnSequence vinMv => exact (same_execPowerOnSequence vinMv s).mem_eq hexec
  case overVoltage vinMv => exact (same_execOverVoltage vinMv s).mem_eq hexec
  case dipBegin vinMv => exact (same_execDipBegin vinMv s).mem_eq hexec
  case dipInputRise vinMv => exact (same_execDipInputRise vinMv s).mem_eq hexec
  case dipEnd vinMv => exact (same_execDipEnd vinMv s).mem_eq hexec
  case powerControlEval power1ms power10ms currentMa => exact (same_execPowerControlEval power1ms power10ms currentMa s).mem_eq hexec
  case stepChangeDone die => exact (same_execStepChangeDone die s).mem_eq hexec
  case pwarnEval watts => exact (same_execPwarnEval watts s).mem_eq hexec
  case meterMinute => exact (same_execMeterMinute s).mem_eq hexec
  case unmarchedFirstWrite die page => exact (same_execUnmarchedFirstWrite die page s).mem_eq hexec
  case backgroundMarchPage die page => exact (same_execBackgroundMarchPage die page s).mem_eq hexec
  case keeperFrameReject frame => exact (same_execKeeperFrameReject frame s).mem_eq hexec
  case registerLoRead ktag addr => exact (same_execRegisterLoRead ktag addr s).mem_eq hexec
  case keeperFailover => exact (same_execKeeperFailover s).mem_eq hexec
  case x4RetrainDone port => exact (same_execX4RetrainDone port s).mem_eq hexec
  case sourceStateIdle die srcModule srcDie => exact (same_execSourceStateIdle die srcModule srcDie s).mem_eq hexec
  case tapInstruction instr => exact (same_execTapInstruction instr s).mem_eq hexec
  case dipInputFall vinMv => exact (same_execDipInputFall vinMv s).mem_eq hexec
  all_goals cases hc

/-- Settles O41: memory itself is left as it was (`mem_of_leavesMemory`), and so is each of its bytes. -/
theorem memoryFrame : Obligations.MemoryFrame := by
  unfold Obligations.MemoryFrame
  intro c s t hc hexec k
  rw [mem_of_leavesMemory hc hexec]

end Sys2Proof.Machine
end

section
/-! SUPPORT. Throttling (R397, R398, R404, R405, R407): clocks, steps and power states of dies and clusters change no byte of memory,
nothing of a pitch, and nothing that a cluster holds of results. -/

namespace Sys2Proof.Machine

open Sys2Proof

/-! ### What a die holds of results -/

/-- What a cluster holds of results: its slots, its working accumulators and the logical cluster that is loaded. -/
def Cluster.results (c : Cluster) : List (Nat × Acc) × Option TileAccs × Option TileAccs × Option TileAccs × Option Nat :=
  (c.slots, c.tile, c.bank, c.drain, c.current)

/-- The same of a die. -/
def Die.results (d : Die) := d.clusters.map Cluster.results

/-- Memory with its bad units, the pitches and what the clusters hold of results. -/
def State.effects (s : State) := (s.mem, s.bad, s.pitches, s.dies.map Die.results)

theorem State.effects_asked (s : State) : s.asked.effects = s.effects := by
  have hunsent : Die.results ∘ Die.unsent = Die.results := rfl
  show (s.mem, s.bad, s.pitches, (s.dies.map Die.unsent).map Die.results) = _
  rw [List.map_map, hunsent]
  rfl

@[simp] theorem State.effects_respond (s : State) (seq status : Nat) (body : Bytes) :
    (s.respond seq status body).effects = s.effects :=
  State.eq_respond State.effects State.effects_asked s seq status body

@[simp] theorem State.effects_setPower (s : State) (p : Power) : (s.setPower p).effects = s.effects := rfl
@[simp] theorem State.effects_setVin (s : State) (mv : Nat) : (s.setVin mv).effects = s.effects := rfl
@[simp] theorem State.effects_logEvent (s : State) (code sev die tag data : Nat) :
    (s.logEvent code sev die tag data).effects = s.effects := rfl

theorem State.effects_setDies {s : State} {ds : List Die} (h : ds.map Die.results = s.dies.map Die.results) :
    (s.setDies ds).effects = s.effects := by
  simp [State.effects, h]

theorem State.effects_setDies_map {s : State} {f : Die → Die} (h : ∀ d, (f d).results = d.results) :
    (s.setDies (s.dies.map f)).effects = s.effects := by
  have hf : Die.results ∘ f = Die.results := funext h
  exact State.effects_setDies (by rw [List.map_map, hf])

theorem State.effects_updDie {s : State} {f : Die → Die} (h : ∀ d, (f d).results = d.results) (die : Nat) :
    (s.updDie die f).effects = s.effects :=
  State.effects_setDies (map_modify_of_eq h s.dies die)

theorem Die.results_updCluster {f : Cluster → Cluster} (h : ∀ c, (f c).results = c.results) (d : Die) (c : Nat) :
    (d.updCluster c f).results = d.results :=
  map_modify_of_eq h d.clusters c

theorem State.effects_updCluster {s : State} {f : Cluster → Cluster} (h : ∀ c, (f c).results = c.results) (pl : Place) :
    (s.updCluster pl f).effects = s.effects :=
  State.effects_updDie (fun d => Die.results_updCluster h d pl.cluster) pl.die

/-! ### Dips, measurements and steps -/

@[simp] theorem State.effects_divide (s : State) (on : Bool) : (s.divide on).effects = s.effects :=
  State.effects_setDies_map (by intro _; rfl)

theorem map_mapIdx_of_eq {α β : Type} {f : Nat → α → α} {g : α → β} (h : ∀ i x, g (f i x) = g x) (l : List α) :
    (l.mapIdx f).map g = l.map g :=
  List.ext_getElem (by simp) fun i _ _ => by simp [h]

@[simp] theorem State.effects_sample (s : State) : s.sample.effects = s.effects :=
  State.effects_setDies (map_mapIdx_of_eq (by intro _ _; rfl) s.dies)

@[simp] theorem State.effects_stepsDown (s : State) (currentMa : Nat) : (s.stepsDown currentMa).effects = s.effects := by
  rw [State.stepsDown, State.effects_setPower]
  exact State.effects_setDies_map (by intro _; rfl)

@[simp] theorem State.effects_stepsUp (s : State) : s.stepsUp.effects = s.effects := by
  rw [State.stepsUp, State.effects_setPower]
  exact State.effects_setDies_map (by intro _; rfl)

/-- The PLLs are none of the results. -/
theorem Die.results_stopPlls (d : Die) : d.stopPlls.results = d.results := by
  unfold Die.stopPlls
  split_ifs <;> rfl

/-! ### Every command that throttles -/

theorem effects_execDipBegin {mv : Nat} {s t : State} (hexec : execDipBegin mv s = .next t) : t.effects = s.effects := by
  cases hexec
  dsimp only
  split_ifs <;> simp

theorem effects_execDipEnd {mv : Nat} {s t : State} (hexec : execDipEnd mv s = .next t) : t.effects = s.effects := by
  cases hexec
  dsimp only
  split_ifs <;> simp

theorem effects_execPowerControlEval {power1ms power10ms currentMa : Nat} {s t : State}
    (hexec : execPowerControlEval power1ms power10ms currentMa s = .next t) : t.effects = s.effects := by
  cases hexec
  dsimp only
  split_ifs <;> simp

theorem effects_execThermalControlEval {die sensor : Nat} {tj : Int} {s t : State} (htj : tj < 880)
    (hexec : execThermalControlEval die tj sensor s = .next t) : t.effects = s.effects := by
  have hmeasured : (s.updDie die fun d => { d with tj := tj, tjSensor := sensor % 8 }).effects = s.effects :=
    State.effects_updDie (by intro _; rfl) die
  cases hexec
  dsimp only
  rw [if_neg htj.not_ge]
  generalize s.updDie die (fun d => { d with tj := tj, tjSensor := sensor % 8 }) = u at hmeasured ⊢
  split_ifs
  · exact hmeasured
  · exact (State.effects_updDie (by intro d; split_ifs <;> rfl) die).trans hmeasured
  · exact (State.effects_updDie (by intro d; split_ifs <;> rfl) die).trans hmeasured
  · exact (State.effects_updDie (by intro d; split_ifs <;> rfl) die).trans hmeasured
  · exact hmeasured

theorem effects_execPwarnEval {watts : Nat} {s t : State} (hexec : execPwarnEval watts s = .next t) : t.effects = s.effects := by
  cases hexec
  dsimp only
  split_ifs
  · rfl
  · rfl
  · rfl
  · split
    · rfl
    · split_ifs <;> rfl

theorem effects_execPwrDieStateSetCap {seq : Nat} {s t : State} (hexec : execPwrDieStateSetCap seq s = .next t) :
    t.effects = s.effects := by
  cases hexec
  refine State.onDies_keeps (P := fun u => u.effects = s.effects) rfl (fun _ => s.effects_respond _ _ _) fun b ds => ?_
  exact (State.effects_respond _ _ _ _).trans (State.eq_foldl State.effects (fun u d => State.effects_updDie (by intro _; rfl) d) ds s)

theorem effects_execPwrDieStateSetIdle {seq : Nat} {s t : State} (hexec : execPwrDieStateSetIdle seq s = .next t) :
    t.effects = s.effects := by
  cases hexec
  refine State.onDies_keeps (P := fun u => u.effects = s.effects) rfl (fun _ => s.effects_respond _ _ _) fun b ds => ?_
  exact (State.effects_respond _ _ _ _).trans (State.eq_foldl State.effects (fun u d => State.effects_updDie (by intro _; rfl) d) ds s)

theorem effects_execOverVoltage {mv : Nat} {s t : State} (hexec : execOverVoltage mv s = .next t) : t.effects = s.effects := by
  unfold execOverVoltage supply at hexec
  split_ifs at hexec
  cases hexec
  dsimp only
  split_ifs <;> simp

theorem effects_execClusterWake {pl : Place} {s t : State} (hexec : execClusterWake pl s = .next t) : t.effects = s.effects := by
  cases hexec
  split
  · rfl
  · dsimp only
    split_ifs
    · exact (State.effects_updCluster (by intro _; rfl) pl).trans (State.effects_updDie (by intro _; rfl) pl.die)
    · rfl

theorem effects_execClusterDoze {pl : Place} {s t : State} (hexec : execClusterDoze pl s = .next t) : t.effects = s.effects := by
  cases hexec
  dsimp only
  split_ifs
  · exact State.effects_updCluster (by intro _; rfl) pl
  · rfl

theorem effects_execClusterRest {pl : Place} {s t : State} (hexec : execClusterRest pl s = .next t) : t.effects = s.effects := by
  cases hexec
  dsimp only
  split_ifs
  · exact (State.effects_updDie Die.results_stopPlls pl.die).trans (State.effects_updCluster (by intro _; rfl) pl)
  · rfl

theorem effects_execDramPllStop {die : Nat} {s t : State} (hexec : execDramPllStop die s = .next t) : t.effects = s.effects := by
  cases hexec
  dsimp only
  split_ifs
  · exact State.effects_updDie (by intro _; rfl) die
  · rfl

theorem effects_of_throttles {c : Instr} {s t : State} (hc : throttles c = true) (hexec : exec c s = .next t) :
    t.effects = s.effects := by
  cases c
  case dipBegin mv => exact effects_execDipBegin hexec
  case dipInputRise mv =>
    cases hexec
    split_ifs <;> rfl
  case dipInputFall mv =>
    cases hexec
    split_ifs <;> rfl
  case dipEnd mv => exact effects_execDipEnd hexec
  case powerControlEval power1ms power10ms currentMa => exact effects_execPowerControlEval hexec
  case stepChangeDone die =>
    cases hexec
    split_ifs
    · exact State.effects_updDie (by intro _; rfl) die
    · rfl
  case pwarnEval watts => exact effects_execPwarnEval hexec
  case overVoltage mv => exact effects_execOverVoltage hexec
  case pwrDieStateSetCap seq => exact effects_execPwrDieStateSetCap hexec
  case pwrDieStateSetIdle seq => exact effects_execPwrDieStateSetIdle hexec
  case clusterWake pl => exact effects_execClusterWake hexec
  case clusterDoze pl => exact effects_execClusterDoze hexec
  case clusterRest pl => exact effects_execClusterRest hexec
  case dramPllStop die => exact effects_execDramPllStop hexec
  case thermalControlEval die tj sensor => exact effects_execThermalControlEval (of_decide_eq_true hc) hexec
  all_goals cases hc

/-- Settles O45: memory, its bad units, the pitches and the results of the clusters are left alone (`effects_of_throttles`). -/
theorem throttlingKeepsResults : Obligations.ThrottlingKeepsResults := by
  unfold Obligations.ThrottlingKeepsResults
  intro c s t hc hexec
  have heffects := effects_of_throttles hc hexec
  simp only [State.effects, Prod.mk.injEq] at heffects
  exact heffects

end Sys2Proof.Machine
end

section
/-! SUPPORT. Firmware (R384, R386, R389): which operations leave the firmware's state as it was, what BOOT can come to, and that no
firmware command lowers SVN_MIN. -/

namespace Sys2Proof.Machine

open Sys2Proof

/-! ### Operations that leave the firmware's state -/

@[simp] theorem State.fw_respond (s : State) (seq status : Nat) (body : Bytes) : (s.respond seq status body).fw = s.fw :=
  State.eq_respond State.fw (fun _ => rfl) s seq status body

@[simp] theorem State.fw_updDie (s : State) (die : Nat) (f : Die → Die) : (s.updDie die f).fw = s.fw := rfl
@[simp] theorem State.fw_updPort (s : State) (port : Nat) (f : Port → Port) : (s.updPort port f).fw = s.fw := rfl
@[simp] theorem State.fw_updPitch (s : State) (tag : Nat) (f : Pitch → Pitch) : (s.updPitch tag f).fw = s.fw := rfl
@[simp] theorem State.fw_updBox (s : State) (m : Nat) (f : Mailbox → Mailbox) : (s.updBox m f).fw = s.fw := rfl
@[simp] theorem State.fw_logEvent (s : State) (code sev die tag data : Nat) : (s.logEvent code sev die tag data).fw = s.fw := rfl
@[simp] theorem State.fw_updRecord (s : State) (id : Nat) (f : TestRecord → TestRecord) : (s.updRecord id f).fw = s.fw := rfl

@[simp] theorem State.fw_closeRecord (s : State) (id : Nat) : (s.closeRecord id).fw = s.fw := by
  unfold State.closeRecord
  split
  · rfl
  · next r _ =>
    split_ifs
    · rfl
    · cases r.request with
      | none => rfl
      | some q => exact State.fw_respond _ _ _ _

@[simp] theorem State.fw_endMarch (s : State) (die : Nat) (abandoned : Bool) : (s.endMarch die abandoned).fw = s.fw := by
  unfold State.endMarch
  split
  · rfl
  · dsimp only
    rw [State.fw_closeRecord]
    split_ifs <;> rfl

@[simp] theorem State.fw_clearSram (s : State) (die c : Nat) : (s.clearSram die c).fw = s.fw := rfl

@[simp] theorem State.fw_clearDram (s : State) (die off n : Nat) : (s.clearDram die off n).fw = s.fw := rfl

@[simp] theorem State.fw_unmarch (s : State) (die : Nat) : (s.unmarch die).fw = s.fw := rfl

@[simp] theorem State.fw_testErase (s : State) (die target port : Nat) : (s.testErase die target port).fw = s.fw := by
  unfold State.testErase
  split_ifs
  · rw [State.fw_updDie, State.eq_foldl State.fw fun u c => u.fw_clearSram die c]
  · rw [State.eq_foldl State.fw fun u c => u.fw_clearDram die _ _]
  · rfl
  · rfl

@[simp] theorem State.fw_testOver (s : State) (die target : Nat) : (s.testOver die target).fw = s.fw := by
  unfold State.testOver
  split_ifs <;> rfl

@[simp] theorem State.fw_abandonTest (s : State) (die : Nat) : (s.abandonTest die).fw = s.fw := by
  unfold State.abandonTest
  dsimp only
  split
  · exact s.fw_endMarch die true
  · simp

@[simp] theorem State.fw_loseDie (s : State) (die : Nat) : (s.loseDie die).fw = s.fw := by
  rw [State.loseDie, State.fw_updDie, State.fw_unmarch, State.eq_foldl State.fw fun u c => u.fw_clearSram die c]

@[simp] theorem State.fw_cancelMove (s : State) (p : Pitch) : (s.cancelMove p).fw = s.fw := by
  unfold State.cancelMove
  split
  · rfl
  · rw [State.eq_foldl State.fw fun u d => u.fw_updDie d _, State.fw_updPitch]

@[simp] theorem State.fw_failPitch (s : State) (tag : Nat) : (s.failPitch tag).fw = s.fw := by
  unfold State.failPitch
  split
  · rfl
  · next p _ =>
    have hhalt : (p.dies.foldl (fun s d => s.updDie d fun d => { d with clusters := d.clusters.map Cluster.halt })
        (s.cancelMove p)).fw = s.fw := (State.eq_foldl State.fw (fun u d => u.fw_updDie d _) _ _).trans (s.fw_cancelMove p)
    dsimp only
    split_ifs
    · exact hhalt
    · cases p.busyWith with
      | none => exact hhalt
      | some q => exact (State.fw_respond _ _ _ _).trans hhalt

/-- Keeper-only mode ends a hand-over and the staging, and lowers no SVN_MIN (R409). -/
theorem State.svnMin_keeperOnly (s : State) (cause : Nat) : (s.keeperOnly cause).fw.svnMin = s.fw.svnMin := by
  have hlost : ∀ (u : State) (d : Nat), ((u.abandonTest d).loseDie d).fw = u.fw := fun u d => by simp
  have hunstaged : ∀ u : State, u.fw = s.fw → (u.setFw { u.fw with
      stage := 0, stageSize := 0, stageData := [], stageWritten := [], stageImage := none, handover := none }).fw.svnMin =
        s.fw.svnMin := fun u h => show u.fw.svnMin = _ by rw [h]
  rw [State.keeperOnly, State.fw_logEvent, setKpr_fw]
  refine hunstaged _ ?_
  rw [setBoxes_fw, State.eq_foldl State.fw hlost, State.eq_foldl State.fw State.fw_failPitch, setTests_fw, setRing_fw]

theorem State.kpr_logEvent (s : State) (code sev die tag data : Nat) : (s.logEvent code sev die tag data).kpr = s.kpr := rfl

@[simp] theorem State.mod_keeperOnly (s : State) (cause : Nat) : (s.keeperOnly cause).kpr.mod = .keeperOnly := by
  rw [State.keeperOnly, State.kpr_logEvent, setKpr_kpr]

/-! ### Submissions leave the firmware's state -/

theorem State.fw_deliver (s : State) (mailbox srcModule srcPort hchan htag requestId : Nat) (msg : Bytes) (counted : Bool) :
    (s.deliver mailbox srcModule srcPort hchan htag requestId msg counted).fw = s.fw :=
  State.eq_of_muted State.fw (fun _ => rfl) (s.muted_deliver _ _ _ _ _ _ _ _)

@[simp] theorem State.fw_refuseRequest (s : State) (m : Nat) (x : Submission) (status : Nat) :
    (s.refuseRequest m x status).fw = s.fw := s.fw_deliver _ _ _ _ _ _ _ _

@[simp] theorem State.fw_turnAway (s : State) (m : Nat) (x : Submission) : (s.turnAway m x).fw = s.fw :=
  s.fw_refuseRequest m x stNotPermitted

@[simp] theorem State.fw_duplicate (s : State) (m : Nat) (x : Submission) (e : WinEntry) : (s.duplicate m x e).fw = s.fw := by
  unfold State.duplicate
  split
  · exact s.fw_deliver _ _ _ _ _ _ _ _
  · rfl

@[simp] theorem State.fw_queueFull (s : State) (m : Nat) (x : Submission) : (s.queueFull m x).fw = s.fw := by
  unfold State.queueFull
  dsimp only
  split_ifs
  · rfl
  · exact State.fw_refuseRequest _ _ _ _

@[simp] theorem State.fw_accept (s : State) (m : Nat) (x : Submission) : (s.accept m x).fw = s.fw := rfl

@[simp] theorem State.fw_meetChecks (s : State) (m : Nat) (x : Submission) : (s.meetChecks m x).fw = s.fw := by
  unfold State.meetChecks
  dsimp only
  repeat' split
  all_goals simp

@[simp] theorem State.fw_submitBox (s : State) (m : Nat) : (s.submitBox m).fw = s.fw := by
  unfold State.submitBox
  split
  · rfl
  · exact State.fw_meetChecks _ _ _

@[simp] theorem State.fw_releaseHeld (s : State) : s.releaseHeld.fw = s.fw :=
  State.eq_foldl State.fw State.fw_submitBox _ _

/-! ### What BOOT can come to (R386) -/

@[simp] theorem State.mod_recover (s : State) : s.recover.kpr.mod = .recovery := rfl
@[simp] theorem State.fw_recover (s : State) : s.recover.fw = s.fw := rfl
@[simp] theorem State.running_startImage (s : State) (b : Bytes) (i : Image) : (s.startImage b i).fw.running = some i := rfl
@[simp] theorem State.svnMin_startImage (s : State) (b : Bytes) (i : Image) : (s.startImage b i).fw.svnMin = s.fw.svnMin := rfl

/-- The boot ROM's work ends in keeper-only mode or in recovery, or starts the image of a flash that is not being written and whose image
passes the checks. -/
theorem State.bootNow_cases (s : State) :
    s.bootNow = s.keeperOnly 0 ∨ (∃ u : State, u.fw.svnMin = s.fw.svnMin ∧ s.bootNow = u.recover) ∨
      ∃ i, s.fw.writing = false ∧ verifyImage s.fw (s.fw.flash.take s.fw.imageBytes) = some i ∧
        s.bootNow = s.startImage (s.fw.flash.take s.fw.imageBytes) i := by
  unfold State.bootNow
  dsimp only
  split_ifs with hpairs hwriting
  · exact .inl rfl
  · exact .inr (.inl ⟨s.setFw { s.fw with flashCode := 1 }, rfl, rfl⟩)
  · split
    · exact .inr (.inl ⟨s, rfl, rfl⟩)
    · next i hi => exact .inr (.inr ⟨i, Bool.eq_false_iff.mpr hwriting, hi, rfl⟩)

/-- A boot that makes the module READY has started a verified image. -/
theorem State.started_of_ready {s : State} (h : s.bootNow.kpr.mod = .ready) :
    ∃ i, s.fw.writing = false ∧ verifyImage s.fw (s.fw.flash.take s.fw.imageBytes) = some i ∧ s.bootNow.fw.running = some i := by
  rcases s.bootNow_cases with hboot | ⟨u, -, hboot⟩ | ⟨i, hwriting, hi, hboot⟩
  · rw [hboot, State.mod_keeperOnly] at h
    cases h
  · rw [hboot, State.mod_recover] at h
    cases h
  · exact ⟨i, hwriting, hi, hboot ▸ s.running_startImage _ i⟩

@[simp] theorem State.svnMin_bootNow (s : State) : s.bootNow.fw.svnMin = s.fw.svnMin := by
  rcases s.bootNow_cases with hboot | ⟨u, hu, hboot⟩ | ⟨i, -, -, hboot⟩
  · rw [hboot, State.svnMin_keeperOnly]
  · rw [hboot, State.fw_recover, hu]
  · rw [hboot, State.svnMin_startImage]

/-- An image that passes the checks is not below SVN_MIN (R384). -/
theorem svnMin_le_of_verifyImage {fw : Firmware} {b : Bytes} {i : Image} (h : verifyImage fw b = some i) : fw.svnMin ≤ i.svn := by
  unfold verifyImage at h
  split_ifs at h with hchecks
  cases h
  simp only [Bool.and_eq_true, decide_eq_true_eq] at hchecks
  exact hchecks.2

/-- BOOT leaves the module as it was, or is the boot ROM's work. -/
theorem exec_boot_cases {s t : State} (hexec : exec .boot s = .next t) : t = s.bootNow ∨ t = s := by
  cases hexec
  split_ifs
  · exact .inl rfl
  · exact .inr rfl

/-- A module that was not READY and is READY after BOOT runs the verified image of a flash that is not being written. -/
theorem running_of_exec_boot {s t : State} (hexec : exec .boot s = .next t) (hmod : s.kpr.mod ≠ .ready) (hready : t.kpr.mod = .ready) :
    ∃ i, s.fw.writing = false ∧ verifyImage s.fw (s.fw.flash.take s.fw.imageBytes) = some i ∧ t.fw.running = some i := by
  rcases exec_boot_cases hexec with rfl | rfl
  · exact State.started_of_ready hready
  · exact absurd hready hmod

/-! ### SVN_MIN never falls -/

/-- What a staging operation or an answer makes of SVN_MIN. -/
@[simp] theorem State.svnMin_stageDone (s : State) (seq : Nat) : (s.stageDone seq).fw.svnMin = s.fw.svnMin :=
  congrArg Firmware.svnMin (s.draw.fw_respond seq stOk s.stageAnswer)

@[simp] theorem State.svnMin_startRewrite (s : State) (b : Bytes) (raise : Bool) :
    (s.startRewrite b raise).fw.svnMin = s.fw.svnMin := rfl

@[simp] theorem State.svnMin_completeHandover (s : State) (h : Handover) (fault : Bool) :
    (s.completeHandover h fault).fw.svnMin = s.fw.svnMin := by
  rw [State.completeHandover, State.fw_respond]
  rfl

@[simp] theorem State.svnMin_handoverStep (s : State) (h : Handover) : (s.handoverStep h).fw.svnMin = s.fw.svnMin := by
  unfold State.handoverStep
  split_ifs
  · rfl
  · rfl
  · rw [State.fw_releaseHeld, State.svnMin_completeHandover]
  · rfl

@[simp] theorem State.svnMin_activateStaged (s : State) (seq : Nat) (b : Bytes) (i : Image) :
    (s.activateStaged seq b i).fw.svnMin = s.fw.svnMin := by
  unfold State.activateStaged
  dsimp only
  repeat' split
  all_goals simp

@[simp] theorem State.svnMin_dropHandover (s : State) (h : Handover) (status : Nat) :
    (s.dropHandover h status).fw.svnMin = s.fw.svnMin := by
  rw [State.dropHandover, State.fw_respond, State.fw_releaseHeld]
  rfl

theorem svnMin_execFwStageBegin {seq : Nat} {s t : State} (hexec : execFwStageBegin seq s = .next t) :
    t.fw.svnMin = s.fw.svnMin := by
  cases hexec
  refine State.onOperatorOp_keeps (P := fun u => u.fw.svnMin = s.fw.svnMin) rfl (fun _ => by simp) fun r => ?_
  dsimp only
  split_ifs <;> simp

theorem svnMin_execFwStageData {seq : Nat} {s t : State} (hexec : execFwStageData seq s = .next t) :
    t.fw.svnMin = s.fw.svnMin := by
  cases hexec
  refine State.onOperatorOp_keeps (P := fun u => u.fw.svnMin = s.fw.svnMin) rfl (fun _ => by simp) fun r => ?_
  dsimp only
  split_ifs <;> simp

theorem svnMin_execFwStageVerify {seq : Nat} {s t : State} (hexec : execFwStageVerify seq s = .next t) :
    t.fw.svnMin = s.fw.svnMin := by
  cases hexec
  refine State.onOperatorOp_keeps (P := fun u => u.fw.svnMin = s.fw.svnMin) rfl (fun _ => by simp) fun r => ?_
  repeat' split
  all_goals simp

theorem svnMin_execFwStageDiscard {seq : Nat} {s t : State} (hexec : execFwStageDiscard seq s = .next t) :
    t.fw.svnMin = s.fw.svnMin := by
  cases hexec
  refine State.onOperatorOp_keeps (P := fun u => u.fw.svnMin = s.fw.svnMin) rfl (fun _ => by simp) fun r => ?_
  split_ifs <;> simp

theorem svnMin_execFwActivate {seq : Nat} {s t : State} (hexec : execFwActivate seq s = .next t) :
    t.fw.svnMin = s.fw.svnMin := by
  cases hexec
  refine State.onOperator_keeps (P := fun u => u.fw.svnMin = s.fw.svnMin) rfl fun r => ?_
  dsimp only
  repeat' split
  all_goals simp

/-- The answer that a boot in recovery may bring changes SVN_MIN no more than the boot (R387). -/
theorem State.svnMin_bootAnswer (s : State) (q : Nat) :
    (if s.bootNow.kpr.mod = .ready then s.bootNow.respond q stOk [] else s.bootNow).fw.svnMin = s.fw.svnMin := by
  split_ifs <;> simp

/-- Only a rewrite that raises SVN_MIN changes it, to the SVN of the new image where that is higher (R389, step 5). -/
theorem svnMin_le_execFlashRewriteDone {good : Bool} {s t : State} (hexec : execFlashRewriteDone good s = .next t) :
    s.fw.svnMin ≤ t.fw.svnMin := by
  cases hexec
  split
  · exact le_rfl
  · next b raise _ =>
    dsimp only
    split
    · have hraised : s.fw.svnMin ≤ (if raise then max s.fw.svnMin (imageFields b).svn else s.fw.svnMin) := by
        split_ifs
        · exact le_max_left _ _
        · exact le_rfl
      split
      · exact hraised
      · rw [State.svnMin_bootAnswer]
        exact hraised
    · cases s.recoveryActivate with
      | none => exact le_rfl
      | some q =>
        rw [Option.elim_some, State.fw_respond]
        exact le_rfl

theorem svnMin_le_of_isFirmware {c : Instr} {s t : State} (hc : isFirmware c = true) (hexec : exec c s = .next t) :
    s.fw.svnMin ≤ t.fw.svnMin := by
  cases c
  case boot =>
    rcases exec_boot_cases hexec with rfl | rfl
    · exact s.svnMin_bootNow.ge
    · exact le_rfl
  case fwStageBegin seq => exact (svnMin_execFwStageBegin hexec).ge
  case fwStageData seq => exact (svnMin_execFwStageData hexec).ge
  case fwStageVerify seq => exact (svnMin_execFwStageVerify hexec).ge
  case fwStageDiscard seq => exact (svnMin_execFwStageDiscard hexec).ge
  case fwStageQuery seq => exact (congrArg (fun u : State => u.fw.svnMin) (State.asked_of_isQuery (c := .fwStageQuery seq) rfl hexec)).ge
  case fwActivate seq => exact (svnMin_execFwActivate hexec).ge
  case flashRewriteDone good => exact svnMin_le_execFlashRewriteDone hexec
  case standbyReadyTimeout =>
    cases hexec
    repeat' split
    all_goals simp
  case handoverBoundaryTimeout =>
    cases hexec
    repeat' split
    all_goals simp
  all_goals cases hc

/-- Settles O59: a boot that makes the module READY has started a verified image (`running_of_exec_boot`), and no firmware command lowers
SVN_MIN. -/
theorem oldFirmwareNeverRuns : Obligations.OldFirmwareNeverRuns := by
  unfold Obligations.OldFirmwareNeverRuns
  refine ⟨fun s t hexec hmod hbad hready => ?_, fun s t i hexec hmod hi => ⟨svnMin_le_of_verifyImage hi, fun hready => ?_⟩,
    fun c s t hc hexec => svnMin_le_of_isFirmware hc hexec⟩
  · obtain ⟨i, hwriting, hi, -⟩ := running_of_exec_boot hexec hmod hready
    simp [hwriting, hi] at hbad
  · obtain ⟨j, -, hj, hrunning⟩ := running_of_exec_boot hexec hmod hready
    rw [hrunning, ← hj, hi]

end Sys2Proof.Machine
end

section
/-! SUPPORT. The machine's step, what reset leaves, the gates of a turnover (R302), and the stride test (R69). -/

namespace Sys2Proof.Machine

open Sys2Proof

/-! ### The step and reset -/

/-- Settles O1: `step_of_cons` on the state with the command in front. -/
theorem stepRunsFrontCommand : Obligations.StepRunsFrontCommand := by
  intro c rest s
  exact step_of_cons rfl

/-- Settles O37: every store of the reset state is empty. -/
theorem resetIsCanonical : Obligations.ResetIsCanonical := by
  unfold Obligations.ResetIsCanonical State.Inv
  decide

/-- After reset every mailbox is as it comes out of its default. -/
theorem State.box_reset {m : Nat} (hm : m < 64) : State.reset.box m = {} := by
  have hboxes : State.reset.boxes = List.replicate 64 {} := rfl
  rw [State.box, hboxes, List.getD_replicate _ hm]

/-- Settles O38: the fields of the reset state are read off; the mailboxes are `State.box_reset`. -/
theorem resetLeaves : Obligations.ResetLeaves := by
  have hbox : ∀ m, m < 64 →
      (State.reset.box m).bound = none ∧ (State.reset.box m).window = [] ∧ (State.reset.box m).outstanding = 0 := by
    intro m hm
    rw [State.box_reset hm]
    exact ⟨rfl, rfl, rfl⟩
  exact ⟨rfl, rfl, rfl, rfl, hbox, rfl, rfl, rfl, rfl, rfl, rfl, rfl, rfl, rfl, rfl⟩

theorem now_tick (s : State) : (tick s).now = s.now + 1 := by
  unfold tick
  dsimp only
  split <;> rfl

theorem resetDue_tick (s : State) : (tick s).kpr.resetDue = s.kpr.resetDue := by
  unfold tick
  dsimp only
  split <;> rfl

/-- Settles O39: the count is `tick`, and no reset takes effect where none is due. -/
theorem emptyQueueCountsTime : Obligations.EmptyQueueCountsTime := by
  refine ⟨fun s h => step_of_nil h, fun s hrun hdue => ?_, fun s hstop => idle_of_stopped hstop⟩
  rw [idle_of_running hrun, resetDue_tick, hdue]
  exact now_tick s

/-! ### Gates (R302) -/

/-- In SWAP a descriptor of a step of the new epoch may be submitted where the gate of its layer is open. -/
theorem submitOk_of_swap {p : Pitch} {m : Model} {t : TokStep} {pl : Plan} (w : Work) (hplan : p.planOf? m.id = some pl)
    (hstage : pl.stage = 3) (hepoch : t.epoch = m.epoch) :
    submitOk p m t w = pl.gates.getD (layerOf pl.bounds w.index) true := by
  simp [submitOk, hplan, hstage, hepoch]

/-- The queue of the instance takes the descriptors of a step up to the first one that the gates hold. -/
theorem Pitch.queue?_submitStep {p : Pitch} {model step : Nat} {m : Model} {t : TokStep} {q : Queue}
    (hm : p.model? model = some m) (ht : m.steps.find? (fun t => t.id = step) = some t)
    (hq : p.queue? (gulperQueue model) = some q) :
    (p.submitStep model step).queue? (gulperQueue model) = some (q.submitWork (t.todo.takeWhile (submitOk p m t))) := by
  have hid : ∀ q : Queue, (q.submitWork (t.todo.takeWhile (submitOk p m t))).id = q.id := fun _ => rfl
  have hpair : ((p.model? model).bind fun m => (m.steps.find? fun t => t.id = step).map fun t => (m, t)) = some (m, t) := by
    rw [hm, Option.bind_some, ht, Option.map_some]
  simp only [Pitch.submitStep, hpair]
  calc _ = (p.updQueue (gulperQueue model) fun q => q.submitWork (t.todo.takeWhile (submitOk p m t))).queue? (gulperQueue model) := rfl
    _ = _ := by rw [Pitch.queue?_updQueue_same _ _ _ hid, hq, Option.map_some]

/-- Settles O60: the step's descriptors split at the first one that `submitOk` refuses, which is the first closed gate. -/
theorem gatesHoldDescriptors : Obligations.GatesHoldDescriptors := by
  intro p model step m t q pl hm ht hq hplan hstage hepoch
  have hok := fun w => submitOk_of_swap w hplan hstage hepoch
  refine ⟨t.todo.takeWhile (submitOk p m t), t.todo.dropWhile (submitOk p m t), List.takeWhile_append_dropWhile.symm,
    Pitch.queue?_submitStep hm ht hq, fun w hw => ?_, fun w hw => ?_⟩
  · rw [← hok w]
    exact List.mem_takeWhile_imp hw
  · rw [← hok w]
    have hhead := List.head?_dropWhile_not (submitOk p m t) t.todo
    simpa [hw] using hhead

/-! ### The stride test (R69) -/

theorem insertBy_perm {α : Type} (le : α → α → Bool) (x : α) (l : List α) : (insertBy le x l).Perm (x :: l) := by
  induction l with
  | nil => exact .refl _
  | cons y l ih =>
    rw [insertBy]
    split
    · exact .refl _
    · exact (ih.cons y).trans (.swap x y l)

theorem sortBy_perm {α : Type} (le : α → α → Bool) (l : List α) : (sortBy le l).Perm l := by
  induction l with
  | nil => exact .refl _
  | cons x l ih => exact (insertBy_perm le x _).trans (ih.cons x)

theorem insertBy_map {α β : Type} (le : β → β → Bool) (f : α → β) (x : α) (l : List α) :
    insertBy le (f x) (l.map f) = (insertBy (fun a b => le (f a) (f b)) x l).map f := by
  induction l with
  | nil => rfl
  | cons y l ih =>
    simp only [List.map_cons, insertBy]
    split
    · rfl
    · rw [ih, List.map_cons]

theorem sortBy_map {α β : Type} (le : β → β → Bool) (f : α → β) (l : List α) :
    sortBy le (l.map f) = (sortBy (fun a b => le (f a) (f b)) l).map f := by
  induction l with
  | nil => rfl
  | cons x l ih => rw [List.map_cons, sortBy, ih, insertBy_map, sortBy]

/-- Where the strides are nested, a difference of two view indices that moves nothing is zero: the largest stride exceeds what all the
smaller ones can add up to. -/
theorem eq_zero_of_nested {α : Type} (stride : α → Int) (extent : α → Nat) (δ : α → Int) (l : List α) :
    ∀ (span : Nat) (y : Int), nested span (l.map fun a => (32 * (stride a).natAbs, extent a)) = true →
      (∀ a ∈ l, (δ a).natAbs < extent a) → y.natAbs < span → y + (l.map fun a => δ a * (32 * stride a)).sum = 0 →
      y = 0 ∧ ∀ a ∈ l, δ a = 0 := by
  induction l with
  | nil =>
    intro span y _ _ _ hsum
    exact ⟨by simpa using hsum, by simp⟩
  | cons a l ih =>
    intro span y hnest hδ hy hsum
    simp only [List.map_cons, nested, Bool.and_eq_true, decide_eq_true_eq] at hnest
    simp only [List.map_cons, List.sum_cons, ← add_assoc] at hsum
    obtain ⟨hspan, hnest⟩ := hnest
    have ha : (δ a).natAbs < extent a := hδ a List.mem_cons_self
    have habs : (δ a * (32 * stride a)).natAbs = 32 * (stride a).natAbs * (δ a).natAbs := by
      rw [Int.natAbs_mul, Int.natAbs_mul, mul_comm]; rfl
    have hle : (δ a * (32 * stride a)).natAbs ≤ 32 * (stride a).natAbs * (extent a - 1) := by
      rw [habs]
      exact Nat.mul_le_mul_left _ (by omega)
    obtain ⟨hzero, hrest⟩ := ih _ _ hnest (fun b hb => hδ b (List.mem_cons_of_mem _ hb)) (by omega) hsum
    have hδa : δ a = 0 := by
      by_contra hne
      have hge : 32 * (stride a).natAbs * 1 ≤ 32 * (stride a).natAbs * (δ a).natAbs := Nat.mul_le_mul_left _ (by omega)
      omega
    refine ⟨by simpa [hδa] using hzero, fun b hb => ?_⟩
    obtain rfl | hb := List.mem_cons.mp hb
    · exact hδa
    · exact hrest b hb

/-- A view index of a box has one place for each dimension, inside the dimension's extent. -/
theorem forall₂_of_mem_boxIndices {exts : List Nat} : ∀ {v : List Int}, v ∈ boxIndices exts →
    List.Forall₂ (fun (x : Int) (e : Nat) => 0 ≤ x ∧ x < e) v exts := by
  induction exts with
  | nil =>
    intro v hv
    obtain rfl : v = [] := by simpa [boxIndices] using hv
    exact .nil
  | cons e exts ih =>
    intro v hv
    obtain ⟨r, hr, i, hi, rfl⟩ : ∃ r ∈ boxIndices exts, ∃ i < e, (i : Int) :: r = v := by simpa [boxIndices] using hv
    exact .cons ⟨by omega, by omega⟩ (ih hr)

/-- A descriptor has as many dimensions as it says. -/
theorem length_dims_parseDesc (b : Bytes) : (parseDesc b).dims.length = (parseDesc b).ndim := by simp [parseDesc]

/-- The offset of a view index as a sum over the dimensions. -/
theorem TDesc.stripOff_eq_sum (t : TDesc) (v : List Int) :
    t.stripOff v = ((List.range t.ndim).map fun i => v.getD i 0 * (t.dim (i + 1)).stride).sum := by
  rw [TDesc.stripOff, List.sum_eq_foldl, List.foldl_map]

theorem TDesc.dims_eq_map {t : TDesc} (hlen : t.dims.length = t.ndim) : t.dims = (List.range t.ndim).map fun i => t.dim (i + 1) := by
  refine List.ext_getElem (by simp [hlen]) fun i h₁ h₂ => ?_
  simp [TDesc.dim, h₁]

/-- The place of a view index of the valid box along a dimension lies in the dimension's extent. -/
theorem TDesc.getD_mem_boxStrips {t : TDesc} (hlen : t.dims.length = t.ndim) {v : List Int} (hv : v ∈ t.boxStrips) :
    v.length = t.ndim ∧ ∀ i < t.ndim, 0 ≤ v.getD i 0 ∧ v.getD i 0 < ((t.dim (i + 1)).extent : Int) := by
  have h := forall₂_of_mem_boxIndices hv
  rw [TDesc.dims_eq_map hlen, List.map_map] at h
  obtain ⟨hl, hget⟩ := List.forall₂_iff_get.mp h
  have hcount : ((List.range t.ndim).map ((·.extent) ∘ fun i => t.dim (i + 1))).length = t.ndim := by
    rw [List.length_map, List.length_range]
  rw [hcount] at hl
  refine ⟨hl, fun i hi => ?_⟩
  have hplace := hget i (by omega) (by omega)
  simpa [hl, hi] using hplace

/-- How far two view indices lie apart along the dimension at an index. -/
def indexGap (v w : List Int) (i : Nat) : Int := v.getD i 0 - w.getD i 0

/-- The dimensions that the stride test is about, by their index. -/
def TDesc.wide (t : TDesc) : List Nat := (List.range t.ndim).filter fun i => 1 < (t.dim (i + 1)).extent

theorem TDesc.mem_wide {t : TDesc} {i : Nat} : i ∈ t.wide ↔ i < t.ndim ∧ 1 < (t.dim (i + 1)).extent := by simp [TDesc.wide]

/-- The strides that the test sorts, by the index of their dimension. -/
theorem TDesc.strides_eq_map {t : TDesc} (hlen : t.dims.length = t.ndim) :
    t.strides = t.wide.map fun i => (32 * (t.dim (i + 1)).stride.natAbs, (t.dim (i + 1)).extent) := by
  rw [TDesc.strides, TDesc.dims_eq_map hlen, List.filter_map, List.map_map]
  rfl

/-- Two indices inside an extent lie less than the extent apart, and nowhere apart where the extent is one. -/
theorem TDesc.natAbs_indexGap_lt {t : TDesc} (hlen : t.dims.length = t.ndim) {v w : List Int} (hv : v ∈ t.boxStrips)
    (hw : w ∈ t.boxStrips) {i : Nat} (hi : i < t.ndim) : (indexGap v w i).natAbs < (t.dim (i + 1)).extent := by
  have hvi := (TDesc.getD_mem_boxStrips hlen hv).2 i hi
  have hwi := (TDesc.getD_mem_boxStrips hlen hw).2 i hi
  unfold indexGap
  omega

/-- Terms that the filter drops add nothing where they are zero. -/
theorem sum_map_filter_of_zero {α : Type} (p : α → Bool) (f : α → Int) (l : List α) (h : ∀ a ∈ l, p a = false → f a = 0) :
    ((l.filter p).map f).sum = (l.map f).sum := by
  induction l with
  | nil => rfl
  | cons a l ih =>
    have ih := ih fun b hb => h b (List.mem_cons_of_mem _ hb)
    cases hp : p a with
    | false => simp [hp, ih, h a List.mem_cons_self hp]
    | true => simp [hp, ih]

/-- What the gaps along the wide dimensions move is what lies between the two strips, in elements. -/
theorem TDesc.sum_wide {t : TDesc} {v w : List Int} (hflat : ∀ i < t.ndim, (t.dim (i + 1)).extent ≤ 1 → indexGap v w i = 0) :
    (t.wide.map fun i => indexGap v w i * (32 * (t.dim (i + 1)).stride)).sum = 32 * (t.stripOff v - t.stripOff w) := by
  rw [TDesc.wide, sum_map_filter_of_zero, TDesc.stripOff_eq_sum, TDesc.stripOff_eq_sum]
  · induction List.range t.ndim with
    | nil => rfl
    | cons i l ih =>
      rw [List.map_cons, List.sum_cons, ih, List.map_cons, List.sum_cons, List.map_cons, List.sum_cons, indexGap]
      ring
  · intro i hi hext
    rw [hflat i (List.mem_range.mp hi) (by simpa using hext), zero_mul]

/-- Settles O51: along the dimensions of extent above 1 the two view indices agree by `eq_zero_of_nested` on the sorted strides, and
along the others there is one place. -/
theorem destinationsAreInjective : Obligations.DestinationsAreInjective := by
  intro b v w hinj hv hw hoff
  have hlen := length_dims_parseDesc b
  generalize parseDesc b = t at *
  have hgap := fun i (hi : i < t.ndim) => TDesc.natAbs_indexGap_lt hlen hv hw hi
  have hflat : ∀ i < t.ndim, (t.dim (i + 1)).extent ≤ 1 → indexGap v w i = 0 := fun i hi hext => by
    have := hgap i hi
    omega
  rw [TDesc.injective, TDesc.strides_eq_map hlen, sortBy_map] at hinj
  have hperm := sortBy_perm (fun i j => decide (32 * (t.dim (i + 1)).stride.natAbs ≤ 32 * (t.dim (j + 1)).stride.natAbs)) t.wide
  have hmem := fun i => (hperm.mem_iff (a := i)).trans TDesc.mem_wide
  obtain ⟨-, hwide⟩ := eq_zero_of_nested (fun i => (t.dim (i + 1)).stride) _ (indexGap v w) _ 32 0 hinj
    (fun i hi => hgap i ((hmem i).mp hi).1) (by decide)
    (by rw [(hperm.map _).sum_eq, TDesc.sum_wide hflat, hoff, sub_self, mul_zero, add_zero])
  have hzero : ∀ i < t.ndim, indexGap v w i = 0 := fun i hi => by
    by_cases hext : 1 < (t.dim (i + 1)).extent
    · exact hwide i ((hmem i).mpr ⟨hi, hext⟩)
    · exact hflat i hi (by omega)
  have hvl := (TDesc.getD_mem_boxStrips hlen hv).1
  have hwl := (TDesc.getD_mem_boxStrips hlen hw).1
  refine List.ext_getElem (by rw [hvl, hwl]) fun i hi hj => ?_
  have heq := sub_eq_zero.mp (hzero i (hvl ▸ hi))
  simpa [hi, hj] using heq

end Sys2Proof.Machine
end

section
/-! SUPPORT. Request frames at a die (R320, R353): which frame is discarded and which is answered from the stored outcomes. -/

namespace Sys2Proof.Machine

open Sys2Proof

/-- A module with an ID that has not gone to the keepers alone hears its fabric (R354). -/
theorem State.deaf_eq_false {s : State} (hmod : s.kpr.mod ≠ .keeperOnly) (hassigned : s.fab.assigned = true) : s.deaf = false := by
  simp [State.deaf, hmod, hassigned]

/-- A request frame whose source has room and that overtakes no earlier one is delivered (R353, R359). -/
theorem exec_e2eFrameDeliver {s : State} {die : Nat} {f : Frame} (htyp : isRequest f.typ = true)
    (hroom : (s.die die).sourceRoom f = true) (hover : s.overtakes f = false) :
    exec (.e2eFrameDeliver die f) s = .next (s.deliverFrame die f none) := by
  show execE2eFrameDeliver die f s = _
  simp [execE2eFrameDeliver, htyp, hroom, hover]

/-- A frame that the tag check refuses is discarded (R320). -/
theorem State.deliverFrame_of_foreign {s : State} {die : Nat} {f : Frame} (inPort : Option Nat) (hdeaf : s.deaf = false) (htyp : f.typ ≠ 4)
    (hwin : hostWindow f = false) (htag : s.tagOk die f = false) :
    s.deliverFrame die f inPort = s.rejectFrame die f (s.ownPort f inPort) := by
  simp [State.deliverFrame, hdeaf, htyp, hwin, htag]

/-- Neither the tag of the die's pitch nor that of its lending set passes the check. -/
theorem State.tagOk_eq_false {s : State} {die : Nat} {f : Frame} (hfirm : f.srcKind ≠ 1) (hkeeper : f.srcKind ≠ 2)
    (htag : s.dieTag? die ≠ some f.tag)
    (hlend : ∀ l, s.dieLend? die = some l → ¬ (l.tag = f.tag ∧ l.homeModule = f.srcModule ∧ f.srcPort = 0xFF)) :
    s.tagOk die f = false := by
  cases h : s.dieLend? die with
  | none => simp [State.tagOk, hfirm, hkeeper, htag, h]
  | some l =>
    have := hlend l h
    simp only [State.tagOk, hfirm, hkeeper, htag, h, Option.elim]
    simpa [and_assoc] using this

/-- A discarded frame is counted on the die and leaves one event; nothing else but a port's count of discards changes. -/
theorem State.rejectFrame_keeps (s : State) (die : Nat) (f : Frame) (inPort : Option Nat) :
    let t := s.rejectFrame die f inPort
    t.mem = s.mem ∧ t.bad = s.bad ∧ t.pitches = s.pitches ∧ t.dies = (s.updDie die fun d => { d with foreign := d.foreign + 1 }).dies ∧
      t.boxes = s.boxes ∧ t.ring = s.ring ∧ t.sent = s.sent ∧ t.log.next = s.log.next + 1 := by
  cases inPort <;> exact ⟨rfl, rfl, rfl, rfl, rfl, rfl, rfl, rfl⟩

/-- Settles O54: the tag check refuses the frame, and the discard leaves the rest alone. -/
theorem foreignFramesAreDiscarded : Obligations.ForeignFramesAreDiscarded := by
  intro s die f hmod hassigned hreq htyp hwin hroom hover hfirm hkeeper htag hlend
  have hforeign := State.tagOk_eq_false hfirm hkeeper htag hlend
  refine ⟨_, exec_e2eFrameDeliver hreq hroom hover, ?_⟩
  rw [State.deliverFrame_of_foreign none (State.deaf_eq_false hmod hassigned) htyp hwin hforeign]
  exact s.rejectFrame_keeps die f _

/-- A frame that passes the checks of its die, and that is not forwarded, is served once (R353, R358). -/
theorem State.deliverFrame_eq_serveOnce {s : State} {die : Nat} {f : Frame} (inPort : Option Nat) (hdeaf : s.deaf = false)
    (hread : f.typ ≠ 2) (hmsg : f.typ ≠ 4)
    (hok : hostWindow f = true ∨ (s.tagOk die f = true ∧ s.suspendRefuses f = false))
    (hhere : (s.forwardDest f).filter (fun d => d / 2 ^ 43 != s.fab.moduleId * 32 + die) = none) :
    s.deliverFrame die f inPort = s.serveOnce die f := by
  have hpass : hostWindow f = false → ¬ (s.tagOk die f = false ∨ s.suspendRefuses f = true) := by
    obtain hwin | ⟨htag, hrun⟩ := hok
    · simp [hwin]
    · simp [htag, hrun]
  rw [State.deliverFrame, hhere]
  simpa [hdeaf, hread, hmsg] using fun hwin hbad => absurd hbad (hpass hwin)

/-- A frame with a stored outcome is answered with it. -/
theorem State.serveOnce_of_outcome {s : State} {die : Nat} {f : Frame} {x : SourceState} {o : Nat × Frame}
    (hsource : (s.die die).source? f = some x) (houtcome : x.outcomes.find? (fun o => o.1 = f.txn) = some o) :
    s.serveOnce die f = (s.updDie die fun d => d.seen f s.now).respondFrame die o.2 := by
  simp [State.serveOnce, hsource, houtcome]

/-- Settles O55: the die keeps the outcome, so serving the frame once is sending the stored response again. -/
theorem duplicateFramesAreNotExecuted : Obligations.DuplicateFramesAreNotExecuted := by
  intro s die f x o hmod hassigned htyp hover hok hhere hsource houtcome
  have hreq : isRequest f.typ = true := by
    obtain h | h | h := htyp <;> simp [isRequest, h]
  have hroom : (s.die die).sourceRoom f = true := by simp [Die.sourceRoom, hsource]
  rw [exec_e2eFrameDeliver hreq hroom hover,
    State.deliverFrame_eq_serveOnce none (State.deaf_eq_false hmod hassigned) (by omega) (by omega) hok hhere,
    State.serveOnce_of_outcome hsource houtcome]
  rfl

end Sys2Proof.Machine
end

section
/-! SUPPORT. What a command finds: the request, the item, the block or the turnover that it names; and the completion of the pitch
commands. -/

namespace Sys2Proof.Machine

open Sys2Proof

/-! ### What a command finds -/

section
variable {s : State} {seq command : Nat} {r : Request}

theorem State.onOperator_eq (hr : s.request? seq command = some r) (f : Request → State) : s.onOperator seq command f = f r := by
  rw [State.onOperator, hr]

theorem State.onOperatorOp_eq {off op : Nat} (n : Nat) (hr : s.request? seq command = some r) (hop : u8 r.body off = op)
    (f : Request → State) : s.onOperatorOp seq command off n op f = f r := by
  rw [State.onOperatorOp, State.onOperator_eq hr, if_pos hop]

theorem State.onRequest_eq {p : Pitch} (h : RunsFor s seq command r p) (f : Request → Pitch → State) :
    s.onRequest seq command f = f r p := by
  obtain ⟨hr, hp, hst⟩ := h
  simp only [State.onRequest, hr, hp, if_neg hst]

theorem State.onRequestOp_eq {p : Pitch} {off op : Nat} (n : Nat) (h : RunsFor s seq command r p) (hop : u8 r.body off = op)
    (f : Request → Pitch → State) : s.onRequestOp seq command off n op f = f r p := by
  rw [State.onRequestOp, State.onRequest_eq h, if_pos hop]

theorem State.onDies_eq {op : Nat} {cap idle : Bool} (hr : s.request? seq 0x0901 = some r) (hop : u8 r.body 4 = op)
    (hok : dieStateOk r.body cap idle true = true) (f : Bytes → List Nat → State) :
    s.onDies seq op cap idle f = f r.body (maskBits (u32 r.body 0) 24) := by
  rw [State.onDies, State.onOperatorOp_eq 8 hr hop]
  simp only [hok, Bool.not_true, Bool.false_eq_true, if_false]

theorem State.onNamed_eq {tag : Nat} {p : Pitch} (hp : s.pitch? tag = some p) (f : Pitch → State) : s.onNamed seq tag f = f p := by
  rw [State.onNamed, hp]

end

section
variable {s : State} {p : Pitch}

theorem State.onItem_eq {k : ItemKey} {i : Item} (h : OnItem s k p i) (f : Pitch → Item → State) : s.onItem k f = f p i := by
  obtain ⟨hp, hi⟩ := h
  simp only [State.onItem, hp, hi]

theorem State.onBlock_eq {tag run layer block : Nat} {r : Run} {l : Layer} {u : Rule} {c : CBlock}
    (h : OnBlock s tag run layer block p r l u c) (f : Pitch → Run → Layer → Rule → CBlock → State) :
    s.onBlock tag run layer block f = f p r l u c := by
  obtain ⟨hp, hr, hl, hc, hu⟩ := h
  simp only [State.onBlock, hp, hr, hl, hc, hu, Option.elim]

theorem State.onTurnover_eq {tag run : Nat} {x : Plan} {r : Run} {m : Model} (h : OnTurnover s tag run p x r m)
    (f : Pitch → Plan → Run → Model → State) : s.onTurnover tag run f = f p x r m := by
  obtain ⟨hp, hst, hcore, hx, hr, hm⟩ := h
  simp [State.onTurnover, hp, hst, hcore, hx, hr, hm]

end

/-! ### Pitch commands -/

/-- A frozen channel of a mask keeps the OFF request out of the port's list (R318). -/
theorem State.bindPort_off {s : State} {seq port mask tag : Nat} (hidle : ∀ v ∈ maskBits mask 8, (s.port port).stamped.getD v 0 = 0) :
    s.bindPort seq port mask 0 tag = (s.updPort port fun p =>
      { p with
        roles := setRoles p.roles mask .off, offs := p.offs.filter (·.1 != seq)
        hostOut := p.hostOut.filter fun x => !mask.testBit x.1 }).respond seq stOk [] := by
  have hall : (maskBits mask 8).all (fun v => (s.port port).stamped.getD v 0 = 0) = true := by simpa using hidle
  simp only [State.bindPort, hall, if_true]
  rfl

/-- Free channels on the right side of the bridge take their role (R317). -/
theorem State.bindPort_on {s : State} {seq port mask role tag : Nat} (hrole : role ≠ 0)
    (hside : decide (role = 2) = s.hostFacing port)
    (hfree : ∀ v ∈ maskBits mask 8, (s.port port).roles.getD v .off = .off ∧ (s.port port).offs.any (fun x => x.2.testBit v) = false) :
    s.bindPort seq port mask role tag =
      (s.updPort port fun p => { p with roles := setRoles p.roles mask (roleOf role tag) }).respond seq stOk [] := by
  have hbusy : (maskBits mask 8).any (fun v => ((s.port port).roles.getD v .off != .off &&
      (s.port port).roles.getD v .off != roleOf role tag) || (s.port port).offs.any fun x => x.2.testBit v) = false := by
    rw [List.any_eq_false]
    intro v hv
    obtain ⟨hoff, hoffs⟩ := hfree v hv
    rw [hoff, hoffs]
    simp
  simp only [State.bindPort, if_neg hrole, hside, bne_self_eq_false, hbusy, Bool.false_eq_true, if_false]

/-- Settles O2: the request's checks pass, and each way of binding answers as its own lemma says. -/
theorem completesPitchSetup : Obligations.CompletesPitchSetup := by
  refine ⟨?_, ?_, ?_, ?_, ?_, ?_⟩
  · intro s seq r hr hfail hlend
    show execPitchCreate seq s = _
    simp only [execPitchCreate, State.onOperator_eq hr, hfail, hlend, if_true]
  · intro s seq r p t hr hfail hlend hp ht
    show execPitchCreate seq s = _
    simp only [execPitchCreate, State.onOperator_eq hr, hfail, hlend, ← hp, ← ht, Bool.false_eq_true, if_false]
  · intro s seq r hr hok hport hrole hside hfree
    show execPitchBindPort seq s = _
    simp only [execPitchBindPort, State.onOperator_eq hr, hok, hport, Bool.not_true, Bool.false_eq_true, if_false, if_true,
      State.bindPort_on hrole hside hfree]
  · intro s seq r hr hok hport hrole hidle
    show execPitchBindPort seq s = _
    simp only [execPitchBindPort, State.onOperator_eq hr, hok, hport, hrole, Bool.not_true, Bool.false_eq_true, if_false, if_true,
      State.bindPort_off hidle]
  · intro s seq r hr hok hbox hrole hbound hunb
    show execPitchBindPort seq s = _
    simp [execPitchBindPort, State.onOperator_eq hr, hok, hbox, hrole, State.bindBox, hbound, hunb]
  · intro s seq r t hr hok hbox hrole hunb ht hpend
    show execPitchBindPort seq s = _
    simp [execPitchBindPort, State.onOperator_eq hr, hok, hbox, hrole, State.bindBox, hunb, ← ht, hpend]

/-- Settles O3: each command meets its checks; a suspend goes on as `State.suspendStep` says. -/
theorem completesPitchStates : Obligations.CompletesPitchStates := by
  refine ⟨?_, ?_, ?_, ?_, ?_, ?_, ?_⟩
  · intro s seq r p q hr hzero hrest hp hst hbusy hq
    show execPitchSuspend seq s = _
    simp [execPitchSuspend, State.onOperator_eq hr, hzero, hrest, State.onNamed_eq hp, hst, hbusy, hq]
  · intro s seq r p hr hzero hrest hp hbusy hst hdone
    show execPitchSuspend seq s = _
    simp [execPitchSuspend, State.onOperator_eq hr, hzero, hrest, State.onNamed_eq hp, hbusy, State.suspendStep, hst, hdone]
  · intro s seq r p hr hrest hp hst hbusy hbad hchanged
    show execPitchResume seq s = _
    simp [execPitchResume, State.onOperator_eq hr, hrest, State.onNamed_eq hp, hst, hbusy, hbad, hchanged]
  · intro s seq r p hr hrest hp hst hbusy
    show execPitchResume seq s = _
    simp [execPitchResume, State.onOperator_eq hr, hrest, State.onNamed_eq hp, hst, hbusy]
  · intro s seq r p u t hr hrest hlend hp hst hu ht
    show execPitchRelease seq s = _
    simp only [execPitchRelease, State.onOperator_eq hr, hrest, hlend, State.onNamed_eq hp, if_neg hst, ← hu, ← ht, Bool.not_true,
      Bool.false_eq_true, if_false]
  · intro s tag seq p hp hbusy hst hrest hdue
    show execSuspendTimeout tag s = _
    simp [execSuspendTimeout, hp, hbusy, hst, hrest, hdue, State.suspendUndo]
  · intro s seq p hp hst hlend hdue
    show execCoordinationTimeout seq s = _
    obtain hst | hst := hst <;> simp [execCoordinationTimeout, hp, hst, hlend, hdue]

/-- Settles O4: the tag that the request may name is found, and the query is answered from it. -/
theorem completesPitchQueries : Obligations.CompletesPitchQueries := by
  refine ⟨?_, ?_, ?_, ?_, ?_, ?_⟩
  · intro s seq r hr hrest htag
    show execPitchQuery seq s = _
    simp only [execPitchQuery, State.onOperator_eq hr, hrest, htag, Bool.not_true, Bool.false_eq_true, if_false, if_true]
  · intro s seq tag r p hr hrest htag hall hp
    show execPitchQuery seq s = _
    simp only [execPitchQuery, State.onOperator_eq hr, hrest, htag, if_neg hall, State.onNamed_eq hp, Bool.not_true,
      Bool.false_eq_true, if_false]
  · intro s seq tag r p recs hr hzero hrest hlo hhi htag hp hrecs
    show execPitchMeterRead seq s = _
    simp [execPitchMeterRead, State.onOperator_eq hr, hzero, hrest, Nat.pos_iff_ne_zero.mp hlo, Nat.not_lt.mpr hhi, htag, State.onNamed_eq hp, hrecs]
  · intro s seq r hr hrest htag hfew
    show execAttestQuote seq s = _
    simp [execAttestQuote, State.onOperator_eq hr, hrest, htag, Nat.not_le.mpr hfew]
  · intro s seq tag r p hr hrest htag hall hp hst hfew
    show execAttestQuote seq s = _
    simp only [execAttestQuote, State.onOperator_eq hr, hrest, htag, if_neg hall, if_neg (Nat.not_le.mpr hfew), State.onNamed_eq hp,
      if_neg hst, Bool.not_true, Bool.false_eq_true, if_false]
  · intro s hnow hminute
    show execMeterMinute s = _
    simp [execMeterMinute, hnow, hminute]

end Sys2Proof.Machine
end

section
/-! SUPPORT. The completion of the commands of work queues, of items and of the Carousel. -/

namespace Sys2Proof.Machine

open Sys2Proof

/-- The doorbell rule with its conditions as the control page states them (R142). -/
theorem Queue.doorbell_eq (q : Queue) (t : Nat) :
    q.doorbell t = if q.closing ≠ none ∨ t ≤ q.tail then q
      else if q.ack + q.ringSize < t then { q with refused := true, refusals := satInc q.refusals 0xFFFF }
      else { q with tail := t, refused := false } := by
  cases hc : q.closing <;> simp [Queue.doorbell, hc]

/-- A write that is no whole WO field of the control page has no effect but its event (R141). -/
theorem State.writePage_of_invalid {s : State} {tag queue offset : Nat} {data : Bytes}
    (hbad : data.length ≠ 8 ∨ (offset ≠ 0 ∧ offset ≠ 8)) :
    s.writePage tag queue offset data = s.logPageWrite tag queue offset := by
  obtain hlen | ⟨hzero, height⟩ := hbad
  · simp [State.writePage, hlen]
  · simp [State.writePage, hzero, height]

/-- Settles O5: the requests pass their checks, and the control-page writes follow `Queue.doorbell_eq` and `Queue.ackWrite`. -/
theorem completesQueues : Obligations.CompletesQueues := by
  refine ⟨?_, ?_, ?_, ?_, ?_, ?_⟩
  · intro s seq id r p hrun hfields hring hrecords hcounter hid
    show execWorkQueueOpen seq s = _
    have hplaces : (ringMapped s p (u64 r.body 0) (128 * u16 r.body 24) && ringMapped s p (u64 r.body 8) (64 * u16 r.body 24) &&
        (u64 r.body 16 = 0 || allKind s p (u64 r.body 16) 8 (· = .dram))) = true := by
      simpa [hring, hrecords] using hcounter
    simp only [execWorkQueueOpen, State.onRequest_eq hrun, hfields, hplaces, hid, Bool.not_true, Bool.false_eq_true, if_false]
  · intro s seq r p q t hrun hmode hrest hq hopen ht
    show execWorkQueueClose seq s = _
    simp [execWorkQueueClose, State.onRequest_eq hrun, Nat.not_le.mpr (Nat.lt_succ_of_le hmode), hrest, hq, hopen, ht]
  · intro s seq late r p q hrun hzero hrest hrange hq hlo hhi habort hlate
    show execWorkAbort seq s = _
    have hroom : ¬ (q.head ≤ u64 r.body 16 ∧ 16 ≤ p.openAborts q.homeLdie) := by omega
    simp [execWorkAbort, State.onRequest_eq hrun, hzero, hrest, Nat.not_lt.mpr hrange, hq, Nat.not_lt.mpr hlo, Nat.not_le.mpr hhi,
      hroom, hlate]
  · intro s tag queue value hvalue
    show execDoorbell tag queue value s = _
    simp only [execDoorbell, Nat.mod_eq_of_lt hvalue, Queue.doorbell_eq]
  · intro s tag queue value hvalue
    show execAckWr tag queue value s = _
    simp only [execAckWr, Nat.mod_eq_of_lt hvalue]
    rfl
  · intro s tag queue offset data p q hp hq hbad
    show execControlPageWriteInvalid tag queue offset data s = _
    simp [execControlPageWriteInvalid, hp, hq, State.writePage_of_invalid hbad]

/-- Settles O6: the item is where its phase says, and nothing holds it up. -/
theorem completesItemProgress : Obligations.CompletesItemProgress := by
  refine ⟨?_, ?_, ?_, ?_, ?_, ?_, ?_⟩
  · intro s tag queue cursor p q i u t hp hq hready hitem hu ht
    show execDescriptorConsume tag queue s = _
    simp only [execDescriptorConsume, hp, hq, hready, if_true, hitem, ← hu]
    by_cases hbad : i.result.status = stUncorrectable
    · simp only [hbad, if_true] at ht ⊢
      rw [ht]
      rfl
    · simp only [hbad, if_false] at ht ⊢
      rw [ht]
      rfl
  · intro s k p i hi hphase hwait hqueue
    show execItemReady k s = _
    simp only [execItemReady, State.onItem_eq hi, hphase, hwait, hqueue, Bool.false_eq_true, if_true, if_false]
  · intro s k p i hi hphase hstaged
    show execItemStaged k s = _
    simp [execItemStaged, State.onItem_eq hi, hphase, hstaged]
  · intro s k p i hi htyp hphase hfrozen hfirst hwait
    show execSignal k s = _
    have hall : p.items.all (fun x => x.key.queue != k.queue || k.seq ≤ x.key.seq) = true := by
      simpa [← not_or, imp_iff_not_or] using hfirst
    simp only [execSignal, State.onItem_eq hi, htyp, hphase, hfrozen, hall, hwait, decide_true, Bool.not_false, Bool.and_self, if_true]
  · intro s k p i hi htyp hphase hfrozen hwait
    show execWait k s = _
    simp only [execWait, State.onItem_eq hi, htyp, hphase, hfrozen, hwait, decide_true, Bool.not_false, Bool.and_self, if_true]
  · intro s k p i hi hphase hstored hstatus habroad
    show execItemComplete k s = _
    simp [execItemComplete, State.onItem_eq hi, hphase, hstored, hstatus, habroad]
  · intro s k p i hi hphase hdone
    show execItemComplete k s = _
    obtain ⟨hstored, htransit⟩ | ⟨hstored, hnone⟩ := hdone
    · simp [execItemComplete, State.onItem_eq hi, hphase, hstored, htransit]
    · obtain hstatus | habroad := hnone
      · simp [execItemComplete, State.onItem_eq hi, hphase, hstored, hstatus]
      · simp [execItemComplete, State.onItem_eq hi, hphase, hstored, habroad]

/-- Settles O7: the running item meets the condition that its row names. -/
theorem completesItemFailures : Obligations.CompletesItemFailures := by
  refine ⟨?_, ?_, ?_, ?_, ?_, ?_⟩
  · intro s k p i hi hlatched hphase
    show execRunningItemAbortStop k s = _
    simp [execRunningItemAbortStop, State.onItem_eq hi, hlatched, hphase]
  · intro s k p i hi hphase hgap
    show execStridedGapFault k s = _
    simp only [execStridedGapFault, State.onItem_eq hi, hphase, hgap, decide_true, Bool.and_self, if_true]
  · intro s k p i hi hphase hscale
    show execScaleRecheckFail k s = _
    simp only [execScaleRecheckFail, State.onItem_eq hi, hphase, hscale, decide_true, Bool.and_self, if_true]
  · intro s k addr key p i w hi hphase hcell
    show execUncorrectableRead k (.addr addr) s = _
    simp only [execUncorrectableRead, State.onItem_eq hi, hphase, hcell, bne_self_eq_false, Bool.false_eq_true, if_false]
  · intro s k n p i pl hi hphase hplace
    show execUncorrectableRead k (.slot n) s = _
    simp only [execUncorrectableRead, State.onItem_eq hi, hphase, hplace, bne_self_eq_false, Bool.false_eq_true, if_false]
  · intro s k addr p i hi hphase hmapped
    show execUncorrectableRead k (.staged addr) s = _
    simp only [execUncorrectableRead, State.onItem_eq hi, hphase, hmapped, bne_self_eq_false, Bool.false_eq_true, if_false, if_true]

/-- Settles O8: the engine, the cluster or the die is in the state that its row names. -/
theorem completesCarousel : Obligations.CompletesCarousel := by
  refine ⟨?_, ?_, ?_, ?_, ?_, ?_⟩
  · intro s pl e p l i hon hcluster hdie hhandoff hst hpick hphase
    show execCarouselDispatch pl e s = _
    simp [execCarouselDispatch, hon, hcluster, hdie, hhandoff, hst, hpick, hphase]
  · intro s pl p hp hdie hrest hready
    show execClusterWake pl s = _
    simp only [execClusterWake, hp, hdie, hready, Bool.and_true, Bool.or_eq_true, decide_eq_true_eq, if_pos hrest]
  · intro s pl hwork hidle hcycles
    show execClusterDoze pl s = _
    simp [execClusterDoze, hwork, hidle, hcycles]
  · intro s pl hst hidle hcounts
    show execClusterRest pl s = _
    simp only [execClusterRest, hidle, hcounts, Bool.and_true, decide_true, Bool.or_eq_true, decide_eq_true_eq, if_pos hst]
  · intro s die since hon htag hlend hsince hdue
    show execDramPllStop die s = _
    simp [execDramPllStop, hon, htag, hlend, hsince, hdue]
  · intro s pl l old p hon hne hl hold hplace hready hitems hpace
    show execLogicalClusterSwitch pl l s = _
    have hboundary : p.items.all (fun i => !(i.w.lcluster = old && i.dispatched &&
        (i.phase = .running || i.phase = .ready || i.phase = .anchoring))) = true := by
      simp only [List.all_eq_true, Bool.not_eq_true', Bool.and_eq_false_iff, Bool.or_eq_false_iff, decide_eq_false_iff_not]
      intro i hi
      by_cases hlc : i.w.lcluster = old
      · cases hd : i.dispatched
        · exact .inl (.inr rfl)
        · have := hitems i hi hlc hd
          tauto
      · exact .inl (.inl hlc)
    have hswitch : (decide (((placedOn s p pl).filter p.readyFor).length ≤ 1) ||
        (s.cluster pl).lastSwitch.elim true (fun t => t + 25000 ≤ s.now)) = true := by
      obtain h | h | ⟨t, h, ht⟩ := hpace
      · simp [h]
      · simp [h]
      · simp [h, ht]
    simp only [execLogicalClusterSwitch, hon, bne_iff_ne.mpr hne, hl, hold, hplace, hready, hboundary, hswitch, decide_true,
      Bool.not_false, Bool.and_self, if_true]

end Sys2Proof.Machine
end

section
/-! SUPPORT. The completion of the commands of the engines: arrays, MVP, vector unit, data mover and collectives. -/

namespace Sys2Proof.Machine

open Sys2Proof

/-- A run whose every strip could be read, computed and written leaves its engine finished with status OK. -/
theorem State.endRun_ok (t : State) (pl : Place) (k : ItemKey) :
    State.endRun (t, none) pl k = (t.leaveEngine pl k).updItem k fun i =>
      { i with phase := .finished, result := { i.result with status := stOk } } := rfl

/-- Settles O9: the engine that runs the item has what the step takes, and every read and write of the step succeeds. -/
theorem completesMatrixItems : Obligations.CompletesMatrixItems := by
  refine ⟨?_, ?_, ?_, ?_, ?_⟩
  · intro s k p i pl accs bad sat t hi hruns htyp hmode htile hmore haccs ht
    show execMma k s = _
    simp [execMma, State.onItem_eq hi, hruns, htyp, hmode, htile, hmore, haccs, ht]
  · intro s t k p i pl x sat hi hruns htile hkey hout hslot hput
    show execArrayTileHandoff k s = _
    have hgood : (i.w.accOut = 2 && ((s.cluster pl).slot (i.w.slotOut + x.tile)).any (·.bad)) = false := by
      by_cases hadd : i.w.accOut = 2
      · rw [hslot hadd, Bool.and_false]
      · simp [hadd]
    simp only [execArrayTileHandoff, State.onItem_eq hi, hruns, htile, hkey, hout, Bool.true_and, hgood, hput,
      bne_self_eq_false, Bool.false_eq_true, if_false, if_true]
    simp [Raised.or]
  · intro s t k p i pl x o r hi hruns htile hkey hout hdest hfold
    show execArrayTileHandoff k s = _
    simp only [execArrayTileHandoff, State.onItem_eq hi, hruns, htile, hkey, hout, hdest, hfold, bne_self_eq_false, Bool.false_and,
      Bool.false_eq_true, if_false]
  · intro s k p i pl o accs bad sat hi hruns hdest hbank hmore haccs
    show execMvp k s = _
    simp [execMvp, State.onItem_eq hi, hruns, hdest, hbank, hmore, haccs]
  · intro s t k p i pl o x r hi hruns hdest hbank hkey hfold
    show execMvpStripHandoff k s = _
    simp only [execMvpStripHandoff, State.onItem_eq hi, hruns, hdest, hbank, hkey, hfold, bne_self_eq_false, Bool.false_eq_true, if_false]

/-- Settles O10: the fold over the strips or rows ends without an error, and the item leaves its engine as `State.endRun_ok` says. -/
theorem completesVectorItems : Obligations.CompletesVectorItems := by
  refine ⟨?_, ?_, ?_, ?_, ?_, ?_⟩
  · intro s t k p i pl o hi hruns hdest htyp hmode hmore hunit
    show execEwOperation k s = _
    have hhere : 32 * i.tiles < o.desc.viewStrips.length := by omega
    simp [execEwOperation, State.onItem_eq hi, hruns, hdest, htyp, hmode, hhere, hunit, hmore]
  · intro s t k p i pl o hi hruns hdest htyp hmode hhere hlast hunit
    show execEwOperation k s = _
    simp [execEwOperation, State.onItem_eq hi, hruns, hdest, htyp, hmode, hhere, hunit, Nat.not_lt.mpr hlast, State.endRun_ok]
  · intro s t k p i pl o hi hruns hdest htyp hsample hlsm hfold
    show execVec k s = _
    simp [execVec, State.onItem_eq hi, hruns, hdest, htyp, hsample, hlsm, hfold, State.endRun_ok]
  · intro s t k p i pl o hi hruns hdest htyp hfold
    show execRand k s = _
    simp [execRand, State.onItem_eq hi, hruns, hdest, htyp, hfold, State.endRun_ok]
  · intro s t k p i pl a hi hruns ha hsample hfold
    show execSample k s = _
    simp [execSample, State.onItem_eq hi, hruns, ha, hsample, hfold, State.endRun_ok]
  · intro s t k p i pl a o hi hruns ha hdest hlsm hfold
    show execLogsoftmax k s = _
    simp [execLogsoftmax, State.onItem_eq hi, hruns, ha, hdest, hlsm, hfold, State.endRun_ok]

/-- Settles O11: a MOVE takes the path that its fields and formats choose, and the passes of a collective whose contributors stand where the row asks. -/
theorem completesTransfers : Obligations.CompletesTransfers := by
  refine ⟨?_, ?_, ?_, ?_, ?_, ?_⟩
  · intro s t k p i pl a o hi hruns ha hdest htyp hpath
    show execMove k s = _
    rw [← State.endRun_ok]
    simp only [execMove, State.onItem_eq hi, hruns, ha, hdest, htyp, bne_self_eq_false, Bool.false_eq_true, if_false]
    obtain ⟨hcomp, hdecomp, hrec, hmove, hfold⟩ | ⟨hcomp, hdecomp, hrec, hmove, hfold⟩ | ⟨hcomp, hdecomp, hrec, hfold⟩ |
      ⟨hcomp, hmove⟩ | ⟨strips, hdecomp, hmove, hfold⟩ := hpath
    · simp [hcomp, hdecomp, hrec, hmove, hfold]
    · simp [hcomp, hdecomp, hrec, hmove, hfold]
    · simp [hcomp, hdecomp, hrec, hfold]
    · simp [hcomp, hmove]
    · simp [hdecomp, hmove, hfold]
  · intro s k p i pl vals hi hruns htyp howed hdeliver haccepts hvals
    show execCollective k s = _
    simp only [execCollective, State.onItem_eq hi, hruns, htyp, howed, hdeliver, haccepts, hvals, bne_self_eq_false,
      Option.isSome_none, Bool.not_true, Bool.or_self, Bool.false_eq_true, if_false]
  · intro s k p i pl hi hruns htyp howed
    show execCollective k s = _
    simp only [execCollective, State.onItem_eq hi, hruns, htyp, howed, bne_self_eq_false, Bool.false_eq_true, if_false, if_true]
  · intro s tag ident c hc hfull hanchors
    show execCollectivePass1AtRoot tag ident s = _
    simp [execCollectivePass1AtRoot, hc, hfull, hanchors]
  · intro s k p i c x y hi hc hx hanchors hrounded hphase hread
    refine ⟨fun hroot => ?_, fun a hroot => ?_⟩
    · show execCollectiveAnchorReceived k s = _
      simp [execCollectiveAnchorReceived, State.onItem_eq hi, hc, hx, hanchors, hrounded, hphase, hread, hroot]
    · show execCollectiveAnchorReceived k s = _
      simp [execCollectiveAnchorReceived, State.onItem_eq hi, hc, hx, hanchors, hrounded, hphase, hread, hroot]
  · intro s t tag ident ovf c hc hfull hrounded hdest hfold
    show execCollectiveResultWritten tag ident s = _
    simp [execCollectiveResultWritten, hc, hfull, hrounded, hdest, hfold]

end Sys2Proof.Machine
end

section
/-! SUPPORT. The completion of the commands of work contexts, of serving and of the booth. -/

namespace Sys2Proof.Machine

open Sys2Proof

/-- Bit 0 of a FLAGS field that holds 1. -/
theorem bit_one_zero : bit 1 0 = true := by decide

/-- Settles O12: the requests pass their checks. -/
theorem completesContextsAndModels : Obligations.CompletesContextsAndModels := by
  refine ⟨?_, ?_, ?_, ?_⟩
  · intro s seq r p t hrun hslots hrest ht
    show execWorkContextSave seq s = _
    simp [execWorkContextSave, State.onRequest_eq hrun, Nat.not_le.mpr (Nat.lt_succ_of_le hslots), hrest, ht]
  · intro s seq r p b hrun hrest hqueues hplace hread hok
    show execWorkContextRestore seq s = _
    simp only [execWorkContextRestore, State.onRequest_eq hrun, hrest, hqueues, hplace, hread, hok, Bool.not_true, Bool.false_eq_true,
      if_false]
  · intro s seq r p m hrun hflags hrest hm hsessions hdraft
    show execSvcModelLoad seq s = _
    have hfree : p.models.any (fun t => t.spec && t.draftModel = m.id) = false := by simpa using hdraft
    simp only [execSvcModelLoad, State.onRequest_eq hrun, hflags, bit_one_zero, hrest, hm, hsessions, hfree,
      bne_self_eq_false, Bool.not_true, Bool.or_self, Bool.false_eq_true, if_false, if_true]
  · intro s seq r p m hrun hload hok
    show execSvcModelLoad seq s = _
    simp only [execSvcModelLoad, State.onRequest_eq hrun, hload, hok, Bool.false_eq_true, if_false]

/-- A session without a pause record is past no deadline. -/
theorem Session.pastDue_of_none {x : Session} (h : x.pause = none) (v : Nat) : x.pastDue v = false := by
  simp [Session.pastDue, h]

/-- Settles O13: the session is found in the state that its row names, and it is past no deadline but where it expires. -/
theorem completesSessions : Obligations.CompletesSessions := by
  refine ⟨?_, ?_, ?_, ?_, ?_, ?_, ?_⟩
  · intro s seq n r p m x hrun hm hfields hring hroom hn hx
    show execSvcSessionOpen seq s = _
    subst hx hn
    simp only [execSvcSessionOpen, State.onRequest_eq hrun, hm, hfields, hring, Nat.not_le.mpr hroom, Bool.not_true,
      Bool.false_eq_true, if_false]
  · intro s seq r p m x b hrun hexp hx hmay hst hpause hlen hfields hplace hread htoks
    show execSvcSubmit seq s = _
    have hvocab : ((List.range (u32 r.body 24)).map fun i => u32 b (4 * i)).any (fun k => m.vocab ≤ k) = false := by
      rw [List.any_eq_false]
      intro k hk
      simpa using htoks k hk
    simp only [execSvcSubmit, State.onRequest_eq hrun, hexp, hx, hmay, Session.pastDue_of_none hpause, hst, hpause,
      Nat.not_lt.mpr hlen, hfields, hplace, hread, hvocab, bne_self_eq_false, Option.isSome_none, Bool.not_true, Bool.or_self,
      Bool.false_eq_true, if_false]
  · intro s seq r p m x hrun hrest hopen hexp hx hdue
    refine ⟨fun hst => ?_, fun hst hpause => ?_⟩
    · show execSvcSessionClose seq s = _
      simp only [execSvcSessionClose, State.onRequest_eq hrun, hrest, hopen, hexp, hx, hdue, hst, Bool.not_true, Bool.false_eq_true,
        if_false, if_true]
    · show execSvcSessionClose seq s = _
      simp only [execSvcSessionClose, State.onRequest_eq hrun, hrest, hopen, hexp, hx, hdue, hst, hpause, Option.isSome_none,
        Bool.not_true, Bool.false_eq_true, if_false]
  · intro s seq a r p m x hrun hrest hexp hx hpause hdrain hlo hhi hplace
    show execSvcSessionPause seq s = _
    simp [execSvcSessionPause, State.onRequest_eq hrun, hrest, hexp, hx, Session.pastDue_of_none hpause, hpause, hdrain,
      Nat.not_lt.mpr hlo, Nat.not_lt.mpr hhi, hplace]
  · intro s t tag model session p m x q q' a c hp hm hx hpause hwritten hstep hq' hrecord hshadow ht
    subst hq' ht
    refine ⟨fun hreq => ?_, fun seq hreq => ?_⟩
    · show execPauseRecordWritten tag model session s = _
      simp only [hreq, hwritten] at hrecord hshadow
      simp [execPauseRecordWritten, hp, hm, hx, hpause, hwritten, hstep, hrecord, hshadow, hreq]
    · show execPauseRecordWritten tag model session s = _
      simp only [hreq, hwritten] at hrecord hshadow
      simp [execPauseRecordWritten, hp, hm, hx, hpause, hwritten, hstep, hrecord, hshadow, hreq]
  · intro s seq r p m x q rec hrun hrest hexp hx hpause hwritten hbooth hmay hdue hcheck
    show execSvcSessionResume seq s = _
    have hearly : x.pastDue r.acceptedAt = false := by simp [Session.pastDue, hpause, hdue]
    simp [execSvcSessionResume, State.onRequest_eq hrun, hrest, hexp, hx, hpause, hwritten, hbooth, hmay, hearly, hcheck]
  · intro s tag model session p x q hp hst hx hpause hwritten hdue hwanted
    show execSessionExpire tag model session s = _
    have hlate : x.pastDue s.now = true := by simp [Session.pastDue, hpause, hwritten, hdue]
    simp [execSessionExpire, hp, hst, hx, hlate, hwanted]

/-- Settles O14: the booth of the instance is found and its fields are accepted. -/
theorem completesBooth : Obligations.CompletesBooth := by
  refine ⟨?_, ?_, ?_, ?_⟩
  · intro s seq r p m hrun hm hread hfields
    show execSvcBoothConfig seq s = _
    simp only [execSvcBoothConfig, State.onRequest_eq hrun, hm, hread, hfields, Bool.not_true, Bool.false_eq_true, if_false, if_true]
  · intro s seq r p m m' hrun hm hset hfields hm' harea hused
    show execSvcBoothConfig seq s = _
    subst hm'
    simp only [execSvcBoothConfig, State.onRequest_eq hrun, hm, hset, hfields, harea, hused, bne_self_eq_false, Bool.false_and,
      Bool.not_true, Bool.false_eq_true, if_false]
  · intro s tag model p m hp hm
    show execBoothModeChange tag model s = _
    simp only [execBoothModeChange, hp, hm]
  · intro s tag model p m hp hm hst hmode
    show execBoothResumePass tag model s = _
    simp [execBoothResumePass, hp, hm, hst, hmode]

/-- Settles O15: the step is found at its boundary, done, or failed, and it goes on as the row says. -/
theorem completesTokenSteps : Obligations.CompletesTokenSteps := by
  refine ⟨?_, ?_, ?_, ?_, ?_, ?_⟩
  · intro s t tag model p m f ht hp hm hst hcore hroom hdraft hf hparts
    show execTokenStepForm tag model s = _
    simp [execTokenStepForm, ← ht, hp, hm, hst, hcore, Nat.not_le.mpr hroom, hdraft, ← hf, hparts]
  · intro s t tag model target p m f ht hp hm hst hcore hroom hdraft
    show execTokenStepForm tag model s = _
    simp [execTokenStepForm, ← ht, hp, hm, hst, hcore, Nat.not_le.mpr hroom, hdraft]
  · intro s w v u tag model step latencyNs results p m own t hp hm ht hown hlat hresults hgates hdone hw hv hu
    show execTokenStepCommit tag model step latencyNs results s = _
    subst hown
    simp only [execTokenStepCommit, hp, hm, ht, ← hlat, hresults, hgates, hdone, bne_self_eq_false, Bool.not_true, Bool.or_self,
      Bool.false_eq_true, if_false, ← hw]
    obtain ⟨hserve, hv⟩ | ⟨target, hdraft, hv⟩ := hv
    · simp only [hserve, ← hv, ← hu]
    · simp only [hdraft, ← hv, ← hu]
  · intro s u tag model step status p m own t hp hm ht hfail hown hagain hu
    show execTokenStepFail tag model step s = _
    subst hown hu
    simp only [execTokenStepFail, hp, hm, ht, hfail, hagain, if_true]
  · intro s u v tag model step status p m own t parts hp hm ht hfail hown hagain hparts hsome hu hv
    show execTokenStepFail tag model step s = _
    subst hown hparts hv hu
    simp only [execTokenStepFail, hp, hm, ht, hfail, hagain, Bool.false_eq_true, if_false, if_neg hsome]
  · intro s tag model block m b holders hm hb hst hholders
    show execHashedBlockUncorrectable tag model block s = _
    simp only [execHashedBlockUncorrectable, hm, hb, Bool.or_eq_true, decide_eq_true_eq, if_pos hst, ← hholders]

end Sys2Proof.Machine
end

section
/-! SUPPORT. The completion of the commands of training, of the Crusher and of checkpoints. -/

namespace Sys2Proof.Machine

open Sys2Proof

/-- A block whose turn has come and that nothing holds up is updated (R277, R283). -/
theorem State.updateBlock_eq {s : State} {p : Pitch} {r : Run} {l : Layer} {u : Rule} {c : CBlock} (tag run : Nat) (m : W32)
    (hready : updatable s p r l u c = true) (hturn : inLine s p (l.owner c.block) c = true) :
    s.updateBlock tag run p r l u c m = s.applyBlock tag run l u c m none := by
  simp only [State.updateBlock, hready, hturn, Bool.and_self, if_true]

/-- Settles O17: the block is found in the state that its row names. -/
theorem completesBlocks : Obligations.CompletesBlocks := by
  refine ⟨?_, ?_, ?_, ?_⟩
  · intro s tag ident p c x l b r hp hc hr hx hl hb hkind hfull hrounded hlo hhi habort hgrad hroom hnorm
    show execCrusherDelivery tag ident s = _
    subst hr
    simp only [execCrusherDelivery, hp, hc, hx, Option.bind_some, hl, hb, Option.map_some, hkind, hfull, hrounded,
      Nat.not_lt.mpr hlo, habort, Nat.not_le.mpr hhi, hgrad, hroom, hnorm, decide_true, decide_false, Bool.and_self, Bool.not_true,
      Bool.or_self, Bool.false_eq_true, if_false, if_true]
  · intro s tag run layer block p r l u c m hblock hst habort hm hready hturn
    show execBlockUpdate tag run layer block s = _
    simp only [execBlockUpdate, State.onBlock_eq hblock, hst, habort, hm, State.updateBlock_eq tag run m hready hturn,
      bne_self_eq_false, Bool.or_self, Bool.false_eq_true, if_false]
  · intro s tag run layer block p r l u c m hblock hst habort hm hready hturn hheld hstep
    show execLaggedMultWaitEnd tag run layer block s = _
    simp only [execLaggedMultWaitEnd, State.onBlock_eq hblock, hm, hheld, hst, habort, bne_iff_ne.mpr hstep,
      State.updateBlock_eq tag run m hready hturn, decide_true, Bool.not_false, Bool.and_self, if_true]
  · intro s tag run layer block p r l u c hblock habort hready
    show execBlockMissed tag run layer block s = _
    simp only [execBlockMissed, State.onBlock_eq hblock, habort, hready, Bool.not_true, Bool.false_eq_true, if_false]

/-- Settles O18: the run is found, and its blocks stand where the row asks. -/
theorem completesRunSteps : Obligations.CompletesRunSteps := by
  refine ⟨?_, ?_, ?_, ?_⟩
  · intro s tag run layer block p r l u c g hblock hgrad hheld hst habort hmult howned
    show execHeldBlockStage tag run layer block s = _
    simp only [execHeldBlockStage, State.onBlock_eq hblock, hgrad, hheld, hst, habort, hmult, howned, decide_true, Option.isNone_none,
      Bool.not_false, Bool.and_self, if_true]
  · intro s tag run ldie r hr
    show execHeldBlocksApply tag run ldie s = _
    simp only [execHeldBlocksApply, hr]
  · intro s tag run ldie r n hr hn hended
    show execNormPartialSend tag run ldie s = _
    simp only [execNormPartialSend, hr, hn, hended, if_true]
  · intro s t tag run r hr hended hsent ht
    show execRunStepCommit tag run s = _
    subst ht
    simp only [execRunStepCommit, hr, hended, hsent, Bool.not_true, Bool.or_self, Bool.false_eq_true, if_false]

section
variable {s : State} {tag run slot t : Nat} {p : Pitch} {r : Run} {c : Ckpt}

theorem State.onWriting_eq (hp : s.pitch? tag = some p) (hr : p.run? run = some r) (hc : r.ckpt = some c)
    (hw : c.writing = some (slot, t)) (f : Pitch → Run → Ckpt → Nat → Nat → State) : s.onWriting tag run f = f p r c slot t := by
  simp only [State.onWriting, hp, hr, hc, hw]

end

/-- Settles O19: the block, or the checkpoint that is being written, stands where the row asks. -/
theorem completesEmission : Obligations.CompletesEmission := by
  refine ⟨?_, ?_, ?_, ?_, ?_⟩
  · intro s tag run layer block h k p r l u c hblock hfirst hh hk
    show execKronRefreshDone tag run layer block s = _
    subst hk hh
    simp only [execKronRefreshDone, State.onBlock_eq hblock, hfirst, if_true]
  · intro s tag run layer block p r l u c x go hblock hx hgo hsend
    show execEmissionSend tag run layer block s = _
    subst hgo
    simp only [execEmissionSend, State.onBlock_eq hblock, hx, if_neg hsend]
  · intro s v tag run ldie layer slot t p r c l u hv hp hr hc hl hu hw hat howner hunsent
    show execCheckpointLayerSend tag run ldie layer s = _
    simp only [execCheckpointLayerSend, ← hv, hp, hr, hc, hl, Option.bind_some, hu, Option.map_some, hw, hat, howner, hunsent,
      Bool.not_false, Bool.and_self, if_true]
  · intro s tag run slot t p r c hp hr hc hw hsent
    show execCheckpointSlotComplete tag run s = _
    have hall : (r.owners p).all (r.dieSent c) = true :=
      List.all_eq_true.mpr fun d hd => List.all_eq_true.mpr fun l hl => hsent d hd l hl
    simp only [execCheckpointSlotComplete, State.onWriting_eq hp hr hc hw, hall, if_true]
    rfl
  · intro s tag run slot t d p r c l hp hr hc hw hd hl hat hunsent hdue
    show execCheckpointTimeout tag run s = _
    have hleft : r.layers.any (fun l => r.layerAt l.tag t && !c.written.contains (d, l.tag)) = true :=
      List.any_eq_true.mpr ⟨l, hl, by rw [hat, hunsent]; rfl⟩
    have hany : (r.owners p).any (r.stalled c t s.now) = true :=
      List.any_eq_true.mpr ⟨d, hd, by rw [Run.stalled, hleft, hdue]; rfl⟩
    simp only [execCheckpointTimeout, State.onWriting_eq hp hr hc hw, hany, if_true]
    rfl

end Sys2Proof.Machine
end

section
/-! SUPPORT. The completion of the commands of the RL cycle: plans, rollouts, phases and turnovers. -/

namespace Sys2Proof.Machine

open Sys2Proof

theorem not_busy_of_state {x : Plan} (hrun : x.state ≠ 1) (hstop : x.state ≠ 2) : (x.state = 1 || x.state = 2) = false := by
  simp [hrun, hstop]

/-- Settles O20: the plan is found in the state that its row names, and the request passes its checks. -/
theorem completesPlans : Obligations.CompletesPlans := by
  refine ⟨?_, ?_, ?_, ?_, ?_, ?_⟩
  · intro s seq q p x hrun hflags hlow hzero hrest hx hone htwo
    show execTurnPlan seq s = _
    simp only [execTurnPlan, State.onRequest_eq hrun, hflags, Nat.not_le.mpr hlow, hzero, hrest, hx, not_busy_of_state hone htwo,
      decide_false, Bool.not_true, Bool.or_self, Bool.false_eq_true, if_false, if_true]
  · intro s seq q p r m x hrun hflags hr hm hok
    show execTurnPlan seq s = _
    simp only [execTurnPlan, State.onRequest_eq hrun, hflags, hr, hm, hok, Bool.false_eq_true, if_false]
  · intro s seq q p hrun hrest
    show execTurnStatus seq s = _
    simp only [execTurnStatus, State.onRequest_eq hrun, hrest, Bool.not_true, Bool.false_eq_true, if_false]
  · intro s seq q p x hrun hop hx hok hone htwo hphase
    show execTurnStartStart seq s = _
    simp only [execTurnStartStart, State.onRequestOp_eq 3 hrun hop, hx, hok, not_busy_of_state hone htwo, Nat.not_le.mpr hphase,
      Bool.not_true, Bool.false_eq_true, if_false]
  · intro s seq q p x hrun hop hx hok hstate
    show execTurnStartStop seq s = _
    simp only [execTurnStartStop, State.onRequestOp_eq 3 hrun hop, hx, hok, hstate, bne_self_eq_false, Bool.not_true,
      Bool.false_eq_true, if_false]
  · intro s seq q p x f hrun hop hx hok hf
    show execTurnStartContinue seq s = _
    simp only [execTurnStartContinue, State.onRequestOp_eq 3 hrun hop, hx, hok, hf, Bool.not_true, Bool.false_eq_true, if_false]

/-- A plan whose reward program may run (R293, R298). -/
theorem rewardStates_of_or {x : Plan} (h : x.state = 1 ∨ (x.state = 2 ∧ x.stopStatus = 0)) :
    (x.state = 1 || (x.state = 2 && x.stopStatus = 0)) = true := by
  simpa using h

/-- Settles O21: the plan and its rollouts stand where the row asks. -/
theorem completesRollouts : Obligations.CompletesRollouts := by
  refine ⟨?_, ?_, ?_, ?_, ?_, ?_⟩
  · intro s seq q p x r v hrun hx hzero hrest hv hfinite hprog hr hnew
    show execTurnRewardPost seq s = _
    subst hv
    simp only [execTurnRewardPost, State.onRequest_eq hrun, hx, hzero, hrest, hfinite, hprog, hr, hnew, Bool.not_true, Bool.or_self,
      Bool.false_eq_true, if_false]
  · intro s tag run p x y ws hp hx hprog hstate hended hnext hst hcore hws
    show execRewardProgramRun tag run s = _
    subst hws
    simp only [execRewardProgramRun, hp, hx, Option.bind_some, Option.map_some, hprog, rewardStates_of_or hstate, hended, hnext, hst,
      hcore, bne_self_eq_false, Bool.not_true, Bool.or_self, Bool.false_eq_true, if_false]
  · intro x first hnone hfirst
    have hready := List.find?_some hfirst
    simp only [Plan.rewardable, Bool.and_eq_true, decide_eq_true_eq] at hready
    obtain ⟨⟨⟨hlen, hall⟩, -⟩, -⟩ := hready
    refine ⟨?_, hlen, hall⟩
    simp only [Plan.nextReward, hnone, hfirst, Option.map_some]
  · intro s tag run p x y seqs hp hx hprog hstate hended
    show execRewardProgramRun tag run s = _
    cases hfail : p.firstFailure (orchestratorQueue run) seqs with
    | none =>
      simp only [execRewardProgramRun, hp, hx, Option.bind_some, Option.map_some, hprog, rewardStates_of_or hstate, hended, hfail,
        Bool.not_true, Bool.or_self, Bool.false_eq_true, if_false]
    | some e =>
      simp only [execRewardProgramRun, hp, hx, Option.bind_some, Option.map_some, hprog, rewardStates_of_or hstate, hended, hfail,
        Bool.not_true, Bool.or_self, Bool.false_eq_true, if_false]
  · intro s tag run p x r f ws hp hx hr hf hst hcore hmark hlearn hlen hrewarded heval hws
    show execLearnProgramRun tag run s = _
    subst hws
    simp only [execLearnProgramRun, hp, hx, hr, Option.bind_some, Option.map_some, hf, hst, hcore, hmark, hlearn, hlen, hrewarded,
      heval, decide_true, Option.isNone_none, Bool.and_self, if_true]
  · intro s tag run admitSeq p x r hp hx hr hclosing hended
    show execRolloutEnd tag run admitSeq s = _
    simp only [execRolloutEnd, hp, Option.bind_some, hx, hr, hclosing, hended, Bool.not_false, Bool.and_self, if_true]

section
variable {x : Plan} {r : Run} {i : Nat} {e : PlanPhase}

/-- A phase that is no LEARN and no TURNOVER starts alone (R291). -/
theorem Plan.startPhase_of_alone (hkind : e.kind = 0 ∨ e.kind = 3) :
    x.startPhase r i e =
      { x with
        running := x.running ++ [⟨i, 0, if e.kind = 0 then x.admitted else 0⟩], nextPhase := x.after i, prevPhase := some i } := by
  obtain h | h := hkind <;> cases hs : x.source <;> simp [Plan.startPhase, h, hs]

/-- A LEARN phase that no TURNOVER follows starts alone. -/
theorem Plan.startPhase_of_learn (hkind : e.kind = 1) (hnext : ∀ f, x.phases[i + 1]? = some f → f.kind ≠ 2) :
    x.startPhase r i e =
      { x with running := x.running ++ [⟨i, 0, 0⟩], nextPhase := x.after i, prevPhase := some i } := by
  have hpair : (x.phases[i + 1]?).elim false (fun f => f.kind = 2) = false := by
    cases hf : x.phases[i + 1]? with
    | none => rfl
    | some f => simp [hnext f hf]
  cases hs : x.source <;> simp [Plan.startPhase, hkind, hpair, hs]

/-- A LEARN phase starts with the TURNOVER that follows it. -/
theorem Plan.startPhase_of_pair {f : PlanPhase} (hkind : e.kind = 1) (hnext : x.phases[i + 1]? = some f) (hturn : f.kind = 2)
    (hsource : x.source = none) :
    x.startPhase r i e =
      { x with
        running := x.running ++ [⟨i, 0, 0⟩, ⟨i + 1, 0, 0⟩], nextPhase := x.after (i + 1), prevPhase := some (i + 1)
        source := some (r.step + x.stepsLeft + e.count - 1) } := by
  simp [Plan.startPhase, hkind, hnext, hturn, hsource]

/-- A TURNOVER phase starts alone. -/
theorem Plan.length_running_of_turnover (hkind : e.kind = 2) : (x.startPhase r i e).running.length = x.running.length + 1 := by
  simp [Plan.startPhase, hkind]

/-- A phase that may start does, and PHASE_SIG advances for each phase that starts. -/
theorem exec_phaseStart {s : State} {tag run : Nat} {p : Pitch} (hp : s.pitch? tag = some p) (hx : p.plan? run = some x)
    (hr : p.run? run = some r) (hi : x.nextPhase = some i) (he : x.phases[i]? = some e) (hstate : x.state = 1) (hst : p.st = .active)
    (hcore : s.orchestrates x.core = true) (hmay : x.mayStart p r i e = true) :
    exec (.phaseStart tag run) s = .next (
      if (x.startPhase r i e).running.length = x.running.length + 2 then
        ((s.updPlan tag run fun _ => x.startPhase r i e).bumpCounter tag x.phaseSig).bumpCounter tag x.phaseSig
      else (s.updPlan tag run fun _ => x.startPhase r i e).bumpCounter tag x.phaseSig) := by
  show execPhaseStart tag run s = _
  simp only [execPhaseStart, hp, hx, hr, Option.bind_some, Option.map_some, hi, he, hstate, hst, hcore, hmay, bne_self_eq_false,
    Bool.not_true, Bool.or_self, Bool.false_eq_true, if_false]

end

/-- Settles O22: the phase, or the turnover, stands where the row asks; what starts is `Plan.startPhase`. -/
theorem completesTurnoverStart : Obligations.CompletesTurnoverStart := by
  refine ⟨?_, ?_, ?_, ?_⟩
  · intro s tag run i p x r e hp hx hr hi he hstate hst hcore hmay
    have hexec := exec_phaseStart hp hx hr hi he hstate hst hcore hmay
    refine ⟨fun hkind => ?_, fun hkind hnext => ?_, fun f hkind hnext hturn hsource => ?_, fun hkind => ?_⟩
    · rw [hexec, Plan.startPhase_of_alone hkind]
      simp
    · rw [hexec, Plan.startPhase_of_learn hkind hnext]
      simp
    · rw [hexec, Plan.startPhase_of_pair hkind hnext hturn hsource]
      simp
    · rw [hexec, if_neg (by rw [Plan.length_running_of_turnover hkind]; omega)]
  · intro s tag run t p x r m f hon hsource hf hstage hlanded hreached heval hepoch
    show execTurnoverOpen tag run s = _
    simp only [execTurnoverOpen, State.onTurnover_eq hon, hsource, hf, hstage, hlanded, hreached, heval, hepoch, bne_self_eq_false,
      Option.isSome_none, Bool.true_or, Bool.not_true, Bool.or_self, Bool.false_eq_true, if_false]
  · intro s tag run p x r m hon hstage
    show execTurnoverArmed tag run s = _
    simp only [execTurnoverArmed, State.onTurnover_eq hon, hstage, if_true]
  · intro s tag run p x r m hon hstage hdrain
    show execDrainEnd tag run s = _
    have hend : (decide (x.drainingCount p = 0) || due x.openedAt (x.drainMs * 25000) s.now) = true := by simpa using hdrain
    simp only [execDrainEnd, State.onTurnover_eq hon, hstage, hend, decide_true, Bool.and_self, if_true]

/-- Settles O23: the turnover stands where the row asks. -/
theorem completesSwap : Obligations.CompletesSwap := by
  refine ⟨?_, ?_, ?_, ?_, ?_⟩
  · intro s t tag run p x r m hon hstage hdrained ht
    show execSwapStart tag run s = _
    subst ht
    simp only [execSwapStart, State.onTurnover_eq hon, hstage, hdrained, decide_true, Bool.and_self, if_true]
  · intro s tag run layer p x r m hon hstage hgate hwindow hpassed
    show execLayerWindowOpen tag run layer s = _
    have hold : m.steps.all (fun t => t.epoch = m.epoch || passedLayer p x t layer) = true := by simpa using hpassed
    simp only [execLayerWindowOpen, State.onTurnover_eq hon, hstage, hgate, hwindow, hold, decide_true, Bool.not_false, Bool.and_self,
      if_true]
  · intro s tag run layer p x r m hon hstage hwindow hlanded
    show execLayerGateOpen tag run layer s = _
    simp only [execLayerGateOpen, State.onTurnover_eq hon, hstage, hwindow, hlanded, decide_true, Bool.and_self, if_true]
  · intro s tag run p x r m hon hstage hclosed hlanded
    show execTurnoverDone tag run s = _
    simp only [execTurnoverDone, State.onTurnover_eq hon, hstage, hclosed, hlanded, decide_true, Bool.and_self, if_true]
  · intro s tag run layer p x r m hon hwindow hstalled
    show execWindowOpenTimeout tag run layer s = _
    simp only [execWindowOpenTimeout, State.onTurnover_eq hon, hwindow, hstalled, Bool.not_false, Bool.and_self, if_true]

end Sys2Proof.Machine
end

section
/-! SUPPORT. The completion of the commands of the mailboxes, of the Ringmaster and of the firmware. -/

namespace Sys2Proof.Machine

open Sys2Proof

/-- A submission that is not the first in line waits, and so does every one while the Ringmaster is held (R379). -/
theorem exec_requestSubmit_of_waiting {s : State} {m : Nat}
    (hwait : s.ring.holding = true ∨ ∃ n rest, s.ring.order = n :: rest ∧ n ≠ m) : exec (.requestSubmit m) s = .next s := by
  show execRequestSubmit m s = _
  have hblocked : (s.ring.holding || !s.firstInLine m) = true := by
    obtain hhold | ⟨n, rest, horder, hne⟩ := hwait
    · rw [hhold, Bool.true_or]
    · simp [State.firstInLine, horder, hne]
  simp only [execRequestSubmit, hblocked, if_true]

/-- Settles O24: the frame, the submission or the request is found as the row says. -/
theorem completesRequests : Obligations.CompletesRequests := by
  refine ⟨?_, ?_, ?_, ?_, ?_, ?_, ?_⟩
  · intro s f htyp hkind
    show execMsgSegmentReceive f s = _
    simp only [execMsgSegmentReceive, htyp, hkind, decide_true, Bool.and_self, if_true]
  · intro s f htyp hkind
    show execMsgStatusRead f s = _
    simp only [execMsgStatusRead, htyp, hkind, decide_true, Bool.and_self, if_true]
  · intro s mailbox a ha hdue
    show execMsgAssemblyTimeout mailbox s = _
    simp only [execMsgAssemblyTimeout, ha, Option.elim, hdue, if_true]
  · intro s mailbox x rest hx hline hhold
    exact exec_requestSubmit_of_first hx hhold hline
  · intro s mailbox hwait
    exact exec_requestSubmit_of_waiting hwait
  · intro s seq r hr hfirst
    show execFenceRelease seq s = _
    have hnone : s.ring.journal.any (fun x => x.mailbox = r.mailbox && x.seq < seq) = false := by
      simpa using hfirst
    simp only [execFenceRelease, hr, hnone, Bool.false_eq_true, if_false]
  · intro s mailbox requestId
    rfl

/-- A die that can run a test starts the one that is due on it (R368). -/
theorem State.dueTest_eq {s : State} {f : Nat} (hfenced : s.ring.fenced = some f) (hdue : s.ring.testDue = true)
    (hfree : (s.die (pairDie f)).test = none) (hready : (s.die (pairDie f)).startable = true) :
    s.dueTest (pairDie f) = (s.setRing { s.ring with testDue := false }).startTest 4 3 true [pairDie f] none 0 := by
  simp [State.dueTest, hfenced, hdue, hfree, hready]

/-- Settles O25: the pair, the core or the take-over stands where the row asks. -/
theorem completesRingmaster : Obligations.CompletesRingmaster := by
  refine ⟨?_, ?_, ?_, ?_, ?_⟩
  · intro s hrun
    show execRingmasterTakeover s = _
    simp only [execRingmasterTakeover, hrun, if_true]
  · intro s pair hrun hpair hdue
    show execHeartbeatTimeout pair s = _
    simp only [execHeartbeatTimeout, hrun, hpair, hdue, Bool.not_true, Bool.or_self, Bool.false_eq_true, if_false]
  · intro s core hcore
    show execServiceCoreFault core s = _
    simp only [execServiceCoreFault, hcore, if_true]
  · intro s t at_ f htake hdue ht hfenced
    show execTakeoverResume s = _
    subst ht
    simp only [execTakeoverResume, htake, hdue, Bool.not_true, Bool.false_eq_true, if_false, hfenced]
  · intro s f htake hfenced htest hfree hready
    show execTakeoverResume s = _
    simp only [execTakeoverResume, htake, hfenced, Option.elim, State.dueTest_eq hfenced htest hfree hready]

/-- Settles O26: the firmware's record stands where the row asks. -/
theorem completesFirmware : Obligations.CompletesFirmware := by
  refine ⟨?_, ?_, ?_, ?_, ?_, ?_, ?_⟩
  · intro s hphase hmod
    show execBoot s = _
    simp only [execBoot, hphase, hmod, decide_true, Bool.and_self, if_true]
  · intro s seq r i hr hhand hflags hzero hrest hrecovery hstage himage
    show execFwActivate seq s = _
    simp [execFwActivate, State.onOperator_eq hr, hhand, Nat.not_le.mpr (Nat.lt_succ_of_le hflags), hzero, hrest, hrecovery, hstage,
      himage]
  · intro s seq r hr hhand hflags hzero hrest hrecovery hstage hrunning hsame hidle
    show execFwActivate seq s = _
    simp [execFwActivate, State.onOperator_eq hr, hhand, Nat.not_le.mpr (Nat.lt_succ_of_le hflags), hzero, hrest, hrecovery, hstage,
      hrunning, hsame, hidle]
  · intro s t b raise hrewrite ht
    show execFlashRewriteDone true s = _
    subst ht
    cases hrequest : s.recoveryActivate with
    | none => simp only [execFlashRewriteDone, hrewrite, hrequest, if_true]
    | some q => simp only [execFlashRewriteDone, hrewrite, hrequest, if_true]
  · intro s b raise hrewrite hrecovery
    show execFlashRewriteDone false s = _
    simp only [execFlashRewriteDone, hrewrite, hrecovery, Option.elim, Bool.false_eq_true, if_false]
  · intro s h hhand hready hdue
    show execStandbyReadyTimeout s = _
    simp only [execStandbyReadyTimeout, hhand, hready, hdue, Bool.not_false, Bool.and_self, if_true]
  · intro s h hhand hready hdue
    show execHandoverBoundaryTimeout s = _
    simp only [execHandoverBoundaryTimeout, hhand, hready, hdue, Bool.and_self, if_true]

/-- Settles O27: the request's fields pass, and the staging area stands where the row asks. -/
theorem completesFirmwareStage : Obligations.CompletesFirmwareStage := by
  refine ⟨?_, ?_, ?_, ?_, ?_, ?_⟩
  · intro s seq r hr hop hfields halign hsome hmax hidle
    show execFwStageBegin seq s = _
    simp only [execFwStageBegin, State.onOperatorOp_eq 5 hr hop, hfields, halign, hsome, Nat.not_lt.mpr hmax, hidle,
      bne_self_eq_false, decide_false, Bool.not_true, Bool.or_self, Bool.false_eq_true, if_false]
  · intro s seq r hr hop hzero hzero' halign hsize hlo hhi hidle hend
    show execFwStageData seq s = _
    simp only [execFwStageData, State.onOperatorOp_eq 5 hr hop, hzero, hzero', halign, hsize, Nat.not_lt.mpr hlo, Nat.not_lt.mpr hhi,
      hidle, Nat.not_lt.mpr hend, bne_self_eq_false, decide_false, Bool.not_true, Bool.or_self, Bool.false_eq_true, if_false]
  · intro s seq r hr hop hfields hidle hsome hwhole
    have hready : (decide (s.fw.stageSize = 0) || decide (8 * s.fw.stageWritten.length < s.fw.stageSize)) = false := by
      simp [hsome, hwhole]
    refine ⟨fun hbad => ?_, fun i hgood => ?_⟩
    · show execFwStageVerify seq s = _
      simp only [execFwStageVerify, State.onOperatorOp_eq 5 hr hop, hfields, hidle, hready, hbad, Bool.not_true, Bool.false_eq_true,
        if_false]
    · show execFwStageVerify seq s = _
      simp only [execFwStageVerify, State.onOperatorOp_eq 5 hr hop, hfields, hidle, hready, hgood, Bool.not_true, Bool.false_eq_true,
        if_false]
  · intro s seq r hr hop hfields
    show execFwStageDiscard seq s = _
    simp only [execFwStageDiscard, State.onOperatorOp_eq 5 hr hop, hfields, Bool.not_true, Bool.false_eq_true, if_false]
  · intro s seq r hr hop hfields
    show execFwStageQuery seq s = _
    simp only [execFwStageQuery, State.onOperatorOp_eq 5 hr hop, hfields, Bool.not_true, Bool.false_eq_true, if_false]
  · intro s seq r hr hrest
    show execDevIdentity seq s = _
    simp only [execDevIdentity, State.onOperator_eq hr, hrest, Bool.not_true, Bool.false_eq_true, if_false]

end Sys2Proof.Machine
end

section
/-! SUPPORT. The completion of the commands of ports, links, transactions and the fabric. -/

namespace Sys2Proof.Machine

open Sys2Proof

/-- A first failed lane of a carrying port, where the good spare takes its place (R341). -/
theorem State.failLane_of_spare {s : State} {port lane : Nat} (hcarry : (s.port port).carrying = true) (hlane : lane ≤ 7)
    (hfirst : (s.port port).laneFailed.getLsbD lane = false) (hx4 : (s.port port).st ≠ .upX4) (hspare : (s.port port).spareGood = true) :
    s.failLane port lane = s.swapSpare port lane := by
  have hlt : ¬ 8 < lane := by omega
  have hne : lane ≠ 8 := by omega
  simp [State.failLane, hcarry, hlt, hne, hfirst, hx4, hspare]

/-- A failed lane without a good spare: the retrain to four lanes, where the port may run on them and none is under way; else the port
goes down (R341). -/
theorem State.failLane_of_no_spare {s : State} {port lane : Nat} (hcarry : (s.port port).carrying = true) (hlane : lane ≤ 7)
    (hfirst : (s.port port).laneFailed.getLsbD lane = false) (hx4 : (s.port port).st ≠ .upX4) (hspare : (s.port port).spareGood = false) :
    s.failLane port lane =
      if (s.port port).allowX4 && !(s.port port).x4Pending then
        (s.updPort port fun p => { p with laneFailed := p.laneFailed ||| (1#9 <<< lane) }).updPort port fun p => { p with x4Pending := true }
      else (s.updPort port fun p => { p with laneFailed := p.laneFailed ||| (1#9 <<< lane) }).portDown port := by
  have hlt : ¬ 8 < lane := by omega
  have hne : lane ≠ 8 := by omega
  simp only [State.failLane, hcarry, hlt, hne, hfirst, hx4, hspare, decide_false, Bool.not_true, Bool.or_self, Bool.false_and,
    Bool.false_eq_true, if_false]

/-- Settles O28: the port is in the state that the row names. -/
theorem completesPorts : Obligations.CompletesPorts := by
  refine ⟨?_, ?_, ?_, ?_, ?_, ?_, ?_, ?_, ?_⟩
  · intro s port lanes hst hlanes
    show execPortSignalDetect port lanes s = _
    simp only [execPortSignalDetect, hst, hlanes, decide_true, Bool.and_self, if_true]
  · intro s t port h hst ht
    show execPortTrainDone port h s = _
    subst ht
    simp only [execPortTrainDone, hst, if_true]
  · intro s port hst hdue
    show execPortTrainTimeout port s = _
    simp only [execPortTrainTimeout, hst, hdue, decide_true, Bool.and_self, if_true]
  · intro s port h hst
    show execHelloReceive port h s = _
    simp only [execHelloReceive, Bool.or_eq_true, decide_eq_true_eq, if_pos hst]
  · intro s
    rfl
  · intro s port hcarry
    show execPortDown port s = _
    simp only [execPortDown, hcarry, if_true]
  · intro s port hcarry hfail
    show execReplayLimit port s = _
    simp only [execReplayLimit, hcarry, hfail, decide_true, Bool.and_self, if_true]
  · intro s port lane p hp hcarry hlane hfirst hx4
    subst hp
    refine ⟨fun hspare => ?_, fun hspare hallow hpending => ?_, fun hspare hallow => ?_⟩
    · exact congrArg _ (State.failLane_of_spare hcarry hlane hfirst hx4 hspare)
    · refine congrArg _ ((State.failLane_of_no_spare hcarry hlane hfirst hx4 hspare).trans ?_)
      simp only [hallow, hpending, Bool.not_false, Bool.and_self, if_true]
    · refine congrArg _ ((State.failLane_of_no_spare hcarry hlane hfirst hx4 hspare).trans ?_)
      simp only [hallow, Bool.false_and, Bool.false_eq_true, if_false]
  · intro s port hpending hcarry
    show execX4RetrainDone port s = _
    simp only [execX4RetrainDone, hpending, hcarry, Bool.and_self, if_true]

/-- A frame with a good CRC goes on to its LSEQ (R346). -/
theorem exec_linkFrameReceive_of_good {s u : State} {port : Nat} {f : LinkFrame} (htraffic : (s.port port).traffic = true)
    (hu : u = s.updPort port (fun p => p.fec f)) (hcrc : f.frame.crc = crc32c (frameBody f.frame)) :
    exec (.linkFrameReceive port f) s = .next (u.receive port f.frame) := by
  show execLinkFrameReceive port f s = _
  subst hu
  simp only [execLinkFrameReceive, htraffic, frameGood, hcrc, decide_true, Bool.not_true, Bool.false_eq_true, if_false, if_true]

/-- Settles O29: the frame, the control word or the port stands where the row asks. -/
theorem completesLinks : Obligations.CompletesLinks := by
  refine ⟨?_, ?_, ?_, ?_, ?_, ?_, ?_, ?_, ?_, ?_, ?_⟩
  · intro s u port f htraffic hu hcrc
    show execLinkFrameReceive port f s = _
    subst hu
    simp only [execLinkFrameReceive, htraffic, frameGood, hcrc, decide_false, Bool.not_true, Bool.false_eq_true, if_false]
  · intro s u t port f htraffic hu hcrc hlocal ht
    have hexec := exec_linkFrameReceive_of_good htraffic hu hcrc
    subst ht
    refine ⟨fun hseq hroom => ?_, fun hseq hold => ?_, fun hseq hnew => ?_⟩
    · rw [hexec]
      simp only [State.receive, hlocal, hseq, hroom, Bool.false_eq_true, if_false, if_true]
    · rw [hexec]
      simp only [State.receive, hlocal, if_neg hseq, hold, Bool.false_eq_true, if_false, if_true]
    · rw [hexec]
      simp only [State.receive, hlocal, if_neg hseq, hnew, Bool.false_eq_true, if_false]
  · intro s port n htraffic
    show execNakReceive port n s = _
    simp only [execNakReceive, htraffic, if_true]
  · intro s t port ack counts hcarry ht
    show execLinkCtrlReceive port ⟨.credits counts, ack⟩ s = _
    subst ht
    simp only [execLinkCtrlReceive, hcarry, Bool.not_true, Bool.false_eq_true, if_false]
  · intro s t port ack n hcarry ht htraffic
    show execLinkCtrlReceive port ⟨.nak n, ack⟩ s = _
    subst ht
    simp only [execLinkCtrlReceive, hcarry, htraffic, Bool.not_true, Bool.false_eq_true, if_false, if_true]
  · intro s t port ack lane hcarry ht hcarry' hlane hfirst hx4 hspare
    show execLinkCtrlReceive port ⟨.laneMap lane, ack⟩ s = _
    subst ht
    simp only [execLinkCtrlReceive, hcarry, hlane, State.failLane_of_spare hcarry' (Nat.le_of_lt_succ hlane) hfirst hx4 hspare,
      Bool.not_true, Bool.false_eq_true, if_false, if_true]
  · intro s port hcarry hcredits
    show execCreditReturnTimer port s = _
    simp only [execCreditReturnTimer, hcarry, bne_iff_ne.mpr hcredits, Bool.and_self, if_true]
    rfl
  · intro s die index w hw hhops hdie hover
    refine ⟨fun d hlocal hd => ?_, fun port vc hlocal hhop hflow => ?_⟩
    · show execRouteFrame die index s = _
      simp only [execRouteFrame, hw, hhops, hdie, hover, hlocal, hd, decide_false, Bool.or_self, Bool.false_eq_true, if_false, if_true]
    · show execRouteFrame die index s = _
      simp only [execRouteFrame, hw, hhops, hdie, hover, hlocal, hhop, hflow, decide_false, Bool.or_self, Bool.false_eq_true, if_false]
  · intro s t die index w hw hfault ht
    show execRoutingFaultDiscard die index s = _
    subst ht
    simp only [execRoutingFaultDiscard, hw, hfault, if_true]
  · intro s port hdown hhost
    show execReplayTakeback port s = _
    simp only [execReplayTakeback, hdown, State.takeBack, hhost, Bool.false_eq_true, if_false, if_true]
  · intro s port hdown hhost
    show execReplayTakeback port s = _
    simp only [execReplayTakeback, hdown, State.takeBack, hhost, Bool.false_eq_true, if_false]

/-- An unanswered transaction ends at its source (R352). -/
theorem exec_e2eTransactionFail {s : State} {die txn : Nat} {t : Txn}
    (ht : (s.die die).txns.find? (fun t => t.frame.txn = txn) = some t) (hdue : due t.firstSent 90000000 s.now = true) :
    exec (.e2eTransactionFail die txn) s = .next ((s.endTxn die txn).outcome t stUncorrectable [] true) := by
  show execE2eTransactionFail die txn s = _
  simp only [execE2eTransactionFail, ht, hdue, if_true]

/-- A work item whose transaction failed ends with the status of the failure (R352). -/
theorem State.itemHeard_of_failure (s : State) (k : ItemKey) (t : Txn) {status : Nat} (data : Bytes) (h : status ≠ stOk) :
    s.itemHeard k t status data = s.failItem k status := by
  simp only [State.itemHeard, bne_iff_ne.mpr h, if_true]

/-- Settles O30: the frame, the transaction or the port stands where the row asks. -/
theorem completesTransactions : Obligations.CompletesTransactions := by
  refine ⟨?_, ?_, ?_, ?_, ?_, ?_, ?_, ?_⟩
  · intro s die f htyp hroom hover
    exact exec_e2eFrameDeliver htyp hroom hover
  · intro s die f hlo hhi hdeaf
    show execE2eResponseReceive die f s = _
    simp only [execE2eResponseReceive, hlo, hhi, hdeaf, decide_true, Bool.not_false, Bool.and_self, if_true]
  · intro s die txn t ht hdue hearly
    show execE2eResendTimer die txn s = _
    simp only [execE2eResendTimer, ht, hdue, hearly, Bool.and_self, if_true]
  · intro s u die txn t ht hdue hu
    have hexec := exec_e2eTransactionFail ht hdue
    subst hu
    refine ⟨fun k hk => ?_, fun hnone hkind => ?_, fun hnone hkind => ?_⟩
    · rw [hexec]
      simp only [State.outcome, hk, State.itemHeard_of_failure _ _ _ _ (show stUncorrectable ≠ stOk by decide)]
    · rw [hexec]
      simp only [State.outcome, hnone, if_neg hkind]
    · rw [hexec]
      simp only [State.outcome, hnone, if_pos hkind]
  · intro s die srcModule srcDie
    rfl
  · intro s port vc f htraffic hhost hroom
    show execHostIngress port vc f s = _
    simp only [execHostIngress, htraffic, hhost, hroom, Bool.and_self, if_true]
  · intro s port h rest hheld hafter hroom
    show execControlPageWriteRelease port s = _
    simp only [execControlPageWriteRelease, hheld, hafter, hroom, decide_true, Bool.and_self, if_true, State.launchHead]
  · intro s die f htyp hwin hroom
    show execHostWindowEgress die f s = _
    simp only [execHostWindowEgress, htyp, hwin, hroom, Bool.and_self, if_true]

/-- Settles O31: the request's fields pass, and what it sets or asks stands where the row asks. -/
theorem completesFabricCommands : Obligations.CompletesFabricCommands := by
  refine ⟨?_, ?_, ?_, ?_, ?_, ?_⟩
  · intro s t seq r hr hok htap ht
    show execFabPortSet seq s = _
    subst ht
    have hfree : (s.tapDrives && u8 r.body 1 != 0) = false := by
      obtain h | h := htap <;> simp [h]
    simp only [execFabPortSet, State.onOperator_eq hr, hok, hfree, Bool.not_true, Bool.false_eq_true, if_false]
  · intro s seq r es hr hok hes
    show execFabRouteSet seq s = _
    subst hes
    simp only [execFabRouteSet, State.onOperator_eq hr, hok, Bool.not_true, Bool.false_eq_true, if_false]
  · intro s seq r hr hop hrest
    show execFabDiscoverQuery seq s = _
    simp only [execFabDiscoverQuery, State.onOperatorOp_eq 3 hr hop, hrest, Bool.not_true, Bool.false_eq_true, if_false]
  · intro s t seq r hr hop hzero hrest hid hpitches hlends ht
    show execFabDiscoverSetId seq s = _
    simp only [execFabDiscoverSetId, State.onOperatorOp_eq 3 hr hop, hzero, hrest, hid, hpitches, hlends, ht, setFab_ports,
      bne_self_eq_false, decide_false, Bool.not_true, Bool.or_self, Bool.false_eq_true, if_false]
  · intro s t seq r hr hop hrest ht
    show execFabDiscoverRefresh seq s = _
    simp only [execFabDiscoverRefresh, State.onOperatorOp_eq 3 hr hop, hrest, ← ht, Bool.not_true, Bool.false_eq_true, if_false]
  · intro s t seq r l moved hr hok hl hmoved hroles ht
    show execFabBridgeSet seq s = _
    subst ht hmoved hl
    simp only [execFabBridgeSet, State.onOperator_eq hr, hok, hroles, Bool.not_true, Bool.false_eq_true, if_false]

end Sys2Proof.Machine
end

section
/-! SUPPORT. The completion of the commands of the supply, of the control loops and of the die states. -/

namespace Sys2Proof.Machine

open Sys2Proof

/-! ### The supply -/

/-- Settles O32: the supply, the keepers or the dip stand where the row asks. -/
theorem completesSupply : Obligations.CompletesSupply := by
  refine ⟨?_, ?_, ?_, ?_, ?_, ?_, ?_, ?_, ?_, ?_, ?_, ?_, ?_, ?_⟩
  · intro s t mv hmax ht hmay
    have hphase : t.power.phase = s.power.phase := by rw [ht]; rfl
    have hkpr : t.kpr = s.kpr := by rw [ht]; rfl
    refine ⟨fun hoff => ?_, fun hreset => ?_, fun hstarted hmod => ?_⟩
    · show execPowerOnSequence mv s = _
      simp only [execPowerOnSequence, supply_of_le hmax, ← ht, hmay, hphase, hoff, Bool.not_true, Bool.false_eq_true, if_false]
    · show execPowerOnSequence mv s = _
      simp only [execPowerOnSequence, supply_of_le hmax, ← ht, hmay, hphase, hreset, Bool.not_true, Bool.false_eq_true, if_false]
    · show execPowerOnSequence mv s = _
      simp only [execPowerOnSequence, supply_of_le hmax, ← ht, hmay, hphase, hstarted, hkpr, if_neg hmod, Bool.not_true,
        Bool.false_eq_true, if_false]
  · intro s die rail hrun hmod hdie hst hdue
    show execRailRegulationTimeout die rail s = _
    simp only [execRailRegulationTimeout, hrun, hmod, hdie, bne_iff_ne.mpr hst, hdue, decide_true, Bool.and_self, if_true]
  · intro s mv hrun hlow
    show execUndervoltageReset mv s = _
    simp only [execUndervoltageReset, hrun, hlow, decide_true, Bool.and_self, if_true]
  · intro s mv hrun hlo hmax
    show execOvervoltageReset mv s = _
    have hrun' : (s.setVin mv).keepersRun = true := hrun
    simp only [execOvervoltageReset, supply_of_le hmax, hrun', hlo, decide_true, Bool.and_self, if_true]
  · intro s mv hrun hlo hhi
    exact exec_overVoltage_of_range hrun hlo hhi
  · intro s us hrun hlong
    show execResetNAssert us s = _
    simp only [execResetNAssert, hrun, hlong, decide_true, Bool.and_self, if_true]
  · intro s us hphase hlong
    show execModEnableDeassert us s = _
    simp only [execModEnableDeassert, Nat.not_lt.mpr hlong, bne_iff_ne.mpr hphase, if_false, if_true]
  · intro s us hphase hlong
    show execModEnableDeassert us s = _
    simp only [execModEnableDeassert, Nat.not_lt.mpr hlong, hphase, bne_self_eq_false, Bool.false_eq_true, if_false]
  · intro s mv hphase hlow
    show execKeeperDomainLoss mv s = _
    simp only [execKeeperDomainLoss, hlow, if_true]
  · intro s hrun
    show execKeeperFailover s = _
    simp only [execKeeperFailover, hrun, if_true]
  · intro s t mv hrun hdip hlow hhigh ht
    show execDipBegin mv s = _
    subst ht
    simp only [execDipBegin, hrun, hdip, hlow, hhigh, decide_true, Bool.not_false, Bool.and_self, if_true]
    rfl
  · intro s mv hdip hhigh
    show execDipInputRise mv s = _
    simp only [execDipInputRise, hdip, hhigh, decide_true, Bool.and_self, if_true]
    rfl
  · intro s mv hdip hlow
    show execDipInputFall mv s = _
    simp only [execDipInputFall, hdip, hlow, decide_true, Bool.and_self, if_true]
    rfl
  · intro s t mv since hdip hhigh hhold hdue ht
    show execDipEnd mv s = _
    subst ht
    have hdip' : (s.setVin mv).power.dip = true := hdip
    have hhold' : (s.setVin mv).power.dipHold = some since := hhold
    have hdue' : due since 2500 (s.setVin mv).now = true := hdue
    simp only [execDipEnd, hdip', hhigh, hhold', Option.elim, hdue', decide_true, Bool.and_self, if_true]
    rfl

/-! ### The control loops -/

/-- Settles O33: the measurements stand where the row asks. -/
theorem completesControl : Obligations.CompletesControl := by
  refine ⟨?_, ?_, ?_, ?_, ?_, ?_, ?_⟩
  · intro s t u p1 p10 ma ht
    refine ⟨fun hover hdown hu => ?_, fun hover hp10 hma hdown hup => ?_⟩
    · show execPowerControlEval p1 p10 ma s = _
      subst hu
      have hdown' : since t.power.lastDown 2500 t.now = true := by rw [ht]; exact hdown
      simp only [execPowerControlEval, ← ht, hover, hdown', Bool.not_true, Bool.false_eq_true, if_false, if_true, Bool.and_eq_true,
        decide_eq_true_eq]
    · show execPowerControlEval p1 p10 ma s = _
      have hdown' : since t.power.lastDown 250000 t.now = true := by rw [ht]; exact hdown
      have hup' : since t.power.lastUp 25000 t.now = true := by rw [ht]; exact hup
      simp only [execPowerControlEval, ← ht, hover, hp10, hma, hdown', hup', decide_true, Bool.and_self, Bool.false_eq_true, if_false,
        if_true]
  · intro s die hrails
    show execStepChangeDone die s = _
    simp only [execStepChangeDone, hrails, if_true]
  · intro s t die sensor tj ht hmod hrun hdie
    have hon : (decide (t.kpr.mod = .keeperOnly) || !t.keepersRun || decide (24 ≤ die)) = false := by
      simp [hmod, hrun, hdie]
    refine ⟨fun hshut => ?_, fun hwarm hcool hcold => ?_, fun hcool => ?_⟩
    · show execThermalControlEval die tj sensor s = _
      simp only [execThermalControlEval, ← ht, hon, hshut, Bool.false_eq_true, if_false, if_true]
    · show execThermalControlEval die tj sensor s = _
      simp only [execThermalControlEval, ← ht, hon, not_le.mpr hcool, hwarm, hcold, Bool.false_eq_true, if_false, if_true]
    · show execThermalControlEval die tj sensor s = _
      have hshut : ¬ 880 ≤ tj := by omega
      have hwarm : ¬ 760 ≤ tj := by omega
      simp only [execThermalControlEval, ← ht, hon, hshut, hwarm, hcool, Bool.false_eq_true, if_false, if_true]
  · intro s die tj hmod hrun hhot
    show execThermalTrip die tj s = _
    simp only [execThermalTrip, hmod, hrun, hhot, decide_true, Bool.and_self, if_true]
  · intro s t die rail phase hrun hdie hrail hne hnew ht
    show execPhaseLost die rail phase s = _
    simp only [execPhaseLost, hrun, Nat.not_le.mpr hdie, Nat.not_le.mpr hrail, hnew, if_neg hne, ← ht, decide_false, Bool.not_true,
      Bool.or_self, Bool.false_eq_true, if_false]
    cases (s.die die).phasesLost.any fun x => x.1 = rail <;> rfl
  · intro s cause hrun hmod hcause
    show execKeeperOnlyEntry cause s = _
    simp only [execKeeperOnlyEntry, hrun, bne_iff_ne.mpr hmod, hcause, decide_true, Bool.and_self, if_true]
  · intro s t watts ht hset hover hnew
    show execPwarnEval watts s = _
    have hset' : (t.power.pwarnW != 0) = true := by rw [ht]; exact bne_iff_ne.mpr hset
    have hover' : t.power.pwarnW < watts := by rw [ht]; exact hover
    have hnew' : t.power.pwarn = false := by rw [ht]; exact hnew
    simp only [execPwarnEval, ← ht, hset', hover', hnew', decide_true, Bool.and_self, Bool.false_eq_true, if_false, if_true]

/-! ### Die states -/

/-- Settles O34: the request's fields pass, and the dies stand where the row asks. -/
theorem completesDieStates : Obligations.CompletesDieStates := by
  refine ⟨?_, ?_, ?_, ?_, ?_, ?_, ?_, ?_, ?_, ?_, ?_⟩
  · intro s seq r hr hop hok
    show execPwrDieStateQuery seq s = _
    rw [execPwrDieStateQuery, State.onDies_eq hr hop hok]
  · intro s seq r hr hop hok
    show execPwrDieStateSetCap seq s = _
    rw [execPwrDieStateSetCap, State.onDies_eq hr hop hok]
  · intro s seq r hr hop hok
    show execPwrDieStateSetIdle seq s = _
    rw [execPwrDieStateSetIdle, State.onDies_eq hr hop hok]
  · intro s t seq r new plans hr hop hok hfirst hnew hfree hplans ht
    show execPwrDieStateDrain seq s = _
    subst ht hnew
    simp only [execPwrDieStateDrain, State.onDies_eq hr hop hok, hfirst, hfree, hplans, Bool.false_eq_true, if_false]
  · intro s t seq r ds plans hr hop hok hfirst hds hfree hplans ht
    show execPwrDieStateReturn seq s = _
    subst ht hds
    simp only [execPwrDieStateReturn, State.onDies_eq hr hop hok, hfirst, hfree, hplans, Bool.false_eq_true, if_false]
  · intro s seq r ds hr hop hok hds hfree
    show execPwrDieStateOff seq s = _
    subst hds
    simp only [execPwrDieStateOff, State.onDies_eq hr hop hok, hfree, Bool.false_eq_true, if_false]
  · intro s tag lcluster p m n hp hm hwaiting hidle hn
    show execLogicalClusterMove tag lcluster s = _
    subst hn
    simp only [execLogicalClusterMove, hp, hm, hwaiting, hidle, Bool.not_true, Bool.or_self, Bool.false_eq_true, if_false]
  · intro s seq r hr hop hok hmod
    show execPwrDieStateKeeperOnly seq s = _
    simp only [execPwrDieStateKeeperOnly, State.onOperatorOp_eq 8 hr hop, hok, if_neg hmod, Bool.not_true, Bool.false_eq_true,
      if_false]
  · intro s seq r hr hop hok hmod hpitches hlends hcool
    show execPwrDieStateExit seq s = _
    simp only [execPwrDieStateExit, State.onOperatorOp_eq 8 hr hop, hok, hmod, hpitches, hlends, hcool, bne_self_eq_false,
      Bool.not_true, Bool.or_self, Bool.false_eq_true, if_false]
  · intro s seq r hr hmask hrest hown
    show execTelemetryRead seq s = _
    have hmay : (!decide (r.mailbox = 0) && (maskBits (u32 r.body 0) 24).any fun d => s.dieTag? d != some r.tag) = false := by
      obtain hoperator | hdies := hown
      · simp [hoperator]
      · have hall : (maskBits (u32 r.body 0) 24).any (fun d => s.dieTag? d != some r.tag) = false := by
          rw [List.any_eq_false]
          intro d hd
          rw [hdies d hd, bne_self_eq_false]
          exact Bool.false_ne_true
        rw [hall, Bool.and_false]
    simp only [execTelemetryRead, State.onOperator_eq hr, Nat.not_le.mpr hmask, hrest, hmay, decide_false, Bool.not_true,
      Bool.or_self, Bool.false_eq_true, if_false]
  · intro s seq r es hr hlo hhi hrest hes
    show execEventLogRead seq s = _
    subst hes
    simp only [execEventLogRead, State.onOperator_eq hr, Nat.not_lt.mpr hlo, Nat.not_lt.mpr hhi, hrest, decide_false, Bool.not_true,
      Bool.or_self, Bool.false_eq_true, if_false]

end Sys2Proof.Machine
end

section
/-! SUPPORT. The completion of memory errors, marches, self-tests and repairs, and of the commands of keeper space. -/

namespace Sys2Proof.Machine

open Sys2Proof

/-! ### What a store's code makes of a unit (R174) -/

theorem StoreCode.decode_zero (c : StoreCode) (k now : Nat) : c.decode 0 k now = .clean := if_pos rfl

theorem StoreCode.decode_of_corrects {c : StoreCode} {symbols : Nat} (hlo : 1 ≤ symbols) (hhi : symbols ≤ c.corrects) (k now : Nat) :
    c.decode symbols k now = .corrected := by
  rw [StoreCode.decode, if_neg (Nat.one_le_iff_ne_zero.mp hlo), if_pos hhi]

theorem StoreCode.decode_of_detects {c : StoreCode} {symbols : Nat} (hlo : c.corrects < symbols) (hhi : symbols ≤ c.detects)
    (k now : Nat) : c.decode symbols k now = .uncorrectable := by
  have hdetected : (decide (symbols ≤ c.detects) || Config.codeDetects k now) = true := by simp [hhi]
  rw [StoreCode.decode, if_neg (Nat.ne_zero_of_lt hlo), if_neg (Nat.not_le.mpr hlo), if_pos hdetected]

/-! ### Patrol scrub (R176) -/

/-- The state that a scrub reads its place in: a sector of DRAM needs the PLL of the die's DRAM. -/
def State.scrubRead (s : State) (die : Nat) : StorePlace → State
  | .space off => if isSram off then s else s.dramNeed die
  | .bank _ _ => s

theorem State.scrubRead_of_hyps {s t : State} {die : Nat} {x : StorePlace}
    (hspace : ∀ off, x = .space off → t = if isSram off then s else s.dramNeed die) (hbank : ∀ kind row, x = .bank kind row → t = s) :
    s.scrubRead die x = t := by
  cases x with
  | space off => exact (hspace off rfl).symm
  | bank kind row => exact (hbank kind row rfl).symm

/-- PATROL_SCRUB while the die has its rails, by what the code makes of the unit. -/
theorem exec_patrolScrub_of_decode {s : State} {die : Nat} (hrails : (s.die die).railsUp = true) {x : StorePlace} {symbols : Nat}
    {c : Decoded} (hdecode : ∀ k now, (codeAt die x).decode symbols k now = c) :
    exec (.patrolScrub die x symbols) s = .next (c.casesOn (s.scrubRead die x)
      ((s.scrubRead die x).updDie die fun d => d.correctedAt (s.scrubRead die x).now x) ((s.scrubRead die x).scrubFoundAt die x)) := by
  show execPatrolScrub die x symbols s = _
  cases x <;> cases c <;>
    simp only [execPatrolScrub, hrails, hdecode, State.scrubRead, Bool.not_true, Bool.false_eq_true, if_false]

/-! ### Memory errors, marches, self-tests and repairs -/

theorem State.firstWrite_of_unmarched {s : State} {die page : Nat} (hmarched : (s.die die).marched.contains page = false)
    (hzeroed : (s.die die).zeroed.contains page = false) :
    s.firstWrite die page =
      if (s.die die).inWindow then s.updDie die fun d => { d with marched := insertNat d.marched page }
      else (s.updDie die fun d => { d with zeroed := insertNat d.zeroed page }).logUnmarched die
        ((s.pitches.find? fun p => p.localDies.testBit die).elim noTag (·.tag)) page := by
  simp only [State.firstWrite, hmarched, hzeroed, Bool.or_self, Bool.false_eq_true, if_false]

/-- The next entry of a REPAIR_FUSE that is not its last. -/
theorem State.fuseNext_of_more {s : State} {f : Fusing} {ds : List Nat} {d e : Nat} {rest : List Nat} (hfusable : s.fusable ds = true)
    (htodo : f.todo = d :: e :: rest) :
    s.fuseNext f ds = (s.updDie d Die.fuse).setTests
      { s.tests with fusing := some { f with todo := e :: rest, done := f.done ++ [d] } } := by
  simp only [State.fuseNext, hfusable, htodo, Bool.not_true, Bool.false_eq_true, if_false, List.cons_ne_nil]
  rfl

theorem State.fuseNext_of_not_fusable {s : State} {ds : List Nat} (hfusable : s.fusable ds = false) (f : Fusing) :
    s.fuseNext f ds = s.fuseEnd f ds stOutOfRange := by
  simp only [State.fuseNext, hfusable, Bool.not_false, if_true]

/-- Settles O35: the die, the row or the test stands where the row asks. -/
theorem completesUpkeep : Obligations.CompletesUpkeep := by
  refine ⟨?_, ?_, ?_, ?_, ?_, ?_, ?_, ?_, ?_, ?_, ?_, ?_, ?_, ?_, ?_, ?_⟩
  · intro s die e hlo hhi
    show execCorrectedErrorWriteback die e s = _
    simp only [execCorrectedErrorWriteback, StoreCode.decode_of_corrects hlo hhi, if_true]
  · intro s t die symbols x hrails hspace hbank
    have ht : s.scrubRead die x = t := State.scrubRead_of_hyps hspace hbank
    refine ⟨?_, fun hlo hhi => ?_, fun hlo hhi => ?_⟩
    · rw [exec_patrolScrub_of_decode hrails (StoreCode.decode_zero _), ht]
    · rw [exec_patrolScrub_of_decode hrails (StoreCode.decode_of_corrects hlo hhi), ht]
    · rw [exec_patrolScrub_of_decode hrails (StoreCode.decode_of_detects hlo hhi), ht]
  · intro s die kind row d hcount hspares hmend
    show execRowRepairInService die kind row s = _
    simp only [execRowRepairInService, Nat.not_lt.mpr hcount, hspares, hmend, Bool.not_true, Bool.false_eq_true, if_false]
  · intro s die page hpage hrails hmarched hzeroed
    show execUnmarchedFirstWrite die page s = _
    simp only [execUnmarchedFirstWrite, Nat.not_le.mpr hpage, hrails, State.firstWrite_of_unmarched hmarched hzeroed, decide_false,
      Bool.not_true, Bool.or_self, Bool.false_eq_true, if_false]
  · intro s t die x hstart htest hpage ht
    show execBackgroundMarchPage die x s = _
    simp only [execBackgroundMarchPage, hstart, htest, hpage, ← ht, reduceCtorEq, Option.isNone_none, decide_true, Bool.and_self,
      if_false, if_true]
  · intro s die x hpage
    show execBackgroundMarchPage die x s = _
    simp only [execBackgroundMarchPage, hpage, if_true]
  · intro s die hsram hstart htest htag
    show execUnmarchedSramMarch die s = _
    simp only [execUnmarchedSramMarch, hsram, hstart, htest, htag, Option.isNone_none, Bool.and_self, if_true]
  · intro s die hwindow
    show execTestWindowLost die s = _
    simp only [execTestWindowLost, hwindow, Bool.false_eq_true, if_false]
  · intro s die fs t htest hwindow
    show execTestComplete die fs s = _
    simp only [execTestComplete, htest, hwindow, if_true]
  · intro s t die fs hdie hspares hstart htesting ht
    show execSparesTestAfterPowerOn die fs s = _
    simp only [execSparesTestAfterPowerOn, hspares, hstart, htesting, Nat.not_le.mpr hdie, ← ht, decide_false, Bool.not_true,
      Bool.or_self, Bool.false_eq_true, if_false]
  · intro s seq r hr hnew hok hready
    show execBistRun seq s = _
    simp only [execBistRun, State.onOperator_eq hr, hnew, hok, hready, Bool.not_true, Bool.false_eq_true, if_false]
  · intro s seq r t x hr hrest hfind hfree hx
    show execRepairSoft seq s = _
    simp only [execRepairSoft, State.onOperator_eq hr, hrest, hfind, hfree, ← hx, Bool.not_true, Bool.false_eq_true, if_false]
  · intro s seq r ds hr hmask hrest hds hnone hfusable hroom
    show execRepairFuse seq s = _
    simp only [execRepairFuse, State.onOperator_eq hr, Nat.not_le.mpr hmask, hrest, ← hds, hnone, hfusable, hroom, decide_false,
      Bool.not_true, Bool.or_self, Bool.false_eq_true, if_false]
  · intro s seq d e r f rest hr hmask hrest hf hseq hfusable htodo
    show execRepairFuse seq s = _
    subst hseq
    simp only [execRepairFuse, State.onOperator_eq hr, Nat.not_le.mpr hmask, hrest, hf, State.fuseNext_of_more hfusable htodo,
      decide_false, Bool.not_true, Bool.or_self, Bool.false_eq_true, if_false, if_true]
  · intro s seq r f hr hmask hrest hf hseq hfusable
    show execRepairFuse seq s = _
    simp only [execRepairFuse, State.onOperator_eq hr, Nat.not_le.mpr hmask, hrest, hf, hseq,
      State.fuseNext_of_not_fusable hfusable, decide_false, Bool.not_true, Bool.or_self, Bool.false_eq_true, if_false, if_true]
  · intro s seq r t hr hlo hhi hrest hfind
    show execBistResult seq s = _
    simp only [execBistResult, State.onOperator_eq hr, Nat.not_lt.mpr hlo, Nat.not_lt.mpr hhi, hrest, hfind, decide_false,
      Bool.not_true, Bool.or_self, Bool.false_eq_true, if_false]

/-! ### Keeper space -/

theorem cntClrAddr_mod_four (port : Nat) : cntClrAddr port % 4 = 0 := by
  unfold cntClrAddr
  omega

theorem cntClrAddr_injective : Function.Injective cntClrAddr := by
  intro p q h
  unfold cntClrAddr at h
  omega

theorem cntClrPort?_cntClrAddr {port : Nat} (hport : port < 72) : cntClrPort? (cntClrAddr port) = some port := by
  have hmem : port ∈ List.range Config.ports := List.mem_range.mpr hport
  have hsome : (cntClrPort? (cntClrAddr port)).isSome = true :=
    List.find?_isSome.mpr ⟨port, hmem, decide_eq_true rfl⟩
  obtain ⟨q, hq⟩ := Option.isSome_iff_exists.mp hsome
  have haddr : cntClrAddr q = cntClrAddr port := of_decide_eq_true (List.find?_some (p := fun p => decide (cntClrAddr p = _)) hq)
  rw [hq, cntClrAddr_injective haddr]

/-- The write of a port's CNT_CLR, whose address lies above the other registers'. -/
theorem State.writeReg_cntClrAddr {port : Nat} (hport : port < 72) (s : State) (d : BitVec 32) :
    s.writeReg (cntClrAddr port) d = s.clearCounters port d := by
  have hlow : 0x10000 ≤ cntClrAddr port := by unfold cntClrAddr; omega
  have hne : ∀ a, a < 0x10000 → cntClrAddr port ≠ a := by omega
  have hbuffer : (decide (0x8000 ≤ cntClrAddr port) && decide (cntClrAddr port < 0x9000)) = false := by simp; omega
  rw [State.writeReg, if_neg (hne _ (by decide)), if_neg (hne _ (by decide)), if_neg (hne _ (by decide)),
    if_neg (hne _ (by decide)), if_neg (hne _ (by decide)), if_neg (hne _ (by decide)), hbuffer, if_neg Bool.false_ne_true,
    if_neg (hne _ (by decide)), if_neg (hne _ (by decide)), cntClrPort?_cntClrAddr hport]

theorem kprGood_iff (f : KprFrame) : kprGood f = true ↔ f.crc = crc32c (kprBody f) := by
  rw [kprGood, decide_eq_true_eq]

/-- Settles O36: the keepers run, and the frame is one that the row takes. -/
theorem completesRegisters : Obligations.CompletesRegisters := by
  refine ⟨?_, ?_, ?_, ?_, ?_, ?_, ?_, ?_, ?_, ?_, ?_, ?_⟩
  · intro s ktag addr hrun haligned
    show execRegisterLoRead ktag addr s = _
    rw [execRegisterLoRead, State.kprRead_of_aligned hrun haligned, State.readReg_arrived]
  · intro s t ktag addr d hrun haligned hnew ht
    show execRegisterWrite ktag addr d s = _
    rw [execRegisterWrite, State.kprWrite_of_new hrun haligned hnew, ht]
  · intro s t ktag d hrun hnew ht
    have hwrite := State.kprWrite_of_new (addr := 0x2C) hrun rfl hnew d
    subst ht
    exact ⟨congrArg _ hwrite, congrArg _ hwrite⟩
  · intro s t ktag d hrun hnew ht
    subst ht
    exact congrArg _ (State.kprWrite_of_new (addr := 0xA000) hrun rfl hnew d)
  · intro s t ktag d hrun hnew ht
    subst ht
    exact congrArg _ (State.kprWrite_of_new (addr := 0xA008) hrun rfl hnew d)
  · intro s t ktag d hrun hnew ht
    subst ht
    exact congrArg _ (State.kprWrite_of_new (addr := 0x2040) hrun rfl hnew d)
  · intro s t ktag port d hrun hnew hport ht
    show execCntClr ktag port d s = _
    rw [execCntClr, State.kprWrite_of_new hrun (cntClrAddr_mod_four port) hnew, State.writeReg_cntClrAddr hport, ht]
  · intro s f hrun hcrc hbad
    show execKeeperFrameReject f s = _
    have hreject : (f.addr % 4 != 0 || !(decide (f.typ = 1) || decide (f.typ = 2))) = true := by
      obtain hmisaligned | ⟨hread, hwrite⟩ := hbad
      · simp [hmisaligned]
      · simp [hread, hwrite]
    simp only [execKeeperFrameReject, hrun, (kprGood_iff f).mpr hcrc, hreject, Bool.not_true, Bool.or_self, Bool.false_eq_true,
      if_false, if_true]
  · intro s f hrun hcrc haligned htyp hfull
    show execKeeperFrameReject f s = _
    have hkeep : (f.addr % 4 != 0 || !(decide (f.typ = 1) || decide (f.typ = 2))) = false := by
      obtain hread | hwrite := htyp
      · simp [haligned, hread]
      · simp [haligned, hwrite]
    simp only [execKeeperFrameReject, hrun, (kprGood_iff f).mpr hcrc, hkeep, hfull, Bool.not_true, Bool.or_self, Bool.false_eq_true,
      if_false, if_true]
  · intro s f hcrc
    show execKeeperFrameReject f s = _
    have hbad : kprGood f = false := decide_eq_false hcrc
    simp only [execKeeperFrameReject, hbad, Bool.not_false, Bool.or_true, if_true]
  · intro s hrun hmod hdue
    show execRecoveryAnnounce s = _
    simp only [execRecoveryAnnounce, hrun, hmod, hdue, decide_true, Bool.and_self, if_true]
  · intro s i hpower
    show execTapInstruction i s = _
    simp only [execTapInstruction, Nat.not_lt.mpr hpower, if_false]

end Sys2Proof.Machine
end

section
/-! SUPPORT. Two statements that do not hold. TRN_CHECKPOINT with OP CONFIGURE gives every run of its RUN_ID the slot states that the
run's own headers give, and not those of the first such run; and a byte stored into a memory that is not in its canonical form may uncover
an entry behind it. -/

namespace Sys2Proof.Machine

open Sys2Proof

/-! ### A powered module with one pitch -/

/-- Pitch 7 on D00. -/
def pitchOnDie0 : Pitch :=
  { tag := 7, strict := false, localDies := 1, stagingMib := 2, members := [(1, 1)], regions := [], shares := [1, 1, 1, 1]
    createBody := [], createSeq := 0, lmap := (List.range 16).map fun c => ⟨1, 0, c⟩ }

/-- The powered READY module 1 with a pitch and a memory. -/
def poweredModule (p : Pitch) (mem : List Host.Cell) : State :=
  let s := State.reset.setFab { assigned := true, moduleId := 1 }
  let s := (s.setKpr { s.kpr with mod := .ready, now := 100000000 }).setPower { s.power with phase := .up }
  ((s.setDies (s.dies.map fun d => { d with railsUp := true })).setPitches [p]).setMem mem

/-! ### A pitch with two runs of one RUN_ID -/

/-- A layer of one weight that logical die 0 owns. -/
def oneWeightLayer : Layer := { rows := 1, cols := 1, ownerFirst := 0, ownerCount := 1, ngroups := 1, a32 := false, tag := 0 }

/-- A run with RUN_ID 1 and the given layers. -/
def runOfLayers (layers : List Layer) : Run :=
  { id := 1, held := false, eval := 0, layers := layers, startStep := 0, normAddr := 4096, normSig := 0xFFFF, evalFirst := 0
    evalCount := 0, initMult := 0x3F800000, holdTable := [], holdBytes := 0, step := 0, blocks := [] }

/-- The pitch with a run that no die owns, and a second one that die 0 owns. -/
def twoRunPitch : Pitch := { pitchOnDie0 with runs := [runOfLayers [], runOfLayers [oneWeightLayer]] }

/-- CONFIGURE of RUN_ID 1 in bonded DRAM, with its area table at address 0 and slots of no bytes. -/
def configureBody : Bytes := le 4 1 ++ le 4 0 ++ le 8 0 ++ le 8 0 ++ le 4 0

def configureRequest : Request :=
  { seq := 0, mailbox := 1, command := 0x0404, fence := false, requestId := 5, srcPort := 0, hchan := 0, tag := 7, srcModule := 1
    htag := 0, body := configureBody, released := true }

/-- The area table, which puts die 0's area at 8192, and there the header of a COMPLETE slot of step 5. -/
def areaBytes : List Host.Cell :=
  (le 8 8192).zipIdx.map (fun x => (x.2, x.1)) ++ (slotHeader 1 5 2 0).zipIdx.map fun x => (8192 + x.2, x.1)

/-- The module with that pitch, memory and request. -/
def twoRunState : State :=
  let s := poweredModule twoRunPitch (memWrite [] areaBytes)
  s.setRing { s.ring with journal := [configureRequest] }

/-- The configuration that the request asks for. -/
def askedCkpt : Ckpt := { spoil := false, every := 0, areas := [8192], slotBytes := 0, timeoutMs := 1000, since := 0 }

/-- The slot states of the pitches' runs. -/
def State.slotStates (s : State) : List (List Nat) :=
  s.pitches.flatMap fun p => p.runs.map fun r => r.ckpt.elim [] (·.slotSt)

/-- The slot states in the state that an outcome answers. -/
def outcomeSlotStates : Host.Outcome State Fault Refusal → List (List Nat)
  | .next s => s.slotStates
  | _ => []

/-- The area table as CONFIGURE reads it. -/
theorem dramTable_twoRunState :
    dramTable twoRunState twoRunPitch (u64 configureBody 8) (8 * twoRunPitch.dieCount) = .ok (le 8 8192) := by decide +kernel

/-- CONFIGURE leaves the second run with the two COMPLETE slots of its header. -/
theorem slotStates_exec_configure :
    outcomeSlotStates (exec (.trnCheckpointConfigure 0) twoRunState) = [[0, 0], [2, 2]] := by decide +kernel

/-- With the first run's headers both runs have empty slots. -/
theorem slotStates_loaded_first :
    outcomeSlotStates (.next ((twoRunState.updRun 7 1 fun r =>
      { r with ckpt := some (askedCkpt.loaded twoRunState twoRunPitch (runOfLayers [])) }).ckptAnswer 0 7 1)) = [[0, 0], [0, 0]] := by
  decide +kernel

/-- Refutes O16: its clause for OP CONFIGURE gives every run of the RUN_ID the slot states of the first such run, where the model reads
each run's own headers. In `twoRunState` two runs have RUN_ID 1; a pitch that TRN_RUN_CONFIG alone has filled has no such pair, which
the clause does not ask. -/
theorem not_completesTrainingCommands : ¬ Obligations.CompletesTrainingCommands := by
  rintro ⟨-, -, -, -, -, -, hconfigure, -⟩
  have hnext := hconfigure twoRunState 0 configureRequest twoRunPitch (runOfLayers []) (le 8 8192) askedCkpt
    ⟨rfl, rfl, by decide⟩ (by decide) rfl (by decide) (by decide) dramTable_twoRunState rfl rfl (by decide +kernel)
  have hstates := congrArg outcomeSlotStates hnext
  rw [slotStates_exec_configure] at hstates
  exact absurd (hstates.trans slotStates_loaded_first) (by decide)

/-! ### A memory that is not canonical -/

/-- A queue whose completion ring stands at address 4096. -/
def recordQueue : Queue :=
  { id := 0, ringBase := 0, compBase := 4096, notifyAddr := 0, ringSize := 16, homeLdie := 0, weight := 1, ageLimit := 1000, head := 1
    tail := 1 }

/-- Its finished item 0, which writes nothing but its completion record. -/
def finishedItem : Item := { key := ⟨7, 0, 0⟩, wd := unreadWork 0, phase := .finished }

def finishedPitch : Pitch := { pitchOnDie0 with queues := [recordQueue], items := [finishedItem] }

/-- The module with that pitch, whose memory lists key 0 behind key 4096, so that key 0 reads as zero. -/
def unsortedState : State := poweredModule finishedPitch [(4096, 1), (0, 1)]

/-- The byte at key 0 in the state that an outcome answers. -/
def outcomeByte0 : Host.Outcome State Fault Refusal → Byte
  | .next s => memGet s.mem 0
  | _ => 0

/-- ITEM_COMPLETE stores the zero of the record's first byte, which takes key 4096 out of the list and uncovers key 0. -/
theorem outcomeByte0_exec_itemComplete : outcomeByte0 (exec (.itemComplete ⟨7, 0, 0⟩) unsortedState) = 1 := by decide +kernel

/-- Key 0 is none that the item's stores may reach. -/
theorem zero_notMem_completionStores :
    0 ∉ (finishedItem.completionStores finishedPitch recordQueue).flatMap (unsortedState.storeKeys finishedPitch) := by
  decide +kernel

/-- Refutes O42: its second clause asks nothing of the memory's form, and in `unsortedState`, which no step from reset reaches (O37, O40),
a byte outside the item's stores changes. -/
theorem not_storesStayInPlace : ¬ Obligations.StoresStayInPlace := by
  rintro ⟨-, hcomplete⟩
  obtain ⟨t, hnext⟩ : ∃ t, exec (.itemComplete ⟨7, 0, 0⟩) unsortedState = .next t := ⟨_, rfl⟩
  have hbyte := outcomeByte0_exec_itemComplete
  rw [hnext] at hbyte
  have hkept : memGet t.mem 0 = memGet unsortedState.mem 0 :=
    hcomplete unsortedState t ⟨7, 0, 0⟩ finishedPitch finishedItem recordQueue ⟨rfl, rfl⟩ rfl hnext 0 zero_notMem_completionStores
  exact absurd (hbyte.symm.trans hkept) (by decide)

end Sys2Proof.Machine
end
